-- ==== Sys2Proof/Word.lean ====
section
/-! DEFINITION. Word sizes of the machine, lanes, and the plainest arithmetic on them. -/

namespace Sys2Proof

abbrev Byte := BitVec 8
/-- One 32-bit lane (01 R20). -/
abbrev Word := BitVec 32
/-- One S register (01 R21). -/
abbrev DWord := BitVec 64
/-- A 32-bit mask with one bit per lane (01 R21). -/
abbrev Mask := BitVec 32

/-- One value for each of the 32 lanes of a gang (01 R20). -/
abbrev Lanes (α : Type) := Vector α 32

/-- The lane values given by a function of the lane number. -/
def Lanes.of {α : Type} (f : Fin 32 → α) : Lanes α := Vector.ofFn f

/-- The same value in every lane. -/
def Lanes.all {α : Type} (a : α) : Lanes α := Vector.replicate 32 a

/-- The lanes of a gang in ascending order. -/
def laneList : List (Fin 32) := List.finRange 32

/-- The mask whose bit i is f i. -/
def maskOf (f : Fin 32 → Bool) : Mask :=
  laneList.foldl (fun m i => if f i then m ||| BitVec.twoPow 32 i.val else m) 0

/-- Bit i of a mask. -/
def Mask.has (m : Mask) (i : Fin 32) : Bool := m.getLsbD i.val

/-- The lowest lane of a mask. -/
def Mask.lowest (m : Mask) : Option (Fin 32) := laneList.find? (fun i => Mask.has m i)

/-- The lanes of a mask in ascending order. -/
def Mask.lanes (m : Mask) : List (Fin 32) := laneList.filter (fun i => Mask.has m i)

/-- Number of set bits of a word (08 R273 popc, R283 count). -/
def popCount {n : Nat} (x : BitVec n) : Nat :=
  (List.range n).foldl (fun k i => if x.getLsbD i then k + 1 else k) 0

/-- Number of leading zero bits (08 R273 clz). -/
def leadingZeros {n : Nat} (x : BitVec n) : Nat :=
  if x.toNat = 0 then n else n - 1 - x.toNat.log2

/-- The natural number held in bits [hi:lo] of a word (00 R5). -/
def bits {n : Nat} (x : BitVec n) (hi lo : Nat) : Nat :=
  (x.toNat >>> lo) % 2 ^ (hi + 1 - lo)

/-- The bytes of a value, least significant first (00 R5). -/
def toBytes (n : Nat) (x : Nat) : List Byte :=
  (List.range n).map (fun i => BitVec.ofNat 8 (x >>> (8 * i)))

/-- The value of a list of bytes, least significant first (00 R5). -/
def ofBytes : List Byte → Nat
  | [] => 0
  | b :: bs => b.toNat + 256 * ofBytes bs

/-- The signed reading of the low n bits of a number (07 R244 sext). -/
def signed (n : Nat) (x : Nat) : Int :=
  let m := x % 2 ^ n
  if m < 2 ^ (n - 1) then m else (m : Int) - (2 ^ n : Nat)

end Sys2Proof
end

