-- ==== Sys2Proof/Syntax.lean ====
section
/-! DEFINITION. The steps of the Odeno-4: one constructor of Instr per row of spec/opcode_table.json.
The first part of Instr is the 202 instruction words (07 R216 to R230), the second the 94 events (95). -/

namespace Sys2Proof

abbrev VReg := BitVec 6
abbrev SReg := BitVec 5
abbrev PReg := BitVec 3
abbrev CReg := BitVec 4
abbrev QReg := BitVec 4
abbrev BaReg := BitVec 2
abbrev TileNo := BitVec 3
/-- Physical core id: die [11:10], x [9:5], y [4:0] (01 R12). -/
abbrev CoreId := BitVec 12
/-- Gang slot of a core (01 R20). -/
abbrev SlotId := Fin 8

/-- The cond field of the C form (07 R209). -/
structure Cond where
  neg  : Bool
  pred : PReg
deriving DecidableEq, Repr

/-- ALU sub-ops (07 R220), in the order of their codes. -/
inductive AluOp
  | add | sub | mul | mulh | div | rem | min | max | and | or | xor | andn | shl | shr | sra | ror
  | abs | neg | not | clz | popc | mov | absd | avg | mulhu | divu | remu | minu | maxu
deriving DecidableEq, Repr

/-- Compare sub-ops (07 R221). -/
inductive CmpOp
  | eq | ne | lt | le | gt | ge | ltu | leu | gtu | geu | tst
deriving DecidableEq, Repr

/-- VRED kinds (07 R222). -/
inductive VredKind
  | add | min | max | and | or | xor | fadd | fmin | fmax
deriving DecidableEq, Repr

/-- VSCAN kinds (07 R222). -/
inductive VscanKind
  | add | addx | min | max | fadd
deriving DecidableEq, Repr

/-- VOTE kinds (07 R222). -/
inductive VoteKind
  | ballot | any | all | count
deriving DecidableEq, Repr

/-- PLOG sub-ops (07 R222). -/
inductive PlogOp
  | pand | por | pxor | pandn | pnot | pmov
deriving DecidableEq, Repr

/-- Floating-point sub-ops (07 R223). -/
inductive FopOp
  | fadd | fsub | fmul | fdiv | fmin | fmax | fsqrt | fexp2 | flog2 | fneg | fabs | fcpys
deriving DecidableEq, Repr

/-- FMA sub-ops (07 R223). -/
inductive FmaOp
  | fma | fms | fnma | fnms
deriving DecidableEq, Repr

/-- Floating-point compares (07 R223). -/
inductive FcmpOp
  | feq | fne | flt | fle | fgt | fge
deriving DecidableEq, Repr

/-- FCVT type codes (07 R224). -/
inductive CvtTy
  | i32 | n32 | i16 | n16 | i8 | n8 | f32 | f16 | bf16 | e4m3 | e5m2 | e2m1 | i64 | n64
deriving DecidableEq, Repr

/-- MODE fields named by SETMF (07 R217). -/
inductive ModeField
  | guard | etype | rnd | ftz | sat | oosz | scope | kresume
deriving DecidableEq, Repr

/-- Scopes (05 R146). -/
inductive Scope
  | gang | core | crew | die | pkg | sys
deriving DecidableEq, Repr

/-- Fence kinds (05 R147). -/
inductive FenceKind
  | acq | rel | full
deriving DecidableEq, Repr

/-- Access sizes of the D form (07 R210): 1, 2, 4, 8, 16 bytes. -/
inductive Size
  | b | h | w | d | q
deriving DecidableEq, Repr

/-- Load qualifiers (07 R210). -/
inductive LoadQ
  | plain | fe | fk | sc
deriving DecidableEq, Repr

/-- Store qualifiers (07 R210). -/
inductive StoreQ
  | plain | sc
deriving DecidableEq, Repr

/-- Atomic operations (07 R227). -/
inductive AtomOp
  | add | min | max | and | or | xor | swap
deriving DecidableEq, Repr

/-- Ordering qualifiers of ATOMC (07 R227). -/
inductive AtomQ
  | none | acq | rel | ar | sc
deriving DecidableEq, Repr

/-- CGET fields (09 R306). -/
inductive CapField
  | space | perm | id | origin | length | tag
deriving DecidableEq, Repr

/-- Counters of RDCNT (10 R370). -/
inductive Counter
  | cycle | retired | tick
deriving DecidableEq, Repr

/-- A D-form address with a V index (07 R206): capability, index, addressing mode. -/
structure VMem where
  cap : CReg
  idx : VReg
  am  : BitVec 2
deriving DecidableEq, Repr

/-- A D-form address with an S index. -/
structure SMem where
  cap : CReg
  idx : SReg
  am  : BitVec 2
deriving DecidableEq, Repr

/-- The accesses a peer module makes (12 R438, R439). -/
inductive PeerKind
  | read | write
deriving DecidableEq, Repr

/-- How a SYS read ends (12 R417). -/
inductive SysStatus
  | ok | refused | poisoned
deriving DecidableEq, Repr

/-- Who accesses a debug window or an aperture register: a gang, or the master of a host function (11 R395, 12 R421). -/
inductive Actor
  | gang (core : CoreId) (slot : SlotId)
  | func (n : Fin 4)
deriving DecidableEq, Repr

/-- Module id of the fabric group (12 R437). -/
abbrev ModuleId := BitVec 6

/-- What self-test, the flash and the configuration record bring to a boot (12 R440, R443, 00 R2). -/
structure BootInfo where
  /-- physical core ids of sites that failed self-test (00 R2) -/
  dark       : List CoreId
  /-- firmware slots that verify -/
  slotOk     : List Bool
  /-- the slot the flash selects -/
  active     : Nat
  /-- versions of the two slots -/
  versions   : List Nat
  rollback   : Nat
  /-- the configuration record verifies -/
  recordOk   : Bool
  pstate     : Nat
  modid      : ModuleId
  serial     : DWord
  /-- default partitions: 16-byte descriptors of PART_CREATE (12 R431) -/
  parts      : List (List Byte)
  /-- code words of the boot program (12 R442) -/
  program    : List Word
  /-- digests for MEAS0 to MEAS2 (12 R440, R445) -/
  digests    : List (List Byte)
  /-- the event log and its next sequence number kept in flash (12 R447) -/
  logSeq     : Nat
  /-- power has been off: a new power cycle, and not PERST# within one (00 R2, 01 R15) -/
  cycle      : Bool
  /-- the selected slot has been activated and not committed, and how often in a row it has failed to boot (12 R444) -/
  trial      : Bool
  fails      : Nat
deriving DecidableEq, Repr, Inhabited

/-- One constructor per row of spec/opcode_table.json. -/
inductive Instr
  -- control, 0x01 to 0x0F (07 R216)
  | br (c : Cond) (off : BitVec 20)
  | brany (c : Cond) (off : BitVec 20)
  | brall (c : Cond) (off : BitVec 20)
  | brnone (c : Cond) (off : BitVec 20)
  | call (off : BitVec 20)
  | jmp (a : SReg)
  | callr (a : SReg)
  | ret
  | if_ (c : Cond) (off : BitVec 20)
  | else_ (off : BitVec 20)
  | endif
  | loop (off : BitVec 20)
  | endloop (c : Cond) (off : BitVec 20)
  | break_ (c : Cond) (off : BitVec 20)
  | cont (c : Cond) (off : BitVec 20)
  | conv
  | exit
  | gangEnd (core : CoreId) (slot : SlotId)
  | yield
  | nop
  | setmode (a : SReg)
  | getmode (a : SReg)
  | setfs (a : SReg)
  | getfs (a : SReg)
  | setmf (f : ModeField) (imm : BitVec 12)
  -- channels and synchronisation, 0x10 to 0x1D (07 R218)
  | publish
  | unpublish
  | subscribe (a b : SReg)
  | subscribeRegistration (core : CoreId) (slot : SlotId)
  | unsub (c : Cond)
  | resub (a b : SReg)
  | rendez (tag : BitVec 16)
  | chstat (a : SReg)
  | streamPacketEntry (core : CoreId) (slot : SlotId)
  | publisherHold (core : CoreId)
  | fence (kind : FenceKind) (scope : Option Scope)
  | fenceComplete (core : CoreId) (slot : SlotId)
  | xfence (from_ to_ : BitVec 4)
  | xfenceComplete (core : CoreId) (slot : SlotId)
  | barwtRelease (core : CoreId) (slot : SlotId)
  | feset (a : CReg)
  | feclr (a : CReg)
  | fewait (a : CReg)
  | fewaitComplete (core : CoreId) (slot : SlotId)
  | wmset (ch : BitVec 4) (a b : SReg)
  | wmwait (ch : BitVec 4) (a : SReg)
  | wmwaitComplete (core : CoreId) (slot : SlotId)
  | watermarkLoadRelease (core : CoreId) (slot : SlotId)
  -- integer, 0x20 to 0x3B (07 R219)
  | vop (op : AluOp) (d a b : VReg)
  | vops (op : AluOp) (d a : VReg) (b : SReg)
  | addImmV (d a : VReg) (imm : BitVec 12)
  | mulImmV (d a : VReg) (imm : BitVec 12)
  | andImmV (d a : VReg) (imm : BitVec 12)
  | orImmV (d a : VReg) (imm : BitVec 12)
  | xorImmV (d a : VReg) (imm : BitVec 12)
  | shlImmV (d a : VReg) (imm : BitVec 8)
  | shrImmV (d a : VReg) (imm : BitVec 8)
  | sraImmV (d a : VReg) (imm : BitVec 8)
  | vcmp (op : CmpOp) (d : PReg) (a b : VReg)
  | vcmps (op : CmpOp) (d : PReg) (a : VReg) (b : SReg)
  | sel (d a b : VReg) (p : PReg)
  | mad (d a b : VReg)
  | dot2 (d a b : VReg)
  | dot4 (d a b : VReg)
  | sop (op : AluOp) (d a b : SReg)
  | addImmS (d a : SReg) (imm : BitVec 12)
  | mulImmS (d a : SReg) (imm : BitVec 12)
  | andImmS (d a : SReg) (imm : BitVec 12)
  | orImmS (d a : SReg) (imm : BitVec 12)
  | xorImmS (d a : SReg) (imm : BitVec 12)
  | shlImmS (d a : SReg) (imm : BitVec 8)
  | shrImmS (d a : SReg) (imm : BitVec 8)
  | sraImmS (d a : SReg) (imm : BitVec 8)
  | lil (d : SReg) (imm : BitVec 16)
  | lih (d : SReg) (imm : BitVec 16) (k : BitVec 2)
  | scmp (op : CmpOp) (d : PReg) (a b : SReg)
  -- lanes and predicates, 0x40 to 0x4A (07 R222)
  | shfl (d a b : VReg)
  | shflUp (d a : VReg) (b : SReg)
  | shflDown (d a : VReg) (b : SReg)
  | shflXor (d a : VReg) (b : SReg)
  | shflBcast (d a : VReg) (b : SReg)
  | vred (k : VredKind) (d : SReg) (a : VReg)
  | vscan (k : VscanKind) (d a : VReg)
  | vote (k : VoteKind) (d : SReg) (a : PReg)
  | plog (op : PlogOp) (d a b : PReg)
  | ptos (d : SReg) (a : PReg)
  | pfroms (d : PReg) (a : SReg)
  | setexm (a : SReg)
  | getexm (d : SReg)
  | getpkm (d : SReg)
  | andexm (a : PReg)
  | vtos (d : SReg) (a : VReg) (b : SReg)
  | stov (d : VReg) (a b : SReg)
  | laneid (d : VReg)
  -- floating point and conversion, 0x50 to 0x5A (07 R223)
  | fop (op : FopOp) (d a b : VReg)
  | fops (op : FopOp) (d a : VReg) (b : SReg)
  | sfop (op : FopOp) (d a b : SReg)
  | fma (op : FmaOp) (d a b : VReg)
  | fmaVs (op : FmaOp) (d a : VReg) (b : SReg)
  | fmaS (op : FmaOp) (d a b : SReg)
  | fcmp (op : FcmpOp) (d : PReg) (a b : VReg)
  | fcmpS (op : FcmpOp) (d : PReg) (a : VReg) (b : SReg)
  | fclass (d b : VReg)
  | fcvt (target source : CvtTy) (d a : VReg)
  | fcvtS (target source : CvtTy) (d a : SReg)
  -- memory, 0x70 to 0x7A (07 R225)
  | ld (d : VReg) (m : VMem) (sz : Size) (q : LoadQ)
  | lds (d : VReg) (m : VMem) (sz : Size) (q : LoadQ)
  | st (d : VReg) (m : VMem) (sz : Size) (q : StoreQ)
  | sld (d : SReg) (m : SMem) (sz : Size) (q : LoadQ)
  | slds (d : SReg) (m : SMem) (sz : Size) (q : LoadQ)
  | sst (d : SReg) (m : SMem) (sz : Size) (q : StoreQ)
  | qualifiedLoadComplete (core : CoreId) (slot : SlotId)
  | ldc (d : CReg) (m : SMem)
  | stc (d : CReg) (m : SMem)
  | ldb (cap : CReg) (d : VReg) (ba : BaReg) (w1 : BitVec 5) (inc : Bool)
  | stb (cap : CReg) (d : VReg) (ba : BaReg) (w1 : BitVec 5) (inc : Bool)
  | baset (k : BaReg) (b : SReg)
  | baget (k : BaReg) (b : SReg)
  | baadd (k : BaReg) (b : SReg)
  -- capabilities and objects, 0x90 to 0x98 (07 R226)
  | cinc (d a : CReg) (b : SReg)
  | csetb (d a : CReg) (b : SReg)
  | cperm (d a : CReg) (b : SReg)
  | cget (f : CapField) (d : SReg) (a : CReg)
  | cmov (d a : CReg)
  | objview (d a : CReg) (b : SReg)
  | objinfo (d : SReg) (a : CReg) (word : BitVec 3)
  | objres (d : SReg) (a : CReg) (b : SReg)
  | objsum (d : VReg) (a : CReg) (b : SReg)
  -- atomics and transactions, 0xA0 to 0xAC (07 R227)
  | atom (op : AtomOp) (d : VReg) (m : VMem) (sz : Size)
  | atomAcq (op : AtomOp) (d : VReg) (m : VMem) (sz : Size)
  | atomRel (op : AtomOp) (d : VReg) (m : VMem) (sz : Size)
  | atomAr (op : AtomOp) (d : VReg) (m : VMem) (sz : Size)
  | atomSc (op : AtomOp) (d : VReg) (m : VMem) (sz : Size)
  | atomc (q : AtomQ) (d : VReg) (m : VMem) (sz : Size)
  | red (op : AtomOp) (d : VReg) (m : VMem) (sz : Size)
  | redRel (op : AtomOp) (d : VReg) (m : VMem) (sz : Size)
  | atomicPerform (core : CoreId) (n : Nat)
  | reductionPerform (core : CoreId) (n : Nat)
  | atomr (cap : CReg) (sr : VReg) (t : VReg) (slot : BitVec 6)
  | txLogGrant (core : CoreId)
  | txend (off : BitVec 20)
  | irrevocableTokenGrant (part : Fin 4)
  | txabort (code : BitVec 8)
  | txstat (d : VReg)
  -- engines, queues, rings and records, 0xB0 to 0xBF (07 R228)
  | cpy (sr : VReg) (dst src : CReg) (cmpl : Bool)
  | cpym (sr : VReg) (dst src : CReg) (cmpl skipdark : Bool)
  | cpyo (sr : VReg) (dst src : CReg) (cmpl : Bool)
  | gathe (sr : VReg) (dst src : CReg) (cmpl : Bool)
  | scate (sr : VReg) (dst src : CReg) (cmpl : Bool)
  | cpycan (sr : SReg)
  | copyChunk (core : CoreId) (cslot : Nat)
  | copyChunkComplete (core : CoreId) (cslot : Nat) (dest : Nat)
  | selk (sr : VReg) (t : SReg)
  | selectInputConsume (core : CoreId) (slot : SlotId)
  | selres (d : VReg)
  | qpush (q : QReg) (a : VReg)
  | qpop (d : VReg) (q : QReg)
  | qstat (d : SReg) (q : QReg)
  | queueWake (core : CoreId) (slot : SlotId)
  | send (sr : VReg) (t : SReg)
  | inboxWaiterEntry (core : CoreId)
  | waitmsgDelivery (core : CoreId)
  | ringmk (cap : CReg) (sr : SReg) (t : SReg)
  | ringdes (a : SReg)
  | rpush (sr : VReg) (t : SReg)
  | rpop (sr : VReg) (t : SReg)
  | ringRequestApply (core : CoreId) (n : Nat)
  | spawn (sr : VReg)
  | binTimerExpiry (die : Fin 4) (bin : BitVec 8)
  -- matrix, planes and sparsity, 0xC0 to 0xCC (07 R229)
  | mma (t : TileNo) (n1 : BitVec 5) (f : VReg) (ca cb : CReg)
  | mmaS (t : TileNo) (n1 : BitVec 5) (f : VReg) (ca cb : CReg)
  | indexPassComplete (core : CoreId) (slot : SlotId)
  | matrixOpStart (core : CoreId)
  | matrixStep (core : CoreId)
  | mzero (t : TileNo)
  | mload (t : TileNo) (c : CReg) (b : SReg)
  | mdrain (t : TileNo) (c : CReg) (b : SReg)
  | mdrainQ (t : TileNo) (b : SReg)
  | drainQ11Push (core : CoreId) (slot : SlotId)
  | mstat (t : TileNo) (a : SReg)
  | mwait (t : TileNo)
  | prune (ci co : CReg) (b : SReg)
  | sphdr (a : SReg) (c : CReg)
  | sphdrChk (a : SReg) (c : CReg)
  | plane (ci co : CReg) (b : SReg)
  | unplane (ci co : CReg) (b : SReg)
  | qbni (d a : VReg) (p : BitVec 6)
  | dqbni (d a : VReg) (p : BitVec 6)
  -- launch, registers, identity and counters, 0xD0 to 0xD9 (07 R230)
  | launch (a : SReg)
  | gangPlacement (die : Fin 4)
  | bincfg (a b : SReg)
  | grow (a : BitVec 12)
  | growGrant (core : CoreId)
  | shrink (a : BitVec 12)
  | wid (d : VReg)
  | widf (d : VReg) (k : BitVec 3)
  | rdcnt (k : Counter) (d : SReg)
  | trap (code : BitVec 12)
  | brk (code : BitVec 12)
  -- privileged, 0xE0 to 0xEC (07 R230, 10 R374)
  | supsetCore (a b : SReg)
  | supsetPriv (a b : SReg)
  | supsetGet (a b : SReg)
  | freeze (a : SReg)
  | resume (a b : SReg)
  | cpyres (a b : SReg)
  | cpyresCan (a b : SReg)
  | ctxsave (a : SReg)
  | ctxsaveSpill (a : SReg) (m : CReg)
  | ctxswap (a : SReg)
  | ctxload (a : SReg)
  | ctxloadFill (a : SReg) (m : CReg)
  | migrate (a b : SReg)
  | migrateRetire (a : SReg)
  | stopCore (a : SReg)
  | startCore (a : SReg)
  | objinv (a : SReg)
  | rtnld (a b : SReg)
  | rtnclr (a : SReg)
  | ortsetBase (a b : SReg)
  | ortsetRec (a b : SReg)
  | chanctlSet (a b : SReg)
  | chanctlClr (a : SReg)
  | partctl (k : BitVec 3) (a b : SReg)
  -- events of the device (95)
  | illegalWord (w : Word)
  | loadPerform (core : CoreId) (n : Nat)
  | tileOperationComplete (core : CoreId)
  | storePerform (core : CoreId) (n : Nat)
  | readCacheLineExpiry (core : CoreId) (line : Nat)
  | scWindowComplete (part : Fin 4)
  | orderedEventRelease (core : CoreId) (slot : SlotId)
  | faultPacketDelivery (n : Nat)
  | watchdogHung (core : CoreId) (slot : SlotId)
  | convergenceCountFreeze (core : CoreId) (slot : SlotId)
  | powerOnReset (b : BootInfo)
  | sysReadCompletion (core : CoreId) (slot : SlotId) (status : SysStatus)
  | sysReadTimeout (core : CoreId) (slot : SlotId)
  | partScrubComplete (part : Fin 4)
  | parkComplete (die : Fin 4)
  | unparkComplete (die : Fin 4)
  | pstateStepComplete (part : Fin 4)
  | pstateStepDown (part : Fin 4)
  | pstateStepUp (part : Fin 4)
  | fountPacketService
  | debugWindowWrite (by_ : Actor) (pa : Nat) (size : Nat) (value : DWord)
  | debugStatusRead (by_ : Actor) (core : CoreId) (slot : SlotId)
  | functionLevelReset (n : Fin 4)
  | hostPost (fn : Fin 4) (offset : Nat) (data : List Byte)
  | registerWrite (master : Byte) (offset : Nat) (size : Nat) (value : DWord)
  | evcauseClear (fn : Fin 4) (value : DWord)
  | recordCommit (fn : Fin 4) (value : DWord)
  | claim (master : Byte) (data : List Byte)
  | claimVerification
  | renew (master : Byte) (data : List Byte)
  | yieldOwnership (master : Byte) (data : List Byte)
  | leaseWarning
  | leaseRevocation
  | partCreate (master : Byte) (data : List Byte)
  | partDestroy (master : Byte) (data : List Byte)
  | partReset (master : Byte) (data : List Byte)
  | setDeleg (master : Byte) (data : List Byte)
  | setModid (master : Byte) (data : List Byte)
  | setRoute (master : Byte) (data : List Byte)
  | setExport (master : Byte) (data : List Byte)
  | attest (master : Byte) (data : List Byte)
  | extend (master : Byte) (data : List Byte)
  | cert (master : Byte) (data : List Byte)
  | updateWrite (master : Byte) (data : List Byte)
  | updateActivate (master : Byte) (data : List Byte)
  | updateCommit (master : Byte) (data : List Byte)
  | logRead (master : Byte) (data : List Byte)
  | logSegmentSign
  | portLinkUp (port : BitVec 4) (peer : ModuleId)
  | peerAccess (source : ModuleId) (kind : PeerKind) (addr : Nat) (data : List Byte)
  | setCeiling (master : Byte) (data : List Byte)
  | setShare (master : Byte) (data : List Byte)
  | setPmax (master : Byte) (data : List Byte)
  | park (master : Byte) (data : List Byte)
  | unpark (master : Byte) (data : List Byte)
  | setEscpol (master : Byte) (data : List Byte)
  | fresume (master : Byte) (data : List Byte)
  | setWdog (master : Byte) (data : List Byte)
  | clrCounters (master : Byte) (data : List Byte)
  | railSample (module : Nat) (parts : List Nat)
  | powerEstimate (projected : List Nat)
  | thermalStep (die : Fin 4) (tmax : Nat)
  | thermalTrip (die : Fin 4) (tmax : Nat)
  | portLinkDown (port : BitVec 4)
  | busMasterEnableChange (fn : Fin 4) (on : Bool)
  -- words without operands of 0x10, 0xA0, 0xB0, 0xD0 and 0xE0 (Lean gives only the first 245 constructors with operands code)
  | bararv
  | barwtI
  | barwtX
  | txbegin
  | waitmsg
  | beat
  | stopPart
  | startPart
deriving DecidableEq, Repr

end Sys2Proof
end

