-- ==== Sys2Proof/Config.lean ====
section
/-! DEFINITION. What one shipped module fixes (figures of 00 R1 and 02 R58) and the free values: constants without a body,
of which no proof can see a value. The log entries 2, 4, 5 and 6 name them. -/

namespace Sys2Proof.Config

/-- Sites in the package (00 R1). -/
def sites : Nat := 4096
/-- Bytes of one scratchpad (02 R58). -/
def padBytes : Nat := 262144
/-- Bytes of one stack (12 R433). -/
def stackBytes : Nat := 48 * 2 ^ 30

/-- Free: which of the enabled moves of the module comes next (log 2), indexed by the model's clock. -/
opaque schedule : Nat → Nat
/-- Free: how far TICK runs on when a partition is given a move in which nothing happens, less one (log 2). -/
opaque advance : Nat → Nat
/-- Free: how many microseconds pass meanwhile for Fount (log 2). -/
opaque elapse : Nat → Nat
/-- Free: how many ac after an issue the gang's next instruction is present and its resources are free (log 2). -/
opaque gap : Nat → Nat
/-- Free: what power-on finds in flash and at self-test (log 5). -/
opaque bootInfo : Nat → BootInfo
/-- Free: whether an ML-DSA-44 signature over a byte string verifies under key k (log 6). -/
opaque verifies : Nat → List Byte → List Byte → Bool
/-- Free: the ML-DSA-44 signature of the module's identity key (log 6). -/
opaque sign : List Byte → List Byte
/-- Free: a fresh 32-byte CHALLENGE (log 6). -/
opaque nonce : Nat → List Byte
/-- Free: the certificate chain's pages (log 6). -/
opaque certPage : Nat → List Byte
/-- Free: a fresh lease number (log 6). -/
opaque lease : Nat → DWord
/-- Free: the vendor of the functions (log 87). -/
opaque vendor : BitVec 16
/-- Free: silicon revision (log 6). -/
opaque revision : BitVec 8
/-- Free: a 64-bit value the spec leaves undefined (log 4). -/
opaque word : Nat → DWord
/-- Free: a natural number the spec leaves undefined (log 4). -/
opaque nat : Nat → Nat
/-- Free: a natural number the spec leaves undefined, one for each item of a move (log 4). -/
opaque nat2 : Nat → Nat → Nat
/-- Free: what memory of another module holds, by move and address (log 4). -/
opaque peerByte : Nat → Nat → Byte

/-- Free: the version word of a context image (log 7). -/
opaque ctxVersion : Nat
/-- Free: the bytes of the image of spill n past its digest (log 7). -/
opaque ctxByte : Nat → Nat → Byte

/-- Free: the type numbers of log entries that the manual does not number, by kind of event (log 6). -/
opaque logType : Nat → Nat
/-- Free: the detail bytes of a log entry, by sequence number (log 6). -/
opaque logDetail : Nat → List Byte
/-- Free: the ac of the 64 from which a throttled partition may issue, by duty (log 9). -/
opaque dutyPhase : Nat → Nat

/-- Free: whether a firmware image verifies, and its version (log 6). -/
opaque imageOk : List (Nat × Byte) → Bool
opaque imageVersion : List (Nat × Byte) → Nat

end Sys2Proof.Config
end

