-- ==== Sys2Proof/Machine/State.lean ====
section
/-! DEFINITION. The state of a CLP-OD4 module as plain data, the names of its stops, and the state after power is applied. -/

namespace Sys2Proof.Machine

/-- A gang word was given to exec while the slot that cur names holds no running gang, or an engine step names state that is
absent in a way no step of the module makes. Raised by the meanings of the 202 words only. Safe: the machine stops where the
hardware, which never issues a word of an empty slot, has no move. -/
inductive Fault
  | noGang
deriving DecidableEq, Repr

/-- Why a constructor has no meaning. -/
inductive Refusal
  /-- An instruction that the model has not reached; no arm of exec answers it when the row is complete. Safe. -/
  | notModelled (mnemonic : String)
deriving DecidableEq, Repr

/-! Memories and sparse tables. -/

/-- Bytes by address: addresses strictly rising, no byte listed that equals what an unlisted address reads as (log 3: zero). -/
abbrev Memory := List Host.Cell
/-- A set of granule numbers, strictly rising (02 R53, R58). -/
abbrev Granules := List Nat
/-- A sparse table, keys strictly rising. -/
abbrev Tbl (α : Type) := List (Nat × α)

/-- Physical place of a byte (05 R140): a scratchpad byte, a physical address of 12 R433, or a host address (12 R416). -/
inductive Loc
  | pad (core : CoreId) (off : Nat)
  | phys (pa : Nat)
  | host (addr : Nat)
deriving DecidableEq, Repr

/-! Capabilities and faults. -/

/-- A capability of 02 R51 with its hidden tag. -/
structure Cap where
  val : BitVec 128
  tag : Bool
deriving DecidableEq, Repr

/-- Fault codes of 11 R394. -/
inductive Code
  | none | illegal | privilege | capTag | capBounds | capPerm | outOfShape | notResident | notMapped | misaligned
  | formatDivergence | sparseMalformed | arrayMismatch | watchdog | growImpossible | ringClosed | copyOverlap
  | channel | dataError | escalation | break_ | trap | modeReserved | poisonedRing
deriving DecidableEq, Repr

/-- A fault with the detail fields of the fault record (11 R392). -/
structure Flt where
  code   : Code
  id     : Nat := 0
  gen    : Nat := 0
  space  : Nat := 0
  creg   : Nat := 0
  offset : DWord := 0
  coord0 : Word := 0
  coord1 : Word := 0
  kdone  : Nat := 0
deriving DecidableEq, Repr

/-- The fault record (11 R392); its 64 bytes are formed by recordBytes. -/
structure FaultRec where
  flt   : Flt
  copy  : Bool := false
  gangw : Bool := false
  hop   : Nat := 0
  slot  : Nat := 0
  core  : CoreId := 0
  plr   : Nat := 0
  lanes : Mask := 0
  pc    : DWord := 0
  word  : Word := 0
  chunk : Nat := 0
  cslot : Nat := 0
  tag   : BitVec 16 := 0
  tick  : Nat := 0
deriving DecidableEq, Repr

/-- Where a fault packet is bound (11 R388). -/
inductive Target
  | supv | dsupv | fount
deriving DecidableEq, Repr

/-- A fault packet raised and not yet delivered (11 R388, R390). -/
structure Packet where
  target : Target
  rec_   : FaultRec
  /-- the place in the line of the gang it has reached and whose entry is not free (R390) -/
  reached : Option Nat := none
  /-- not delivered when its core had halted: it is sent again after START (R402) -/
  kept    : Bool := false
deriving DecidableEq, Repr

/-! Gangs. -/

/-- Privilege levels (11 R386). -/
inductive Priv
  | u | s | p
deriving DecidableEq, Repr

/-- Kinds of mask-stack entry (08 R257). -/
inductive EntryKind
  | if_ | else_ | loop | tx
deriving DecidableEq, Repr

/-- One entry of the mask stack (08 R257). -/
structure Entry where
  mask : Mask
  kind : EntryKind
  brkm : Mask := 0
deriving DecidableEq, Repr

/-- A parked-lane record (01 R29): stack keeps each entry's KIND and the lanes' columns, bottom entry first. -/
structure ParkRec where
  pc    : DWord
  flt   : Flt
  lanes : Mask
  word  : Word
  stack : List Entry
  /-- the tick of the fault, for the record of R392 -/
  tick  : Nat := 0
deriving DecidableEq, Repr

/-- The convergence save (01 R32). -/
structure ConvSave where
  pc    : DWord
  exm   : Mask
  stack : List Entry
deriving DecidableEq, Repr

/-- The register file of a gang (01 R21). -/
structure Regs where
  v     : Vector (Lanes Word) 64
  s     : Vector DWord 32
  p     : Vector Mask 8
  c     : Vector Cap 16
  ba    : Vector (BitVec 48) 4
  exm   : Mask
  pkm   : Mask
  mode  : Word
  fstat : BitVec 5
  lfsr  : Lanes Word
  pc    : DWord
deriving DecidableEq, Repr

/-- What a waiting gang waits for (07 R244, 11 R403, 06 R202). -/
inductive Why
  | registration | rendez
  | fenceRead | fenceWrite | fenceSys
  | xfence (from_ to_ : BitVec 4) (before : Nat)
  | barI | barX
  | full | fewait | wmwait | watermark | moving (id : Nat)
  | acquire | token | grow (a : Nat) | txLog
  | queue (q : Nat) | copySpace | tileSpace
  | launchQ | binFull | binDrain | send (core : CoreId) | inbox | q14
  | ring | sysRead | sc (window : Nat) | ordered
  | drain (op : Nat) | stream (op : Nat) | indexPass (op : Nat) | mwait (tile : Nat) | header
  | objinv | stopping | freezing | exit
  /-- the ring controller has seen the request and holds it back (06 R188, R199) -/
  | ringBlocked
  /-- copies toward the channel are outstanding (02 R62) -/
  | wmset
  /-- an older access of the core to the same bytes is not done yet (05 R143, R144) -/
  | hazard
  /-- another gang's irrevocable transaction holds commits back (05 R170) -/
  | commit
deriving DecidableEq, Repr

/-- A wait: since orders the waiters of one thing, oldest first (06 R194). -/
structure Wait where
  why   : Why
  since : Nat
  /-- the word at which the gang waits -/
  word  : Word := 0
deriving DecidableEq, Repr

/-- Whether a gang runs, waits or is frozen (11 R397); stopped is a matter of its core. -/
inductive Status
  | running
  | waiting (w : Wait)
  | frozen
deriving DecidableEq, Repr

/-- A packet of an instruction stream (01 R38). -/
structure StreamPkt where
  word  : Word
  pc    : DWord
  seq   : BitVec 16
  tick  : Nat
  taken : Bool
  /-- it reached the subscriber's die after its entry time (01 R46) -/
  late  : Bool := false
deriving DecidableEq, Repr

/-- Roles in a cohort (01 R49). -/
inductive Role
  | none | publisher | waiting | subscriber
deriving DecidableEq, Repr

/-- Channel state of a gang (01 R37 to R49): buf is the stream buffer, due the packets on their way with entry times,
the staging queue of R45 among them. -/
structure Chan where
  role : Role := .none
  chan : CoreId := 0
  tag  : BitVec 16 := 0
  held : Bool := false
  /-- the TICK at which a registration completes (R39) -/
  reg  : Nat := 0
  /-- the stream sequence number of the next packet published -/
  seq  : BitVec 16 := 0
  /-- the PC of an instruction that has been published and has not retired (R38) -/
  done : Option DWord := none
  buf  : List StreamPkt := []
  due  : List (Nat × StreamPkt) := []
  /-- a hold takes effect at this TICK (R45) -/
  holdAt : Option Nat := none
  /-- a publisher that has migrated: the site whose number its channel keeps (R48) -/
  kept : Option CoreId := none
deriving DecidableEq, Repr

/-- The open transaction of one lane (05 R165): words are aligned 8-byte places; a write keeps a byte mask. -/
structure LaneTx where
  isOpen : Bool := false
  reads  : List (Loc × DWord) := []
  writes : List (Loc × DWord × BitVec 8) := []
  /-- the fault held until TXEND (R168): its detail and word -/
  held   : Option (Flt × Word) := none
deriving DecidableEq, Repr

/-- Transaction state of a gang (05 R163 to R172). -/
structure Tx where
  lanes  : Vector LaneTx 32
  stat   : Lanes Word
  /-- PC of the TXBEGIN -/
  begin_ : DWord := 0
  active : Bool := false
  /-- the lane that holds the irrevocable token (R170) -/
  irrev  : Option (Fin 32) := none
deriving DecidableEq, Repr

/-- Classes of engine command (06 R200): C, M and S; lent is a pair operation of another core on a tile of the gang (04 R119). -/
inductive EngineClass
  | copy | matrix | select | lent
deriving DecidableEq, Repr

/-- A completed engine command that a deterministic partition does not report yet (06 R200): its LT at issue, the tiles it named, and the
entries of its result queue that nothing has popped. -/
structure Past where
  cls   : EngineClass
  lt    : Nat
  tiles : BitVec 8 := 0
  out   : Nat := 0
deriving DecidableEq, Repr

/-- One input of the select unit (09 R333). -/
structure SelIn where
  vals  : Lanes Word
  mask  : Mask
  param : DWord
  /-- MODE.FTZ at issue: subnormal keys are read as zeros (03 R89, log 92) -/
  ftz   : Bool
  /-- LT at issue, for 06 R200 -/
  lt    : Nat
deriving DecidableEq, Repr

/-- One element of a selection: its column, its index, its key, and whether a subnormal key ranks as zero. -/
structure SelElem where
  col : Nat
  idx : Nat
  val : Word
  ftz : Bool
deriving DecidableEq, Repr

/-- An open selection (09 R333 to R335): elements as column, index and key. -/
structure Sel where
  param : DWord
  next  : Nat := 0
  elems : List SelElem := []
  /-- result entries that wait in the unit -/
  out   : List (Lanes Word) := []
  fin   : Bool := false
deriving DecidableEq, Repr

/-- Work identifier and crew of a gang (01 R33, R34): fields 1 to 5 with their widths. -/
structure Ident where
  widths : List Nat := []
  fields : List Nat := []
  /-- crew: launch number, level-2 unit; gangs with equal crew belong together -/
  crew   : Nat := 0
  /-- the dies the crew occupies -/
  dies   : BitVec 4 := 0
  /-- number of gangs of the crew -/
  size   : Nat := 1
deriving DecidableEq, Repr

/-- What the launch header fixes for a gang (06 R174). -/
structure Launched where
  prio    : Nat := 0
  persist : Bool := false
  redmx   : Bool := false
  tmask   : BitVec 8 := 0
  pint    : Nat := 0
  /-- fired from a bin (11 R387) -/
  bin     : Bool := false
deriving DecidableEq, Repr

/-- Counts kept for a gang (10 R370, 06 R193, R199, R203, 09 R320). -/
structure Counts where
  retired  : Nat := 0
  elapsed  : Nat := 0
  lt       : Nat := 0
  wt       : Nat := 0
  arrived  : Nat := 0
  /-- retired since the first park (01 R31) -/
  sincePark : Nat := 0
  /-- ac counted in the watchdog window or interval (06 R203, R204) -/
  dog      : Nat := 0
  /-- log2 of the window (11 R396) -/
  dogLog   : Nat := 20
  hung     : Bool := false
  /-- the ordered event at PC has been released (06 R199) -/
  ordOk    : Bool := false
  /-- the release that precedes the word at PC has completed (05 R147) -/
  relOk    : Bool := false
  /-- operation number of matrix events (04 R135) -/
  opNum    : BitVec 8 := 0
  /-- fault packets delivered to the slot (11 R390) -/
  packets  : Nat := 0
  /-- packets taken: HOP of the last one (11 R389) -/
  hopTaken : Option Nat := none
  /-- HOP of each delivered packet not yet taken, by record-area entry -/
  hops     : Tbl Nat := []
  /-- the model's own: TICK from which the next instruction is present and its resources are free (log 2) -/
  readyAt  : Nat := 0
deriving DecidableEq, Repr

/-- A debug-window write to a register that a load in flight will write (11 R399): a word of the slot window under a page, or a tag. -/
inductive LateWrite
  | word (page : BitVec 4) (off : Nat) (value : Word)
  | tag (r : CReg) (b : Bool)
deriving DecidableEq, Repr

/-- A gang in a slot. -/
structure Gang where
  regs   : Regs
  allot  : Nat
  stack  : List Entry := []
  parked : Vector (Option ParkRec) 8
  save   : Option ConvSave := none
  /-- a replay is under way (01 R32) -/
  replay : Bool := false
  /-- saves of the replays that a freeze with parked lanes has interrupted, innermost first (log 73) -/
  outer  : List ConvSave := []
  priv   : Priv := .u
  status : Status := .running
  fcode  : Code := .none
  pending : Bool := false
  /-- Fount holds the frozen gang, for a packet of this code (15 R467) -/
  hold   : Option Nat := none
  /-- window writes that take effect after the write-back of a load in flight, oldest first (11 R399) -/
  late   : List LateWrite := []
  page   : BitVec 4 := 0
  /-- the record of the last freeze (11 R396) -/
  rec_   : Option FaultRec := none
  /-- a FREEZE or a declared hang takes effect at the next boundary -/
  freezeReq : Bool := false
  /-- passed over at the next issue selection (08 R263) -/
  yielded : Bool := false
  ident  : Ident := {}
  hdr    : Launched := {}
  chan   : Chan := {}
  tx     : Tx
  /-- Q0 to Q15 (06 R179); a pair's window stands in its compute gang -/
  q      : Vector (List (Lanes Word)) 16
  selIn  : List SelIn := []
  sel    : Option Sel := none
  /-- drain entries that wait for Q11 (10 R349) -/
  drainOut : List (Lanes Word) := []
  /-- tokens that wait for Q9 (09 R330, 04 R135) -/
  tokens : List Word := []
  /-- engine commands completed but not yet reported complete (06 R200) -/
  past : List Past := []
  partner : Option SlotId := none
  shadow : Bool := false
  /-- flags held for reductions (03 R108) -/
  held   : BitVec 5 := 0
  cnt    : Counts := {}
  /-- KDONE of the stop at this PC, claims held for a replay (04 R137) -/
  heldClaims : Option DWord := none
  /-- tiles whose poisoning has not been reported yet (10 R339), with the step at which the operation stopped -/
  poisoned : List (Nat × Nat) := []
  /-- a fault that an engine raised while the gang waits at its instruction, taken at the wake -/
  owed   : Option (Flt × Mask) := none
deriving DecidableEq, Repr

/-! Cores. -/

/-- Where a load or an atomic writes its result. -/
inductive Dst
  | v (r : VReg)
  | s (r : SReg)
  | c (r : CReg)
  | none
deriving DecidableEq, Repr

/-- Element types of an atomic or a reduction (05 R158). -/
inductive AtomTy
  | i32 | n32 | i64 | n64 | f32
deriving DecidableEq, Repr

/-- What an access does at its home. -/
inductive Act
  | load (signExt : Bool)
  | capLoad (keepTag : Bool)
  | fields (w : Nat) (bit : Nat)
  | atom (op : AtomOp) (ty : AtomTy)
  | cas
  | routine (code : List Word)
  | store
deriving DecidableEq, Repr

/-- Operands of one lane of an access: the lane, its two operand values, its byte offset within the place. -/
structure LaneArg where
  lane : Fin 32
  a    : Nat := 0
  b    : Nat := 0
  off  : Nat := 0
deriving DecidableEq, Repr

/-- An access in flight (05 R143 item 3 and 5, R157): one home location, the lanes that name it. -/
structure Flight where
  slot  : SlotId
  act   : Act
  loc   : Loc
  size  : Nat
  dst   : Dst
  lanes : List LaneArg
  /-- served by the read cache (OBJECT loads) -/
  cached : Bool := false
deriving DecidableEq, Repr

/-- A write in the store buffer (05 R143). -/
inductive BufKind
  | bytes (data : List Byte)
  | cap (data : List Byte) (tag : Bool)
  | field (bit width : Nat) (val : Nat)
  | red (op : AtomOp) (ty : AtomTy) (vals : List Nat)
  /-- one half of a capability whose two elements are not one granule: its 8 bytes, its tag and the number of the entry with the
  other half, which leaves with it (09 R304) -/
  | half (data : List Byte) (tag : Bool) (twin : Nat)
deriving DecidableEq, Repr

/-- One entry of the store buffer; seen holds the slots that wrote it or whose loads returned it (05 R147). -/
structure BufEnt where
  seq  : Nat
  slot : SlotId
  seen : BitVec 8
  loc  : Loc
  size : Nat
  kind : BufKind
deriving DecidableEq, Repr

/-- A line of the read cache, with the tags of its granules (05 R143, 09 R304). -/
structure CacheLine where
  data : List Byte
  tags : BitVec 8
  fill : Nat
deriving DecidableEq, Repr

/-- A copy channel (02 R62): done bytes are the runs written since WMSET, as 16-byte granule numbers. -/
structure CopyChan where
  base  : Nat
  len   : Nat
  done  : Granules := []
deriving DecidableEq, Repr

/-- Commands of the copy engine (02 R78, 10 R353). -/
inductive CopyOp
  | cpy | cpym | cpyo | gathe | scate | prune | plane | unplane
deriving DecidableEq, Repr

/-- A chunk on its way to a destination (02 R81): places, values, and the bits of each byte that it writes. -/
structure Sent where
  dest  : Nat
  chunk : Nat
  puts  : List (Loc × Byte × Byte)
deriving DecidableEq, Repr

/-- One destination of a copy (02 R80, R81): a core's scratchpad, or the object (none); key is the site's number for CPYM and the
half and cluster position for NEAR; first its first scratchpad byte; total its bytes; done its completed chunks. -/
structure CopyDest where
  core  : Option CoreId
  key   : Nat := 0
  first : Nat := 0
  total : Nat
  done  : Nat := 0
deriving DecidableEq, Repr

/-- An accepted, incomplete command of the copy engine (02 R81, R468). -/
structure Copy where
  slot  : SlotId
  op    : CopyOp
  /-- descriptor lanes 0 to 12, or the 32-bit halves of S[b] and S[b + 1] -/
  words : List Word
  dst   : Cap
  src   : Cap
  idx   : Cap
  dreg  : Nat := 0
  sreg  : Nat := 0
  ireg  : Nat := 0
  cmpl  : Bool
  skip  : Bool := false
  tag   : BitVec 16
  chan  : Option Nat := none
  pc    : DWord
  word  : Word
  dests : List CopyDest
  /-- the next chunk to send -/
  next  : Nat := 0
  cover : List (CoreId × Nat)
  sent  : List Sent := []
  /-- the fault and the chunk at which it stopped -/
  stop  : Option (Flt × Nat) := none
  held  : Bool := false
  /-- popped from Q8 by the engine -/
  begun : Bool := false
  dying : Bool := false
  /-- Fount holds the stopped command, for a packet of this code (15 R467) -/
  hold  : Option Nat := none
  /-- the image that a PRUNE writes, formed when the engine takes it up -/
  image : List Byte := []
  lt    : Nat
  /-- index of free values of the command -/
  seed  : Nat
  /-- the object whose relocation the next chunk waits for (02 R74) -/
  walk  : Option Nat := none
deriving DecidableEq, Repr

/-- Tile operations (10 R338). -/
inductive TileKind
  | mma | mmaS | mzero | mload | mdrain | mdrainQ
deriving DecidableEq, Repr

/-- A read claim (04 R133). -/
structure Claim where
  core    : CoreId
  granule : Nat
  granted : Bool
deriving DecidableEq, Repr

/-- An accepted, incomplete tile operation (04 R116, 10 R338 to R349). -/
structure TileOp where
  seq    : Nat
  slot   : SlotId
  kind   : TileKind
  tile   : TileNo
  /-- the format word, with RED as REDMX sets it -/
  fmt    : Word := 0
  /-- lanes 0 to 3 of the operand descriptor; S[b] of a tile transfer in words 0 and 1 -/
  desc   : List Word := []
  n      : Nat := 0
  k0     : Nat := 0
  capA   : Cap
  capB   : Cap
  cregA  : Nat := 0
  cregB  : Nat := 0
  /-- the sparsity header as checked at issue: its 16 bytes -/
  hdr    : Option (List Byte) := none
  /-- the follower of a pair operation (04 R119) -/
  mate   : Option CoreId := none
  num    : BitVec 8 := 0
  pc     : DWord
  /-- the next step -/
  step   : Nat := 0
  claims : List Claim := []
  /-- the index pass of an MMA.S is not complete (04 R124) -/
  pass   : Bool := false
  started : Bool := false
  /-- a drain that has passed its check and writes on (10 R347) -/
  puts   : List (Nat × List Byte) := []
  /-- stopped partway along K: its claims are held for a replay (04 R137) -/
  held   : Bool := false
  lt     : Nat
  /-- the object whose relocation the next step waits for (02 R74) -/
  walk   : Option Nat := none
  /-- MODE.RND and MODE.FTZ of the gang at acceptance (08 R264) -/
  rnd    : Nat := 0
  ftz    : Bool := false
deriving DecidableEq, Repr

/-- One accumulator tile with its status (04 R109, R132). -/
structure Tile where
  cells  : Vector (Vector Word 16) 32
  nv     : Bool := false
  ov     : Bool := false
  nx     : Bool := false
  redun  : Bool := false
  poison : Bool := false
  kdone  : Nat := 0
  /-- slot the tile is allotted to -/
  owner  : Option SlotId := none
deriving DecidableEq, Repr

/-- A record of 64 bytes as 16 words (06 R180, 10 R357). -/
abbrev Rec := List Word

/-- Ring states (06 R188); a ring without an entry in the table is FREE. -/
inductive RingState
  | free | open_ | draining | poisoned
deriving DecidableEq, Repr

/-- Where a ring keeps one record: slot k of its backing, or a Mere pool slot, which lies in a core's scratchpad (06 R190). -/
inductive RPlace
  | own (k : Nat)
  | pool (core : CoreId) (off : Nat)
deriving DecidableEq, Repr

/-- A ring (06 R187 to R191): places of its records, oldest first; tail is the next slot of the backing. -/
structure Ring where
  state  : RingState
  gen    : BitVec 8
  cap    : Cap
  creg   : Nat
  boff   : Nat
  logn   : Nat
  lend   : Nat
  tail   : Nat := 0
  places : List RPlace := []
deriving DecidableEq, Repr

/-- A request at a ring controller, in arrival order (06 R188): push carries the record. -/
structure RingReq where
  seq    : Nat
  since  : Nat
  core   : CoreId
  slot   : SlotId
  handle : DWord
  push   : Option Rec
  dst    : VReg
  lt     : Nat
  /-- seen by the controller and blocked -/
  blocked : Bool := false
  /-- the object whose relocation the request waits for (02 R74) -/
  walk : Option Nat := none
deriving DecidableEq, Repr

/-- A context (11 R405): the part of a core that CTXSAVE moves. -/
structure Ctx where
  slots   : Vector (Option Gang) 8
  pad     : Memory := []
  full    : Granules := []
  tags    : Granules := []
  /-- bytes of granules whose error stays uncorrectable after the rebuild and that nothing has written since (02 R60, log 15) -/
  lost    : Granules := []
  /-- a saved context that has lost a granule: its digest is wrong (11 R405) -/
  spoiled : Bool := false
  tiles   : Vector Tile 8
  copies  : Tbl Copy := []
  chans   : Vector (Option CopyChan) 16
  ops     : List TileOp := []
  running : Option Nat := none
  inbox   : List Rec := []
  rings   : Tbl Ring := []
  gens    : Tbl Nat := []
  ringReqs : List RingReq := []
  buf     : List BufEnt := []
  flights : Tbl Flight := []
  txOwner : Option SlotId := none
  packets : Tbl Packet := []
  lastSlot : Option SlotId := none
  /-- slot whose operation the array started last, for 06 R198 -/
  arrSlot : Option SlotId := none
  /-- the site of first placement (11 R406); none for the core's own site -/
  origin  : Option CoreId := none
  /-- numbers given to commands, requests and buffered writes of the core -/
  seq     : Nat := 0
  matNum  : Nat := 0
deriving DecidableEq, Repr

/-- A core site (01 R12, 11 R400). -/
structure Core where
  ctx     : Ctx
  tarn    : Option Ctx := none
  supv    : BitVec 16 := 0
  fwd     : Option CoreId := none
  /-- its forwarding entry has been retired and no context has come since (10 R380) -/
  left    : Bool := false
  stopped : Bool := false
  refused : BitVec 16 := 0
  malformed : BitVec 16 := 0
  cache   : Tbl CacheLine := []
  /-- TICK of the last issue: one instruction an ac (01 R20) -/
  lastIssue : Option Nat := none
  /-- packets that the site's publishers sent in the last 76 ac, with their channels (01 R39, R44) -/
  inFlight : List (CoreId × StreamPkt) := []
deriving DecidableEq, Repr

/-! Dies. -/

/-- A launch that waits in a launch queue (06 R176), or a bin's header and capabilities. -/
structure Launch where
  header : List Byte
  caps   : List Cap
  lt     : Nat
  since  : Nat
  /-- crews placed already -/
  placed : Nat := 0
  num    : Nat := 0
deriving DecidableEq, Repr

/-- A record pending in a bin: the TICK at which it entered and the LT of its SPAWN (06 R185, R199). -/
structure Pend where
  tick : Nat
  lt   : Nat
  rec_ : Rec
deriving DecidableEq, Repr

/-- A firing that waits for a core (06 R186): its number, the records it took, when it fired. -/
structure Firing where
  num  : Nat
  recs : List Pend
  tick : Nat
  since : Nat
deriving DecidableEq, Repr

/-- A bin (06 R184, R185). -/
structure Bin where
  launch  : Launch
  c       : Nat
  t       : Nat
  pending : List Pend := []
  fired   : Nat := 0
  waiting : List Firing := []
deriving DecidableEq, Repr

/-- Power states of a die (15 R463). -/
inductive DieState
  | off | running | parking | parked | unparking
deriving DecidableEq, Repr

/-- A transition of 15 R462 in progress or waiting. -/
inductive Transition
  | step (target : Nat)
  | park (die : Fin 4) (master : Byte)
  | unpark (die : Fin 4) (master : Byte)
deriving DecidableEq, Repr

/-- A compute die. -/
structure Die where
  dsupv  : BitVec 16 := 0
  bins   : Tbl Bin := []
  launch : List Launch := []
  state  : DieState := .off
  tmax   : BitVec 12 := 0
  /-- transitions of a die in no partition (15 R462) -/
  trans  : List Transition := []
deriving DecidableEq, Repr

/-! Partitions, Fount and the host. -/

/-- Partition states (12 R430). -/
inductive PartState
  | absent | booting | running | failed | scrubbing
deriving DecidableEq, Repr

/-- A power limit that has changed (15 R453): rail samples since the change, and the limit before it; none before any change. -/
structure Bound where
  /-- the limit has changed -/
  kept    : Bool := false
  /-- the changes within the last window: samples since, and the larger of the limits before and after -/
  changes : List (Nat × Nat) := []
deriving DecidableEq, Repr

/-- A partition (12 R429 to R432). -/
structure Part where
  state   : PartState := .absent
  dies    : BitVec 4 := 0
  ports   : BitVec 16 := 0
  det     : Bool := false
  /-- TICK of the partition (01 R19) -/
  tick    : Nat := 0
  desc    : List Byte := []
  ortBase : Nat := 0
  ortSize : Nat := 0
  recs    : Tbl (List Byte) := []
  maps    : Tbl DWord := []
  msg     : Nat := 256
  dlC     : Nat := 4096
  dlM     : Nat := 1024
  dlS     : Nat := 256
  wdog    : Nat := 20
  routines : Tbl (List Word) := []
  /-- the irrevocable token is held: by the gang whose tx.irrev names a lane, wherever its context is (05 R170, R171) -/
  token   : Bool := false
  escpol  : List Byte := []
  share   : Nat := 0
  bound   : Bound := {}
  pmax    : Nat := 0
  pcur    : Nat := 0
  duty    : Nat := 63
  trans   : List Transition := []
  /-- a reset that builds again after scrubbing (R432) -/
  rebuild : Bool := false
  routes  : List Byte := []
  exports : List Byte := []
  /-- contexts spilled to DRAM, by number (10 R379) -/
  spills  : Tbl Ctx := []
  /-- the spills that have been filled again -/
  filled  : List Nat := []
  /-- Fount's time in µs: since when the duty is lowered, of the last step down and the last step up decided, since when power stays 5 %
  below the share (15 R454) -/
  lowAt   : Option Nat := none
  stepAt  : Option Nat := none
  upAt    : Option Nat := none
  calmAt  : Option Nat := none
deriving DecidableEq, Repr

/-- A circuit of the Igermiz connection table (12 R420, R436). -/
structure Circuit where
  valid : Bool := false
  tuned : Bool := false
  part  : Fin 4 := 0
  desc  : DWord := 0
deriving DecidableEq, Repr

/-- Advanced Error Reporting of a function: status and mask of uncorrectable and correctable errors, and the severity of the former, as
PCI Express resets them (12 R410, log 87). -/
structure Aer where
  uncorStatus : Word := 0
  uncorMask   : Word := 0x00400000
  uncorSev    : Word := 0x00462030
  corStatus   : Word := 0
  corMask     : Word := 0xE000
deriving DecidableEq, Repr

/-- A host function (12 R410 to R422). Its configuration space resets as PCI Express gives it (log 87). -/
structure Func where
  nbase   : DWord := 0
  evcause : BitVec 6 := 0
  deleg   : Bool := false
  bme     : Bool := false
  /-- MSI-X enabled, all vectors masked at once, each vector masked, and vectors pending (12 R410, R418) -/
  msix    : Bool := false
  fmask   : Bool := false
  mask    : BitVec 16 := 0xFFFF
  pba     : BitVec 16 := 0
  /-- Max_Payload_Size and Max_Read_Request_Size in bytes (12 R410) -/
  payload : Nat := 128
  readReq : Nat := 512
  /-- Advanced Error Reporting (12 R410, R417) -/
  aer     : Aer := {}
  /-- malformed writes to the posting windows of cores outside the partition, by core id (12 R414, R415) -/
  strays  : Tbl (BitVec 16) := []
  window  : List Byte := []
  commit  : Nat := 0
  result  : Nat := 0
  /-- MSI-X vectors raised, newest first -/
  vectors : List Nat := []
deriving DecidableEq, Repr

/-- The mailbox of one master (12 R424). -/
structure Mailbox where
  data   : List Byte := []
  rlen   : Nat := 0
  result : Nat := 0
  state  : Nat := 0
deriving DecidableEq, Repr

/-- A command in Fount's line (12 R424, R425): its CODE, and whether the module was owned when it arrived. The first in the line is a CLAIM
being verified. -/
structure Claimant where
  master : Byte
  data   : List Byte
  owned  : Bool
  code   : Nat := 1
deriving DecidableEq, Repr

/-- Registers of Aer. -/
inductive AerReg
  | uncorStatus | uncorMask | uncorSev | corStatus | corMask
deriving DecidableEq, Repr

/-- What the host does to a function that no row of the table carries: reads of BAR 4 (11 R399), and its configuration space (12 R410,
R418). -/
inductive HostAccess
  | read (fn : Fin 4) (offset size : Nat)
  | msix (fn : Fin 4) (on : Bool)
  | maskAll (fn : Fin 4) (on : Bool)
  | mask (fn : Fin 4) (vector : Fin 16) (on : Bool)
  | payload (fn : Fin 4) (bytes : Nat)
  | readReq (fn : Fin 4) (bytes : Nat)
  | aer (fn : Fin 4) (reg : AerReg) (value : Word)
deriving DecidableEq, Repr

/-- Boot stages (12 R440). -/
inductive Boot
  | unpowered | running | recovery
deriving DecidableEq, Repr

/-- Fount (12 R424 to R447, 11 R391, 15). -/
structure Fount where
  boot     : Boot := .unpowered
  owner    : Byte := 0xFF
  lease    : DWord := 0
  /-- TICK-independent time in µs since reset (12 R447) -/
  time     : Nat := 0
  granted  : Nat := 0
  warned   : Bool := false
  chall    : List Byte := []
  /-- a grant has been made since reset -/
  hadGrant : Bool := false
  claims   : List Claimant := []
  boxes    : Tbl Mailbox := []
  queue    : List Packet := []
  modid    : ModuleId := 0
  serial   : DWord := 0
  portUp   : Tbl Nat := []
  meas     : Vector (List Byte) 8
  slotImg  : Vector Memory 2
  versions : Vector Nat 2
  active   : Nat := 0
  nextSlot : Nat := 0
  rollback : Nat := 0
  /-- the selected slot has been activated and not committed, and how often in a row it has failed to boot (12 R444) -/
  trial    : Bool := false
  fails    : Nat := 0
  log      : List (List Byte) := []
  logSeq   : Nat := 0
  /-- signatures of log segments, by segment -/
  signed   : Tbl (List Byte) := []
  /-- entries signed, and when -/
  signedTo : Nat := 0
  signedAt : Nat := 0
  ceiling  : Nat := 1100
  bound    : Bound := {}
  pwr      : Nat := 0
  pwrMax   : Nat := 0
  samples  : List Nat := []
  partPwr  : Vector (List Nat) 4
  counters : Vector DWord 16
  pstate0  : Nat := 2
  defaults : List (List Byte) := []
  program  : List Word := []
  /-- Fount's own processor (07 R214), and the words that it comes to, each with the partition it acts for (log 86) -/
  cpu      : Gang
  words    : List (Fin 4 × Word) := []
deriving DecidableEq, Repr

/-- What executes: the gang slot, its word, and whether the word came from its stream buffer (01 R41). -/
structure Cur where
  core   : CoreId := 0
  slot   : SlotId := 0
  word   : Word := 0
  stream : Option StreamPkt := none
deriving DecidableEq, Repr

/-- A fault of a cell or of a light path that the rules foresee and do not cause (02 R60, 15 R464, 01 R46; log 15, 22). -/
inductive Mishap
  /-- a read corrected one bit of a scratchpad granule -/
  | padCorrected
  /-- a scratchpad read was rebuilt from parity -/
  | padRebuilt
  /-- a granule of a scratchpad can no longer be read, not even by a rebuild -/
  | padLost (core : CoreId) (granule : Nat)
  /-- a read corrected one bit of DRAM -/
  | dramCorrected
  /-- a 128-byte line of DRAM is lost -/
  | dramLost (line : Nat)
  /-- a read corrected one bit of a Tarn store -/
  | tarnCorrected
  /-- a granule of the scratchpad in a saved context is lost -/
  | tarnLost (core : CoreId) (granule : Nat)
  /-- PCI Express reports an error of a function by a bit of a status register of AER, a write error of 12 R417 among them -/
  | linkError (fn : Fin 4) (correctable : Bool) (bit : Fin 32)
  /-- the next packet of a channel reaches a die after its entry time -/
  | packetLate (chan : CoreId) (die : Fin 4)
deriving DecidableEq, Repr

/-- The module. -/
structure State where
  /-- the model's own: index of the free values (log 4) -/
  clock    : Nat := 0
  /-- the model's own: what the step issues (log 2) -/
  cur      : Cur := {}
  /-- the model's own: outside events that have arrived, oldest first (log 2) -/
  inputs   : List Instr := []
  /-- the model's own: faults of cells and light paths that have struck, oldest first (log 15, 22) -/
  mishaps  : List Mishap := []
  /-- the model's own: accesses of the host that have arrived, oldest first (log 2, log 87) -/
  accesses : List HostAccess := []
  dram     : Memory := []
  dramTags : Granules := []
  host     : Memory := []
  cores    : Tbl Core := []
  dark     : List CoreId := []
  dies     : Vector Die 4
  parts    : Vector Part 4
  funcs    : Vector Func 4
  circuits : Vector Circuit 64
  fount    : Fount
  launches : Nat := 0
deriving DecidableEq, Repr

/-! Fresh values. -/

/-- Untagged zero (01 R21). -/
def Cap.null : Cap := ⟨0, false⟩

/-- Registers at launch (01 R21): all zero, P0 true. -/
def Regs.fresh : Regs :=
  { v := Vector.replicate 64 (Vector.replicate 32 0)
    s := Vector.replicate 32 0
    p := (Vector.replicate 8 0).set 0 0xFFFFFFFF
    c := Vector.replicate 16 Cap.null
    ba := Vector.replicate 4 0
    exm := 0, pkm := 0, mode := 0, fstat := 0
    lfsr := Vector.replicate 32 1
    pc := 0 }

def Tx.fresh : Tx := { lanes := Vector.replicate 32 {}, stat := Vector.replicate 32 0 }

/-- A gang at launch before its header is applied (01 R21). -/
def Gang.fresh : Gang :=
  { regs := Regs.fresh
    allot := 16
    parked := Vector.replicate 8 none
    tx := Tx.fresh
    q := Vector.replicate 16 [] }

/-- A tile after MZERO (10 R345). -/
def Tile.fresh : Tile := { cells := Vector.replicate 32 (Vector.replicate 16 0) }

/-- An empty context (10 R379). -/
def Ctx.fresh : Ctx :=
  { slots := Vector.replicate 8 none
    tiles := Vector.replicate 8 Tile.fresh
    chans := Vector.replicate 16 none }

/-- A core site at reset (log 3). -/
def Core.fresh : Core := { ctx := Ctx.fresh }

/-- Fount before boot (12 R425, R445). -/
def Fount.fresh : Fount :=
  { meas := Vector.replicate 8 (List.replicate 32 0)
    slotImg := Vector.replicate 2 []
    versions := Vector.replicate 2 0
    partPwr := Vector.replicate 4 []
    counters := Vector.replicate 16 0
    cpu := { Gang.fresh with priv := .p } }

/-- The module when power is applied and nothing has booted (12 R440; log 2, log 3). -/
def State.reset : State :=
  { dies := Vector.replicate 4 {}
    parts := Vector.replicate 4 {}
    funcs := Vector.replicate 4 {}
    circuits := Vector.replicate 64 {}
    fount := Fount.fresh }

end Sys2Proof.Machine
end

