-- ==== Sys2Proof/Machine/Ops.lean ====
section
/-! DEFINITION. The named operations over memory, tables, cores, gangs and registers; taking a fault and returning from one. -/

namespace Sys2Proof.Machine

/-! Sparse tables. -/

/-- The value at a key. -/
def Tbl.get? {α : Type} : Tbl α → Nat → Option α
  | [], _ => none
  | (k, v) :: t, n => if k = n then some v else Tbl.get? t n

/-- The table with a value at a key. -/
def Tbl.put {α : Type} : Tbl α → Nat → α → Tbl α
  | [], n, a => [(n, a)]
  | (k, v) :: t, n, a =>
    if n < k then (n, a) :: (k, v) :: t
    else if n = k then (n, a) :: t
    else (k, v) :: Tbl.put t n a

/-- The table without a key. -/
def Tbl.del {α : Type} : Tbl α → Nat → Tbl α
  | [], _ => []
  | (k, v) :: t, n => if k = n then t else (k, v) :: Tbl.del t n

/-- The least number that is not a key, counting from k. -/
def Tbl.fresh {α : Type} : Tbl α → Nat → Nat
  | [], k => k
  | (n, _) :: t, k => if n = k then Tbl.fresh t (k + 1) else if k < n then k else Tbl.fresh t k

/-- A list in ascending order of a key, equal keys in their order. -/
def insertBy {α : Type} (key : α → Nat) (x : α) : List α → List α
  | [] => [x]
  | y :: t => if key x < key y then x :: y :: t else y :: insertBy key x t
def sortBy {α : Type} (key : α → Nat) (l : List α) : List α := l.foldl (fun acc x => insertBy key x acc) []

/-! Memory: a list of cells in one canonical form. An unlisted byte reads as zero (log 3). -/

/-- What an unlisted address reads as (log 3). -/
def Memory.unlisted : Byte := 0

/-- One byte. -/
def Memory.get (m : Memory) (a : Nat) : Byte := (Tbl.get? m a).getD Memory.unlisted

/-- One byte written, in canonical form. -/
def Memory.set (m : Memory) (a : Nat) (b : Byte) : Memory :=
  if b = Memory.unlisted then Tbl.del m a else Tbl.put m a b

/-- n bytes from a. -/
def Memory.read (m : Memory) (a n : Nat) : List Byte := (List.range n).map (fun i => m.get (a + i))

/-- Consecutive bytes written from a. -/
def Memory.write : Memory → Nat → List Byte → Memory
  | m, _, [] => m
  | m, a, b :: bs => Memory.write (m.set a b) (a + 1) bs

/-- Cells of consecutive bytes, in canonical form. -/
def Memory.cells (a : Nat) : List Byte → Memory
  | [] => []
  | b :: bs => if b = Memory.unlisted then Memory.cells (a + 1) bs else (a, b) :: Memory.cells (a + 1) bs

/-- n bytes from a replaced by some bytes, no more than n, and zeros. -/
def Memory.fill (m : Memory) (a n : Nat) (bs : List Byte) : Memory :=
  m.filter (fun c => decide (c.1 < a)) ++ (Memory.cells a (bs.take n) ++ m.filter (fun c => decide (a + n ≤ c.1)))

/-- Keys strictly rising. -/
def Tbl.rising {α : Type} (t : Tbl α) : Bool := decide (t.Pairwise (fun x y => x.1 < y.1))

/-- The canonical form of a memory: addresses strictly rising, no byte listed that equals an unlisted one. -/
def Memory.wf (m : Memory) : Bool := Tbl.rising m && m.all (fun c => c.2 != Memory.unlisted)

/-! Granule sets. -/

def Granules.has (g : Granules) (n : Nat) : Bool := g.contains n

def Granules.add : Granules → Nat → Granules
  | [], n => [n]
  | k :: t, n => if n < k then n :: k :: t else if n = k then k :: t else k :: Granules.add t n

def Granules.del (g : Granules) (n : Nat) : Granules := g.filter (· != n)

/-- Set or clear one member. -/
def Granules.put (g : Granules) (n : Nat) (b : Bool) : Granules := if b then g.add n else g.del n

/-- The granules of the n bytes from a (02 R58). -/
def granulesOf (a n : Nat) : List Nat :=
  if n = 0 then [] else (List.range ((a + n - 1) / 16 - a / 16 + 1)).map (fun i => a / 16 + i)

/-! Sites. -/

/-- Die of a physical core id (01 R12). -/
def dieOf (c : CoreId) : Fin 4 := ⟨c.toNat / 1024 % 4, Nat.mod_lt _ (by decide)⟩
def xOf (c : CoreId) : Nat := c.toNat / 32 % 32
def yOf (c : CoreId) : Nat := c.toNat % 32
/-- The site (x, y) of die d. -/
def siteAt (d x y : Nat) : CoreId := BitVec.ofNat 12 (d * 1024 + x * 32 + y)
/-- Cluster index and cluster position (01 R14). -/
def clusterOf (c : CoreId) : Nat := yOf c / 4 * 8 + xOf c / 4
def posInCluster (c : CoreId) : Nat := yOf c % 4 * 4 + xOf c % 4
/-- The core at a cluster position. -/
def siteInCluster (d cl pos : Nat) : CoreId := siteAt d (cl % 8 * 4 + pos % 4) (cl / 8 * 4 + pos / 4)
/-- Gang address of 10 R372. -/
def gangAddr (c : CoreId) (k : SlotId) : Nat := c.toNat + 4096 * k.val

/-- The slot of a number. -/
def slotOf (n : Nat) : SlotId := ⟨n % 8, Nat.mod_lt _ (by decide)⟩

/-- The slots of a core in ascending order. -/
def slotList : List SlotId := List.finRange 8

/-! Cores and gangs within the module. -/

/-- The core at a site; a site without an entry is as after reset. -/
def State.core (s : State) (c : CoreId) : Core := (Tbl.get? s.cores c.toNat).getD Core.fresh

def State.setCore (s : State) (c : CoreId) (k : Core) : State := { s with cores := Tbl.put s.cores c.toNat k }

def State.modCore (s : State) (c : CoreId) (f : Core → Core) : State := s.setCore c (f (s.core c))

def State.ctx (s : State) (c : CoreId) : Ctx := (s.core c).ctx

def State.modCtx (s : State) (c : CoreId) (f : Ctx → Ctx) : State :=
  s.modCore c (fun k => { k with ctx := f k.ctx })

/-- The gang in a slot. -/
def State.gang? (s : State) (c : CoreId) (k : SlotId) : Option Gang := (s.ctx c).slots[k.val]

def Ctx.setSlot (x : Ctx) (k : SlotId) (g : Option Gang) : Ctx := { x with slots := x.slots.set k.val g }

def State.setGang (s : State) (c : CoreId) (k : SlotId) (g : Gang) : State :=
  s.modCtx c (fun x => x.setSlot k (some g))

/-- Change the gang of a slot, if there is one. -/
def State.modGang (s : State) (c : CoreId) (k : SlotId) (f : Gang → Gang) : State :=
  match s.gang? c k with
  | some g => s.setGang c k (f g)
  | none => s

/-- The accepted copy or conversion command in a command slot. -/
def State.copy? (s : State) (core : CoreId) (n : Nat) : Option Copy := Tbl.get? (s.ctx core).copies n
def State.setCopy (s : State) (core : CoreId) (n : Nat) (y : Copy) : State :=
  s.modCtx core (fun x => { x with copies := Tbl.put x.copies n y })

/-- The executing gang. -/
def State.me? (s : State) : Option Gang := s.gang? s.cur.core s.cur.slot
def State.setMe (s : State) (g : Gang) : State := s.setGang s.cur.core s.cur.slot g

/-- The gangs of a context with their slots. -/
def Ctx.gangs (x : Ctx) : List (SlotId × Gang) :=
  slotList.filterMap (fun k => (x.slots[k.val]).map (fun g => (k, g)))

/-- A site of a die that failed self-test (01 R15). -/
def State.isDark (s : State) (c : CoreId) : Bool := s.dark.contains c

/-- A die whose cores are not up: parked, or on the way there or back (15 R460, R461). -/
def State.isParked (s : State) (d : Fin 4) : Bool :=
  (s.dies[d]).state == .parked || (s.dies[d]).state == .parking || (s.dies[d]).state == .unparking

/-- No core answers at the site: dark (01 R15) or on a parked die (15 R460). -/
def State.noCore (s : State) (c : CoreId) : Bool := s.isDark c || s.isParked (dieOf c)

/-- Dies of a partition. -/
def Part.has (p : Part) (d : Fin 4) : Bool := p.state != .absent && p.dies.getLsbD d.val

/-- The partition that holds a die (12 R429). -/
def State.partOf (s : State) (d : Fin 4) : Option (Fin 4) := (List.finRange 4).find? (fun n => (s.parts[n]).has d)

/-- The partition of a core, or an absent one. -/
def State.partNo (s : State) (c : CoreId) : Fin 4 := (s.partOf (dieOf c)).getD 0
def State.part (s : State) (c : CoreId) : Part := s.parts[s.partNo c]
/-- TICK at a core (01 R19). -/
def State.now (s : State) (c : CoreId) : Nat := (s.part c).tick
def State.setPart (s : State) (n : Fin 4) (p : Part) : State := { s with parts := s.parts.set n.val p }
def State.modPart (s : State) (n : Fin 4) (f : Part → Part) : State := s.setPart n (f s.parts[n])

def State.setDie (s : State) (d : Fin 4) (x : Die) : State := { s with dies := s.dies.set d.val x }
def State.modDie (s : State) (d : Fin 4) (f : Die → Die) : State := s.setDie d (f s.dies[d])

/-- Dies of a partition in ascending order. -/
def Part.dieList (p : Part) : List (Fin 4) := (List.finRange 4).filter (fun d => p.has d)

/-- The site lies in the same partition as the core (12 R429). -/
def State.samePart (s : State) (c k : CoreId) : Bool := (s.part c).has (dieOf k)

/-- Follow forwarding entries at most n times. -/
def State.routeFrom (s : State) : Nat → CoreId → CoreId
  | 0, c => c
  | n + 1, c =>
    match (s.core c).fwd with
    | some d => s.routeFrom n d
    | none => c

/-- Site reached by traffic addressed to a site: the forwarding entries of the routers on the way (10 R380, 11 R406). -/
def State.route (s : State) (c : CoreId) : CoreId := s.routeFrom 4096 c

/-- A core is empty (10 R379). -/
def Ctx.empty (x : Ctx) : Bool :=
  x.gangs.isEmpty && x.copies.isEmpty && x.ops.isEmpty && x.inbox.isEmpty &&
    x.rings.all (fun r => r.2.state == .free) && x.chans.toList.all Option.isNone && x.buf.isEmpty

/-- The site that traffic to a site reaches has lost its context to a migration, its forwarding entry is retired, and its core is still
empty: the traffic faults NOT_MAPPED in its sender (10 R380). -/
def State.gone (s : State) (c : CoreId) : Bool := (s.core (s.route c)).left && (s.ctx (s.route c)).empty

/-- The cores of a partition with an entry in the table, ascending. -/
def State.coresOf (s : State) (p : Part) : List CoreId :=
  (s.cores.map (fun kv => BitVec.ofNat 12 kv.1)).filter (fun c => p.has (dieOf c))

/-- The saved contexts of a partition, each with the core whose number its own places bear: those in Tarn stores, and spilled and not
filled again (10 R379). -/
def State.savedContexts (s : State) (p : Part) : List (CoreId × Ctx) :=
  (s.coresOf p).flatMap (fun c => ((s.core c).tarn.map (fun x => (c, x))).toList) ++
    (p.spills.filter (fun x => !p.filled.contains x.1)).map (fun x => (x.2.origin.getD 0, x.2))

/-- The contexts of a partition: those on cores and those saved. -/
def State.contexts (s : State) (p : Part) : List (CoreId × Ctx) :=
  (s.coresOf p).map (fun c => (c, s.ctx c)) ++ s.savedContexts p

/-- Change every context: on cores, in Tarn stores, spilled. -/
def State.mapContexts (s : State) (f : Ctx → Ctx) : State :=
  { s with
    cores := s.cores.map (fun kv => (kv.1, { kv.2 with ctx := f kv.2.ctx, tarn := kv.2.tarn.map f }))
    parts := s.parts.map (fun p => { p with spills := p.spills.map (fun x => (x.1, f x.2)) }) }

/-- Change every gang of a context. -/
def Ctx.mapGangs (x : Ctx) (f : Gang → Gang) : Ctx := { x with slots := x.slots.map (fun g => g.map f) }

/-- Every gang of a partition with its place. -/
def State.gangsOf (s : State) (p : Part) : List (CoreId × SlotId × Gang) :=
  (s.coresOf p).flatMap (fun c => (s.ctx c).gangs.map (fun kg => (c, kg.1, kg.2)))

/-- Every gang of a partition, those of saved contexts too, with the core of its context. -/
def State.allGangs (s : State) (p : Part) : List (CoreId × SlotId × Gang) :=
  (s.contexts p).flatMap (fun x => x.2.gangs.map (fun kg => (x.1, kg.1, kg.2)))

/-- The origin id of a core's context (11 R406). -/
def State.origin (s : State) (c : CoreId) : CoreId := (s.ctx c).origin.getD c

/-- A number of the free sequence and the state with it used up (log 4). -/
def State.takeClock (s : State) : Nat × State := (s.clock, { s with clock := s.clock + 1 })

/-! Registers (01 R21). -/

/-- S register: S0 reads 0. -/
def Gang.s (g : Gang) (r : SReg) : DWord := if r = 0 then 0 else g.regs.s[r.toFin]

/-- Write an S register: S0 discards writes. -/
def Gang.setS (g : Gang) (r : SReg) (x : DWord) : Gang :=
  if r = 0 then g else { g with regs := { g.regs with s := g.regs.s.set r.toNat x r.isLt } }

/-- P register: P0 reads true in every lane. -/
def Gang.p (g : Gang) (r : PReg) : Mask := if r = 0 then BitVec.allOnes 32 else g.regs.p[r.toFin]

/-- Write a P register: P0 discards writes. -/
def Gang.setP (g : Gang) (r : PReg) (x : Mask) : Gang :=
  if r = 0 then g else { g with regs := { g.regs with p := g.regs.p.set r.toNat x r.isLt } }

def Gang.v (g : Gang) (r : VReg) : Lanes Word := g.regs.v[r.toFin]
def Gang.c (g : Gang) (r : CReg) : Cap := g.regs.c[r.toFin]
def Gang.setC (g : Gang) (r : CReg) (x : Cap) : Gang :=
  { g with regs := { g.regs with c := g.regs.c.set r.toNat x r.isLt } }

/-- Write every lane of a V register. -/
def Gang.setVAll (g : Gang) (r : VReg) (x : Lanes Word) : Gang :=
  { g with regs := { g.regs with v := g.regs.v.set r.toNat x r.isLt } }

/-- The next register, of a pair. -/
def nextV (r : VReg) : VReg := r + 1

/-! MODE (01 R24). -/

def modeGuard (m : Word) : Nat := bits m 2 0
def modeEtype (m : Word) : Nat := bits m 7 3
def modeRnd (m : Word) : Nat := bits m 10 8
def modeFtz (m : Word) : Bool := m.getLsbD 11
def modeSat (m : Word) : Bool := m.getLsbD 12
def modeOosz (m : Word) : Bool := m.getLsbD 13
def modeScope (m : Word) : Nat := bits m 16 14
def modeKresume (m : Word) : Nat := bits m 21 17

/-- MODE holds no reserved code (01 R24). -/
def modeLegal (m : Word) : Bool :=
  decide (bits m 31 22 = 0) && decide (modeScope m ≤ 5) && decide (modeRnd m ≤ 5) &&
    !(modeEtype m == 9 || modeEtype m == 15 || modeEtype m == 31)

/-- The lanes that are active for an instruction (01 R25). -/
def Gang.active (g : Gang) : Mask :=
  if modeGuard g.regs.mode = 0 then g.regs.exm else g.regs.exm &&& g.p (BitVec.ofNat 3 (modeGuard g.regs.mode))

/-- Write the active lanes of a V register (08 R251, 01 R25). -/
def Gang.setV (g : Gang) (r : VReg) (f : Fin 32 → Word) : Gang :=
  g.setVAll r (Lanes.of (fun i => if Mask.has g.active i then f i else (g.v r)[i]))

/-- Write the active lanes of a P register (08 R251). -/
def Gang.setPLanes (g : Gang) (r : PReg) (m : Mask) : Gang :=
  g.setP r ((m &&& g.active) ||| (g.p r &&& ~~~ g.active))

/-- A write to EXM stores the value AND NOT PKM (01 R27). -/
def Gang.setExm (g : Gang) (m : Mask) : Gang :=
  { g with regs := { g.regs with exm := m &&& ~~~ g.regs.pkm } }

/-- V registers the gang may name: the allotment, less 32 for a pair (01 R22, 06 R178). -/
def Gang.vLimit (g : Gang) : Nat := if g.partner.isSome then g.allot - 32 else g.allot

/-- Sticky flags are ORed into FSTAT (03 R94, 07 R249). -/
def Gang.raise (g : Gang) (f : BitVec 5) : Gang := { g with regs := { g.regs with fstat := g.regs.fstat ||| f } }

/-- One lane's MODE-independent fault without detail. -/
def flt (c : Code) : Flt := { code := c }

/-! Fault codes and the fault record (11 R392, R394). -/

def Code.list : List Code :=
  [.none, .illegal, .privilege, .capTag, .capBounds, .capPerm, .outOfShape, .notResident, .notMapped, .misaligned,
   .formatDivergence, .sparseMalformed, .arrayMismatch, .watchdog, .growImpossible, .ringClosed, .copyOverlap,
   .channel, .dataError, .escalation, .break_, .trap, .modeReserved, .poisonedRing]

/-- The number of a fault code (11 R394). -/
def Code.num (c : Code) : Nat := Code.list.idxOf c

/-- The 64 bytes of a fault record (11 R392). -/
def recordBytes (r : FaultRec) : List Byte :=
  let b (x : Bool) : Nat := if x then 1 else 0
  let w0 := r.flt.code.num + 64 * b r.copy + 128 * b r.gangw + 256 * (r.hop % 4) + 4096 * r.slot
    + 2 ^ 15 * r.core.toNat + 2 ^ 27 * (if r.gangw || r.copy then 0 else r.plr) + 2 ^ 32 * r.lanes.toNat
  let w3 := r.flt.id % 2 ^ 24 + 2 ^ 24 * (r.flt.gen % 256) + 2 ^ 32 * (r.flt.space % 8) + 2 ^ 35 * (r.flt.creg % 16)
  let w6 := r.chunk % 2 ^ 32 + 2 ^ 32 * (r.flt.kdone % 32) + 2 ^ 37 * (r.cslot % 1024) + 2 ^ 48 * r.tag.toNat
  toBytes 8 w0 ++ toBytes 8 r.pc.toNat ++ toBytes 4 r.word.toNat ++ toBytes 4 0 ++ toBytes 8 w3
    ++ toBytes 8 r.flt.offset.toNat ++ toBytes 4 r.flt.coord0.toNat ++ toBytes 4 r.flt.coord1.toNat
    ++ toBytes 8 w6 ++ toBytes 8 r.tick

/-- The supervisor gang that a SUPV or DSUPV register names: valid, launched by LAUNCH, above level U, in the partition of
a core; control traffic follows forwarding entries (11 R387, 10 R380). -/
def State.supGang (s : State) (c : CoreId) (r : BitVec 16) : Option (CoreId × SlotId × Gang) :=
  let x := s.route (BitVec.ofNat 12 (bits r 11 0))
  let k := slotOf (bits r 14 12)
  if r.getLsbD 15 ∧ s.samePart c x then
    match s.gang? x k with
    | some g => if g.priv ≠ .u ∧ g.hdr.bin = false then some (x, k, g) else none
    | none => none
  else none

/-- The register names this gang. -/
def State.supNames (s : State) (r : BitVec 16) (c : CoreId) (k : SlotId) : Bool :=
  match s.supGang c r with
  | some (x, j, _) => x == c && j == k
  | none => false

/-- The gang is named in some SUPV of the partition (11 R388). -/
def State.inSupv (s : State) (c : CoreId) (k : SlotId) : Bool :=
  (s.coresOf (s.part c)).any (fun x => s.supNames (s.core x).supv c k)

/-- The gang is named in a DSUPV (11 R388). -/
def State.inDsupv (s : State) (c : CoreId) (k : SlotId) : Bool :=
  (s.part c).dieList.any (fun d => s.supNames (s.dies[d]).dsupv c k)

/-- First target of a gang's packets (11 R388). -/
def State.firstTarget (s : State) (c : CoreId) (k : SlotId) : Target :=
  if s.inDsupv c k then .fount else if s.inSupv c k then .dsupv else .supv

/-- HOP of a packet when it is raised (11 R389). -/
def State.firstHop (s : State) (c : CoreId) (k : SlotId) (g : Gang) : Nat :=
  if s.inDsupv c k || s.inSupv c k then
    match g.cnt.hopTaken with
    | some h => h + 1
    | none => 1
  else 0

/-- Raise a fault packet: it waits in its sender until it is delivered (11 R388, R390). -/
def State.raisePacket (s : State) (c : CoreId) (k : SlotId) (r : FaultRec) : State :=
  match s.gang? c k with
  | none => s
  | some g =>
    let r := { r with hop := s.firstHop c k g, slot := k.val, core := c, tick := if r.gangw || r.copy then s.now c else r.tick }
    let p : Packet := { target := s.firstTarget c k, rec_ := r, kept := (s.core c).stopped && g.priv != .p }
    s.modCtx c (fun x => { x with packets := Tbl.put x.packets x.seq p, seq := x.seq + 1 })

/-! Streams (01 R37 to R48). -/

/-- The entry delay of a packet from one site to another (01 R44). -/
def entryDelay (a b : CoreId) : Nat := if dieOf a = dieOf b then 12 else 76

/-- Send a packet to every subscriber of a channel (01 R38, R44). -/
def State.sendPacket (s : State) (chan : CoreId) (from_ : CoreId) (p : StreamPkt) : State :=
  (s.gangsOf (s.part from_)).foldl
    (fun s x =>
      let (c, k, g) := x
      if (g.chan.role = .waiting ∨ g.chan.role = .subscriber) ∧ g.chan.chan = chan then
        s.modGang c k (fun g => { g with chan := { g.chan with
          due := g.chan.due ++ [(p.tick + entryDelay from_ c, p)] } })
      else s) s

/-- The channel a publisher on a core publishes on: the number of its site, or of the site it migrated from while that one's
forwarding entry stands (01 R37, R48). -/
def Gang.channelAt (g : Gang) (c : CoreId) : CoreId := g.chan.kept.getD c

/-- Note a packet among those of the last 76 ac. -/
def Core.noteSent (k : Core) (chan : CoreId) (p : StreamPkt) : Core :=
  { k with inFlight := k.inFlight.filter (fun x => decide (p.tick ≤ x.2.tick + 76)) ++ [(chan, p)] }

/-- Publish the instruction at PC once (01 R38). -/
def State.publish (s : State) (c : CoreId) (k : SlotId) (word : Word) (taken : Bool) : State :=
  match s.gang? c k with
  | none => s
  | some g =>
    if g.chan.role = .publisher ∧ g.chan.done ≠ some g.regs.pc then
      let p : StreamPkt := { word := word, pc := g.regs.pc, seq := g.chan.seq, tick := s.now c, taken := taken }
      ((s.modCore c (fun q => q.noteSent (g.channelAt c) p)).setGang c k { g with chan := { g.chan with
        done := some g.regs.pc, seq := g.chan.seq + 1 } }).sendPacket (g.channelAt c) c p
    else s

/-! Causes and counters (12 R419, 15 R464). -/

/-- A vector may be sent: MSI-X is on, and neither the function's mask nor its own is set (12 R418, log 87). -/
def Func.sends (f : Func) (k : Nat) : Bool := f.msix && !f.fmask && !f.mask.getLsbD k

/-- A vector is raised: sent, or pending while it is masked (12 R418). -/
def Func.raise (f : Func) (k : Nat) : Func :=
  if f.sends k then { f with vectors := k :: f.vectors } else { f with pba := f.pba ||| BitVec.twoPow 16 k }

/-- Pending vectors that are masked no longer are sent, lowest first (12 R418). -/
def Func.release (f : Func) : Func :=
  (List.range 16).foldl (fun f k =>
    if f.pba.getLsbD k && f.sends k then { f with pba := f.pba &&& ~~~ BitVec.twoPow 16 k, vectors := k :: f.vectors } else f) f

/-- Raise MSI-X vectors of a function in order. -/
def State.raiseVectors (s : State) (n : Fin 4) (ks : List Nat) : State :=
  { s with funcs := s.funcs.set n.val (ks.foldl Func.raise s.funcs[n]) }

/-- Set a bit of EVCAUSE; vector 0 is raised when it becomes set (12 R419). -/
def State.cause (s : State) (n : Fin 4) (bit : Nat) : State :=
  let f := s.funcs[n]
  if f.evcause.getLsbD bit then s
  else
    let s := { s with funcs := s.funcs.set n.val { f with evcause := f.evcause ||| BitVec.twoPow 6 bit } }
    s.raiseVectors n [0]

/-- Set a bit in every function. -/
def State.causeAll (s : State) (bit : Nat) : State := (List.finRange 4).foldl (fun (s : State) n => s.cause n bit) s

/-- The owner's function, when the owner is a host function. -/
def State.ownerFunc (s : State) : Option (Fin 4) := (List.finRange 4).find? (fun n => s.fount.owner == BitVec.ofNat 8 n.val)

/-- A fleet event of a partition, or of none (15 R464). -/
def State.fleet (s : State) (p : Option (Fin 4)) : State :=
  let s := match p with
    | some n => s.cause n 5
    | none => s
  match s.ownerFunc with
  | some n => s.cause n 5
  | none => s

/-- Add to a counter of 15 R464; it saturates. -/
def State.count (s : State) (k : Fin 16) (n : Nat) : State :=
  let c := s.fount.counters[k]
  { s with fount := { s.fount with counters := s.fount.counters.set k.val (BitVec.ofNat 64 (min (2 ^ 64 - 1) (c.toNat + n))) } }

/-- A fault in a core's partition is counted: a DATA_ERROR of a scratchpad, which a fault of SYS is not (02 R60, 15 R464). -/
def State.countFault (s : State) (c : CoreId) (f : Flt) : State :=
  if f.code = .dataError ∧ f.space ≠ 4 then (s.count 2 1).fleet (s.partOf (dieOf c)) else s

/-! Freezing (01 R30, 11 R393). -/

/-- Abort the open transactions of a gang that a gang-wide fault stops: FAULT with RETRY 1 (05 R168). -/
def LaneTx.cleared (t : LaneTx) : LaneTx := { t with reads := [], writes := [], isOpen := false }

/-- TXSTAT with an abort recorded (05 R167, R172): cause, RETRY, TRIES up by one or not, code, XCODE. -/
def txAbortStat (w : Word) (cause : Nat) (retry bump : Bool) (fcode xcode : Nat) : Word :=
  let tries := bits w 13 10
  let tries := if bump then min 15 (tries + 1) else tries
  BitVec.ofNat 32 (cause + 16 * fcode + 1024 * tries + 2 ^ 14 * bits w 14 14
    + (if retry then 2 ^ 16 else 0) + 2 ^ 17 * xcode)

/-- Remove a lane from EXM and from the mask of every entry above the TX entry (05 R167). -/
def clearAboveTx (l : Mask) : List Entry → List Entry
  | [] => []
  | e :: es => if e.kind = .tx then e :: es else { e with mask := e.mask &&& ~~~ l } :: clearAboveTx l es

/-- Abort one lane's transaction (05 R167). -/
def Gang.abortLane (g : Gang) (i : Fin 32) (cause : Nat) (retry bump : Bool) (fcode xcode : Nat)
    (held : Option (Flt × Word)) : Gang :=
  let l : Mask := BitVec.twoPow 32 i.val
  { g with
    tx := { g.tx with
      lanes := g.tx.lanes.set i.val { (g.tx.lanes[i]).cleared with held := held }
      stat := g.tx.stat.set i.val (txAbortStat (g.tx.stat[i]) cause retry bump fcode xcode) }
    regs := { g.regs with exm := g.regs.exm &&& ~~~ l }
    stack := clearAboveTx l g.stack }

/-- The lane holds the irrevocable token (05 R170). -/
def Gang.irrevocable (g : Gang) (i : Fin 32) : Bool := g.tx.irrev == some i

/-- Lanes with an open transaction. -/
def Gang.openLanes (g : Gang) : List (Fin 32) := laneList.filter (fun i => (g.tx.lanes[i]).isOpen)

/-- Abort every open transaction that is not irrevocable. -/
def Gang.abortAll (g : Gang) (cause : Nat) (fcode : Nat) : Gang :=
  (g.openLanes.filter (fun i => !g.irrevocable i)).foldl
    (fun g i => g.abortLane i cause true false fcode 0 none) g

/-- The convergence save of a gang that freezes otherwise than at a convergence point: the save that a replay under way ends with is
kept, and no other is held (01 R32). -/
def Gang.keepSave (g : Gang) : Option ConvSave := if g.replay then g.save else none

/-- The gang freezes before the instruction has any effect, its PC at the instruction, and a packet goes to its supervisor
(01 R30, 05 R168, 11 R392). -/
def State.halt (s : State) (c : CoreId) (k : SlotId) (f : Flt) (lanes : Mask) (word : Word) : State :=
  match s.gang? c k with
  | none => s
  | some g =>
    let r : FaultRec := { flt := f, gangw := true, lanes := lanes, pc := g.regs.pc, word := word,
                          hop := s.firstHop c k g, slot := k.val, core := c, tick := s.now c }
    let g := if g.tx.active then g.abortAll 4 f.code.num else g
    (s.setGang c k { g with
      status := .frozen, fcode := f.code, rec_ := some r, owed := none, save := g.keepSave, cnt := { g.cnt with ordOk := false, relOk := false } }).raisePacket c k r

/-- A gang-wide fault: the gang freezes and the fault is counted where 15 R464 counts it. Taking an exception is this operation. -/
def State.freeze (s : State) (c : CoreId) (k : SlotId) (f : Flt) (lanes : Mask) (word : Word) : State :=
  (s.halt c k f lanes word).countFault c f

/-- The record of a parked-lane report (01 R31, 11 R392). -/
def parkReport (r : ParkRec) (n : Nat) : FaultRec :=
  { flt := r.flt, gangw := false, plr := n, lanes := r.lanes, pc := r.pc, word := r.word, tick := r.tick }

/-- Freeze at a convergence point: one packet for each parked-lane record, and the convergence save (01 R31, R32). A save that a
replay under way still needs is put aside until the gang goes on with that replay (log 73). -/
def State.freezeParked (s : State) (c : CoreId) (k : SlotId) : State :=
  match s.gang? c k with
  | none => s
  | some g =>
    let held := (List.finRange 8).filterMap (fun n => (g.parked[n]).map (fun r => (n, r)))
    let last := held.getLast?.map (fun nr => { parkReport nr.2 nr.1.val with slot := k.val, core := c, hop := s.firstHop c k g })
    let code := match held.head? with
      | some nr => nr.2.flt.code
      | none => Code.none
    let s := s.setGang c k { g with
      status := .frozen, fcode := code, rec_ := last, save := some ⟨g.regs.pc, g.regs.exm, g.stack⟩
      outer := if g.replay then g.save.toList ++ g.outer else g.outer, replay := false }
    held.foldl (fun s nr => s.raisePacket c k (parkReport nr.2 nr.1.val)) s

/-- FREEZE: no code and no packet (10 R377). DESIGN CHOICE (log 104): it forms no fault record, and the window keeps that of the freeze
before it (11 R396). -/
def State.freezeQuiet (s : State) (c : CoreId) (k : SlotId) (code : Code) : State :=
  s.modGang c k (fun g => { g with status := .frozen, fcode := code, freezeReq := false, save := g.keepSave })

/-! Parking (01 R29). -/

/-- The stack restricted to some lanes, bottom entry first. -/
def columns (l : Mask) (st : List Entry) : List Entry :=
  (st.map (fun e => { e with mask := e.mask &&& l, brkm := e.brkm &&& l })).reverse

/-- The record of the same PC and code, or else the first free one (01 R29). -/
def recSlot (p : Vector (Option ParkRec) 8) (pc : DWord) (c : Code) : Option (Fin 8) :=
  match (List.finRange 8).find? (fun n => match p[n] with | some r => r.pc == pc && r.flt.code == c | none => false) with
  | some n => some n
  | none => (List.finRange 8).find? (fun n => (p[n]).isNone)

/-- Store or merge one record. None when no record is free. DESIGN CHOICE (log 74): lanes that fault at the same PC and code at another
depth of the mask stack merge too, and the record keeps the entries that both have, the shallower depth. -/
def Gang.park1 (g : Gang) (pc : DWord) (word : Word) (st : List Entry) (f : Flt) (l : Mask) (tick : Nat) :
    Option Gang :=
  match recSlot g.parked pc f.code with
  | none => none
  | some n =>
    let new : ParkRec :=
      match g.parked[n] with
      | some r => { r with
          flt := if ((Mask.lowest l).map (·.val)).getD 32 < ((Mask.lowest r.lanes).map (·.val)).getD 32 then f else r.flt
          lanes := r.lanes ||| l
          stack := List.zipWith (fun a b => { a with mask := a.mask ||| b.mask, brkm := a.brkm ||| b.brkm })
            r.stack (columns l st) }
      | none => ⟨pc, f, l, word, columns l st, tick⟩
    let first := (List.finRange 8).all (fun n => (g.parked[n]).isNone) && g.regs.pkm == 0
    some { g with
      parked := g.parked.set n.val (some new)
      regs := { g.regs with pkm := g.regs.pkm ||| l, exm := g.regs.exm &&& ~~~ l }
      cnt := { g.cnt with sincePark := if first then 0 else g.cnt.sincePark } }

/-- Group lane faults by code, each with the fault of its lowest lane and the mask of its lanes. -/
def groupFaults (fs : List (Fin 32 × Flt)) : List (Flt × Mask) :=
  fs.foldl (fun acc x =>
    if acc.any (fun y => y.1.code == x.2.code) then
      acc.map (fun y => if y.1.code == x.2.code then (y.1, y.2 ||| BitVec.twoPow 32 x.1.val) else y)
    else acc ++ [(x.2, BitVec.twoPow 32 x.1.val)]) []

/-- The mask of the lanes of a list. -/
def laneMask (l : List (Fin 32)) : Mask := maskOf (fun i => l.contains i)

/-- Park the lanes of every group, or none when the records do not suffice (01 R29, R30). -/
def Gang.parkAll (g : Gang) (pc : DWord) (word : Word) (st : List Entry) (tick : Nat) :
    List (Flt × Mask) → Option Gang
  | [] => some g
  | (f, l) :: t =>
    match g.park1 pc word st f l tick with
    | some g => g.parkAll pc word st tick t
    | none => none

/-! Store buffer and homes. -/

/-! Physical places (12 R433). -/

def apertureBase : Nat := 0xFF0000000000
def isWindow (pa : Nat) : Bool := decide (apertureBase ≤ pa) && decide (pa < apertureBase + 0x10000000)
def peerBase : Nat := 0x800000000000
def isPeer (pa : Nat) : Bool :=
  decide (peerBase ≤ pa) && decide (pa < peerBase + 64 * 2 ^ 40) && decide ((pa - peerBase) % 2 ^ 40 < 2 ^ 39)
def peerModule (pa : Nat) : Nat := (pa - peerBase) / 2 ^ 40


/-- Bytes at a physical place of the module or the host, performed at the home; another module answers free bytes. -/
def State.homeRead (s : State) (l : Loc) (n : Nat) : List Byte :=
  match l with
  | .pad c o => (s.ctx c).pad.read o n
  | .phys a => if isPeer a then (List.range n).map (fun i => Config.peerByte s.clock (a + i)) else s.dram.read a n
  | .host a => s.host.read a n

/-- A read of n bytes meets a granule that cannot be read (02 R60). -/
def State.lostAt (s : State) (l : Loc) (n : Nat) : Bool :=
  match l with
  | .pad c o => (s.ctx c).lost != [] && (s.ctx c).lost.any (fun b => (granulesOf o n).contains (b / 16))
  | _ => false

/-- Bytes still lost after n bytes are written at o: a granule can be read again once each of its bytes has been (log 15). -/
def stillLost (t : Granules) (o n : Nat) : Granules := t.filter (fun b => decide (b < o) || decide (o + n ≤ b))

/-- Clear the tags of granules. -/
def clearTags (t : Granules) (a n : Nat) : Granules := (granulesOf a n).foldl Granules.del t

/-- The tags of a 128-byte line of device memory. -/
def lineTags (t : Granules) (line : Nat) : BitVec 8 := BitVec.ofNat 8 (((List.range 8).map (fun i => if t.has (8 * line + i) then 2 ^ i else 0)).sum)

/-- Advance a read-cache line with what its home now holds (05 R143 item 4). -/
def refreshLine (dram : Memory) (tags : Granules) (t : Tbl CacheLine) (line : Nat) : Tbl CacheLine :=
  match Tbl.get? t line with
  | some l => Tbl.put t line { l with data := dram.read (line * 128) 128, tags := lineTags tags line }
  | none => t

/-- The 128-byte lines of n bytes from a. -/
def linesOf (a n : Nat) : List Nat :=
  if n = 0 then [] else (List.range ((a + n - 1) / 128 - a / 128 + 1)).map (fun i => a / 128 + i)

/-- The core's read-cache lines of n bytes of device memory follow a write that it has performed (05 R143 item 4). -/
def State.refresh (s : State) (by_ : CoreId) (a n : Nat) : State :=
  s.modCore by_ (fun k => { k with cache := (linesOf a n).foldl (refreshLine s.dram s.dramTags) k.cache })

/-- Perform a write at its home on behalf of a core: bytes land, tags of the granules touched are cleared (02 R53), the
issuing core's read cache follows (05 R143). -/
def State.homeWrite (s : State) (by_ : CoreId) (l : Loc) (d : List Byte) : State :=
  match l with
  | .pad c o => s.modCtx c (fun x => { x with
      pad := x.pad.write o d, tags := clearTags x.tags o d.length, lost := stillLost x.lost o d.length })
  | .phys a =>
    if isPeer a || isWindow a then s else
    ({ s with dram := s.dram.write a d, dramTags := clearTags s.dramTags a d.length } : State).refresh by_ a d.length
  | .host a => { s with host := s.host.write a d }

/-- Set the tag of the granule at a place. -/
def State.setTag (s : State) (l : Loc) (b : Bool) : State :=
  match l with
  | .pad c o => s.modCtx c (fun x => { x with tags := x.tags.put (o / 16) b })
  | .phys a => { s with dramTags := s.dramTags.put (a / 16) b }
  | .host _ => s

/-- A capability, or half of one, written with its tag (02 R53, 09 R304). -/
def State.capWrite (s : State) (by_ : CoreId) (l : Loc) (d : List Byte) (tag : Bool) : State :=
  let s := (s.homeWrite by_ l d).setTag l tag
  match l with
  | .phys a => s.refresh by_ a d.length
  | _ => s

/-- The tag of the granule at a place (02 R53). -/
def State.getTag (s : State) (l : Loc) : Bool :=
  match l with
  | .pad c o => (s.ctx c).tags.has (o / 16)
  | .phys a => s.dramTags.has (a / 16)
  | .host _ => false

/-- A place some bytes further on. -/
def Loc.add (l : Loc) (n : Nat) : Loc :=
  match l with
  | .pad c o => .pad c (o + n)
  | .phys a => .phys (a + n)
  | .host a => .host (a + n)

/-- Whether two runs of bytes meet. -/
def Loc.meets (a : Loc) (n : Nat) (b : Loc) (m : Nat) : Bool :=
  match a, b with
  | .pad c x, .pad d y => c == d && decide (x < y + m) && decide (y < x + n)
  | .phys x, .phys y => decide (x < y + m) && decide (y < x + n)
  | .host x, .host y => decide (x < y + m) && decide (y < x + n)
  | _, _ => false

/-! Leaving a gang: what EXIT and KILL free is in Control. -/

/-- No lane of the gang has an access in flight (05 R143). -/
def Ctx.readsDone (x : Ctx) (k : SlotId) : Bool := x.flights.all (fun f => f.2.slot != k)

/-- No buffered write that the gang made or observed is left (05 R147). -/
def Ctx.writesDone (x : Ctx) (k : SlotId) : Bool := x.buf.all (fun b => !b.seen.getLsbD k.val)

/-- FSTAT takes the held flags at a delivering fence (03 R108). -/
def Gang.deliverHeld (g : Gang) : Gang := { (g.raise g.held) with held := 0 }

/-- The core's read cache is invalidated (05 R147). -/
def State.dropCache (s : State) (c : CoreId) : State := s.modCore c (fun k => { k with cache := [] })

/-- Effect of an acquire at a scope: CREW or wider invalidates the read cache (05 R147, R153). -/
def State.acquire (s : State) (c : CoreId) (scope : Nat) : State := if 2 ≤ scope then s.dropCache c else s

/-! Retiring an instruction. -/

/-- Take the packet at the head of the stream buffer away when the instruction came from it (01 R41). -/
def Gang.popStream (g : Gang) (stream : Bool) : Gang :=
  if stream then { g with chan := { g.chan with buf := g.chan.buf.tail } } else g

/-- Counts at retirement (10 R370, 06 R193, R199, R203, 01 R31). DEDUCED (log 75): the instruction at which the first lane parks, which
the other lanes complete, is the first of the 4,096. -/
def Counts.retire (n : Counts) (parkedLanes : Bool) (persist : Bool) : Counts :=
  { n with
    retired := n.retired + 1
    lt := n.lt + 1
    wt := 0
    ordOk := false
    relOk := false
    sincePark := if parkedLanes then n.sincePark + 1 else 0
    dog := if persist then n.dog else 0 }

/-- Claims held for a replay are released when an instruction at any other PC retires (04 R137). -/
def State.releaseHeld (s : State) (c : CoreId) (k : SlotId) (pc : DWord) : State :=
  match s.gang? c k with
  | some g =>
    match g.heldClaims with
    | some p =>
      if p = pc then s
      else (s.setGang c k { g with heldClaims := none }).modCtx c
        (fun x => { x with ops := x.ops.filter (fun o => !(o.slot == k && o.held)) })
    | none => s
  | none => s

/-- Retire the executing gang's instruction with a next PC (08 R253); TAKEN is 1 when that is not PC + 4 (01 R38). -/
def State.retire (s : State) (pc : Option DWord) : State :=
  match s.me? with
  | none => s
  | some g =>
    let old := g.regs.pc
    let s := (s.publish s.cur.core s.cur.slot s.cur.word (pc.any (fun x => x != old + 4))).releaseHeld s.cur.core s.cur.slot old
    match s.me? with
    | none => s
    | some g =>
      s.setMe { g.popStream s.cur.stream.isSome with
        regs := { g.regs with pc := pc.getD (old + 4) }
        chan := { (g.popStream s.cur.stream.isSome).chan with done := none }
        cnt := g.cnt.retire (g.regs.pkm != 0) g.hdr.persist }

/-! Running a word of a gang. -/

/-- What the effect of an instruction comes to: the state after it, a jump, a gang-wide fault, lane faults, or a wait. -/
inductive Res
  | done (s : State)
  | jump (s : State) (pc : DWord)
  | fault (f : Flt)
  | lanes (fs : List (Fin 32 × Flt))
  | wait (s : State) (w : Why)
  /-- the gang is gone or its slot belongs to no running gang any more -/
  | gone (s : State)

/-- WAITMSG and TXEND: whether the word sets its PC to another than PC + 4 is known when its wait ends (07 R227, R229). -/
def branchesLate (w : Word) : Bool := bits w 31 24 == 0xBA || bits w 31 24 == 0xAA

/-- A word that waits has issued, and is published. DEDUCED (log 94): one whose TAKEN only the end of its wait decides is published then
(01 R38). -/
def State.publishWait (s : State) : State :=
  if branchesLate s.cur.word then s else s.publish s.cur.core s.cur.slot s.cur.word false

/-- The executing gang waits at its instruction (07 R244 cut points). -/
def State.waitMe (s : State) (w : Why) : State :=
  let s := s.publishWait
  match s.me? with
  | none => s
  | some g => { (s.setMe { g with status := .waiting ⟨w, s.clock, s.cur.word⟩ }) with clock := s.clock + 1 }

/-- Lane faults inside a transaction: a lane whose reads changed aborts with CONFLICT, the others with FAULT (05 R168). -/
def State.txFaults (s : State) (g : Gang) (fs : List (Fin 32 × Flt)) (word : Word) : Gang × List (Fin 32 × Flt) :=
  let stale (i : Fin 32) : Bool :=
    (g.tx.lanes[i]).reads.any (fun r => ofBytes (s.homeRead r.1 8) != r.2.toNat)
  fs.foldl (fun acc x =>
    if (g.tx.lanes[x.1]).isOpen && !g.irrevocable x.1 then
      if stale x.1 then (acc.1.abortLane x.1 1 true true 0 0 none, acc.2)
      else (acc.1.abortLane x.1 4 false false x.2.code.num 0 (some (x.2, word)), acc.2)
    else (acc.1, acc.2 ++ [x])) (g, [])

/-- SUBSCRIBE and RESUB, on which a publisher faults and which it never publishes (01 R41). -/
def subscribes (w : Word) : Bool := bits w 31 24 == 0x12 || bits w 31 24 == 0x14

/-- A publisher publishes a word that faults at step 5 of R211 or later, but for its own SUBSCRIBE and RESUB (07 R215,
01 R41). -/
def State.publishFault (s : State) : State :=
  if subscribes s.cur.word then s else s.publish s.cur.core s.cur.slot s.cur.word false

/-- Lane faults of the executing gang (01 R29, R30): a freeze, or the state with the lanes parked in which the other active
lanes complete. -/
def State.laneFaults (s : State) (fs : List (Fin 32 × Flt)) : State × Bool :=
  match s.me? with
  | none => (s, true)
  | some g =>
    let stale (i : Fin 32) : Bool :=
      (g.tx.lanes[i]).isOpen && !g.irrevocable i &&
        (g.tx.lanes[i]).reads.any (fun r => ofBytes (s.homeRead r.1 8) != r.2.toNat)
    let real := fs.filter (fun x => !stale x.1)
    let all := laneMask (real.map Prod.fst) == g.active
    let low := match real.head? with
      | some x => x.2
      | none => flt .illegal
    if real ≠ [] ∧ (all ∨ real.any (fun x => g.irrevocable x.1)) then
      ((s.publishFault).freeze s.cur.core s.cur.slot low g.active s.cur.word, true)
    else
      let (g, rest) := s.txFaults g fs s.cur.word
      match g.parkAll g.regs.pc s.cur.word g.stack (s.now s.cur.core) (groupFaults rest) with
      | some g => ((rest.find? (fun x => x.2.code == .dataError)).elim (s.setMe g) (fun x => (s.setMe g).countFault s.cur.core x.2), false)
      | none => ((s.publishFault).freeze s.cur.core s.cur.slot low (laneMask (real.map Prod.fst)) s.cur.word, true)

/-- Settle a result that holds no lane faults. -/
def State.settle (s : State) (r : Res) : State :=
  match r with
  | .done s' => s'.retire none
  | .jump s' pc => s'.retire (some pc)
  | .wait s' w => s'.waitMe w
  | .gone s' => s'
  | .fault f => (s.publishFault).freeze s.cur.core s.cur.slot f ((s.me?.map Gang.active).getD 0) s.cur.word
  | .lanes fs => (s.laneFaults fs).1

/-- Run an instruction's effect: the lanes that fault park, and the others complete it (01 R29). -/
def State.complete (s : State) (body : State → Res) : State :=
  match body s with
  | .lanes fs =>
    let (s', frozen) := s.laneFaults fs
    if frozen then s' else s'.settle (body s')
  | r => s.settle r

/-- The lowest level of privilege that may execute an opcode (07 R213). -/
def Priv.le : Priv → Priv → Bool
  | .u, _ => true
  | .s, .u => false
  | .s, _ => true
  | .p, .p => true
  | .p, _ => false

/-- The order of R211 after decoding: privilege, then the V registers named and the queue window, then the effect. -/
def runFull (need : Priv) (vs : List Nat) (window : Bool) (body : State → Gang → Res) (s : State) :
    Host.Outcome State Fault Refusal :=
  match s.me? with
  | none => .fault .noGang
  | some g =>
    if g.status ≠ .running then .fault .noGang
    else if need.le g.priv = false then
      .next (s.freeze s.cur.core s.cur.slot (flt .privilege) g.active s.cur.word)
    else if vs.any (fun v => decide (g.vLimit ≤ v)) || (window && g.partner.isNone) then
      .next (s.freeze s.cur.core s.cur.slot (flt .illegal) g.active s.cur.word)
    else
      .next (s.complete (fun s =>
        match s.me? with
        | some g => body s g
        | none => .gone s))

/-- Result of an instruction that touches only its gang. -/
inductive GRes
  | done (g : Gang)
  | jump (g : Gang) (pc : DWord)
  | fault (f : Flt)

/-- An instruction that touches only its gang's registers. -/
def runGang (vs : List VReg) (body : Gang → GRes) (s : State) : Host.Outcome State Fault Refusal :=
  runFull .u (vs.map BitVec.toNat) false (fun s g =>
    match body g with
    | .done g => .done (s.setMe g)
    | .jump g pc => .jump (s.setMe g) pc
    | .fault f => .fault f) s

/-- The executing gang follows a stream (01 R41). -/
def State.subscriber (s : State) : Bool := s.cur.stream.isSome

/-- The gang is a member of a cohort as a subscriber, from its stream buffer or in a replay of its own (01 R41, R42). -/
def Gang.follows (g : Gang) : Bool := g.chan.role == .subscriber

/-- ETYPE 13 or 14, under which no vector instruction runs (01 R24, 09 R295). -/
def Gang.wideE (g : Gang) : Bool := modeEtype g.regs.mode == 13 || modeEtype g.regs.mode == 14

/-- Whether the gang is inside a transaction (05 R166). DEDUCED (log 98): from TXBEGIN until its construct ends, also in a pass in which
every lane has aborted. -/
def Gang.inTx (g : Gang) : Bool := g.tx.active

/-- A waiting gang runs again at its instruction. -/
def State.wake (s : State) (c : CoreId) (k : SlotId) : State :=
  s.modGang c k (fun g => { g with status := .running })

/-- The gang's core does not keep it from running: STOP spares level P (10 R373, 11 R403). -/
def State.unstopped (s : State) (core : CoreId) (g : Gang) : Bool := !(s.core core).stopped || g.priv == .p

/-- What a gang waits for. -/
def Gang.why? (g : Gang) : Option Why :=
  match g.status with
  | .waiting w => some w.why
  | _ => none

/-- Waits of a test at some cores, oldest first (06 R194). -/
def State.waiters (s : State) (cs : List CoreId) (t : Why → Bool) : List (CoreId × SlotId × Gang) :=
  (sortBy (fun (x : Nat × CoreId × SlotId × Gang) => x.1)
    (cs.flatMap (fun c => (s.ctx c).gangs.filterMap (fun kg =>
      match kg.2.status with
      | .waiting w => if t w.why then some (w.since, c, kg.1, kg.2) else none
      | _ => none)))).map (fun x => x.2)

/-- Complete the instruction a waiting gang stands at, from an event: its meaning's tail runs with cur at that gang, and cur is
put back (07 R244). -/
def State.asGang (s : State) (c : CoreId) (k : SlotId) (f : State → State) : State :=
  match s.gang? c k with
  | none => s
  | some g =>
    let word := match g.status with
      | .waiting w => w.word
      | _ => 0
    let strm := if g.chan.role = .subscriber ∧ g.replay = false then g.chan.buf.head? else none
    { (f { (s.wake c k) with cur := ⟨c, k, word, strm⟩ }) with cur := s.cur }

/-- A number that orders what a core has accepted. -/
def State.nextSeq (s : State) (c : CoreId) : Nat := (s.ctx c).seq
def State.bumpSeq (s : State) (c : CoreId) : State := s.modCtx c (fun x => { x with seq := x.seq + 1 })

end Sys2Proof.Machine
end

