-- ==== Sys2Proof/Machine/Operands.lean ====
section
/-! DEFINITION. Element types, integer arithmetic and operand forms (03 R82 to R86, 08 R272 to R277). -/

namespace Sys2Proof.Machine

/-- An integer element type: width and signedness (03 R82). -/
structure IntTy where
  width  : Nat
  signed : Bool
deriving DecidableEq, Repr

/-- The integer types of MODE.ETYPE 0 to 5 (03 R82). -/
def etypeInt : Nat → Option IntTy
  | 0 => some ⟨32, true⟩ | 1 => some ⟨32, false⟩ | 2 => some ⟨16, true⟩ | 3 => some ⟨16, false⟩
  | 4 => some ⟨8, true⟩ | 5 => some ⟨8, false⟩ | _ => none

/-- The value of a pattern in a type. -/
def IntTy.read (t : IntTy) (x : Nat) : Int := if t.signed then Sys2Proof.signed t.width x else ((x % 2 ^ t.width : Nat) : Int)

/-- Least and greatest value of a type. -/
def IntTy.lo (t : IntTy) : Int := if t.signed then -(2 ^ (t.width - 1) : Nat) else 0
def IntTy.hi (t : IntTy) : Int := if t.signed then (2 ^ (t.width - 1) : Nat) - 1 else (2 ^ t.width : Nat) - 1

/-- The pattern of a value, modulo 2^n (07 R246 wrap). -/
def IntTy.wrap (t : IntTy) (x : Int) : Nat := (x % (2 ^ t.width : Nat)).toNat

/-- The pattern of a value clamped to the type. -/
def IntTy.clamp (t : IntTy) (x : Int) : Nat := t.wrap (max t.lo (min t.hi x))

/-- sat() of 07 R246 (03 R85). -/
def IntTy.sat (t : IntTy) (sat : Bool) (x : Int) : Nat := if sat then t.clamp x else t.wrap x

/-- Quotient toward zero and remainder, with the cases of 03 R86. -/
def IntTy.div (t : IntTy) (sat : Bool) (a b : Int) : Nat :=
  if b = 0 then 2 ^ t.width - 1 else t.sat sat (Int.tdiv a b)
def IntTy.rem (t : IntTy) (a b : Int) : Nat := if b = 0 then t.wrap a else t.wrap (Int.tmod a b)

/-- Element j of a lane holding elements of w bits (03 R83). -/
def elemOf (w j : Nat) (x : Nat) : Nat := x / 2 ^ (w * j) % 2 ^ w

/-- One ALU sub-op on patterns a and b of one element (08 R273, 03 R86). -/
def aluElem (op : AluOp) (t : IntTy) (sat : Bool) (a b : Nat) : Nat :=
  let n := t.width
  let x := t.read a
  let y := t.read b
  let c := b % 256
  let ua := a % 2 ^ n
  let ub := b % 2 ^ n
  let u : IntTy := ⟨n, false⟩
  match op with
  | .add => t.sat sat (x + y)
  | .sub => t.sat sat (x - y)
  | .mul => t.sat sat (x * y)
  | .mulh => t.wrap ((x * y) / (2 ^ n : Nat))
  | .div => t.div sat x y
  | .rem => t.rem x y
  | .min => t.wrap (min x y)
  | .max => t.wrap (max x y)
  | .and => Nat.land ua ub
  | .or => Nat.lor ua ub
  | .xor => Nat.xor ua ub
  | .andn => Nat.land ua (2 ^ n - 1 - ub)
  | .shl => t.sat sat (x * (2 ^ c : Nat))
  | .shr => ua / 2 ^ c
  | .sra => t.wrap (signed n a / (2 ^ c : Nat))
  | .ror => Nat.lor (ua / 2 ^ (c % n)) (ua * 2 ^ (n - c % n) % 2 ^ n)
  | .abs => t.sat sat (if y < 0 then -y else y)
  | .neg => t.sat sat (-y)
  | .not => 2 ^ n - 1 - ub
  | .clz => if ub = 0 then n else n - 1 - ub.log2
  | .popc => (List.range n).foldl (fun k i => k + ub / 2 ^ i % 2) 0
  | .mov => ub
  | .absd => t.sat sat (if x - y < 0 then -(x - y) else x - y)
  | .avg => t.wrap ((x + y + 1) / 2)
  | .mulhu => u.wrap ((u.read a * u.read b) / (2 ^ n : Nat))
  | .divu => u.div false (u.read a) (u.read b)
  | .remu => u.rem (u.read a) (u.read b)
  | .minu => min ua ub
  | .maxu => max ua ub

/-- A lane computed element by element (03 R83): b is given per element. -/
def perElem (w : Nat) (f : Nat → Nat) : Word :=
  BitVec.ofNat 32 ((List.range (32 / w)).foldl (fun acc j => acc + f j % 2 ^ w * 2 ^ (w * j)) 0)

/-- The bitwise sub-ops, legal under ETYPE 6 to 8 as well (07 R220). -/
def bitwiseOp : AluOp → Bool
  | .and | .or | .xor | .andn | .not | .mov => true
  | _ => false

/-- The type a V sub-op works in: the element type, or the whole lane for bitwise sub-ops under 6 to 8 (08 R252, R272). -/
def aluTy (op : AluOp) (etype : Nat) : Option IntTy :=
  match etypeInt etype with
  | some t => some t
  | none => if bitwiseOp op && (etype == 6 || etype == 7 || etype == 8) then some ⟨32, false⟩ else none

/-- One lane of a V sub-op with a b element per position. -/
def aluLane (op : AluOp) (t : IntTy) (sat : Bool) (a : Word) (b : Nat → Nat) : Word :=
  perElem t.width (fun j => aluElem op t sat (elemOf t.width j a.toNat) (b j))

/-- The element type of an S register operation (08 R272): 64 bits, signed. -/
def scalarTy : IntTy := ⟨64, true⟩

/-- Compare sub-ops on two values, and tst on their patterns (08 R275, 07 R221). -/
def compare (op : CmpOp) (sx sy : Int) (ux uy : Nat) : Bool :=
  match op with
  | .eq => decide (sx = sy) | .ne => decide (sx ≠ sy) | .lt => decide (sx < sy) | .le => decide (sx ≤ sy)
  | .gt => decide (sx > sy) | .ge => decide (sx ≥ sy)
  | .ltu => decide (ux < uy) | .leu => decide (ux ≤ uy) | .gtu => decide (ux > uy) | .geu => decide (ux ≥ uy)
  | .tst => Nat.land ux uy != 0

/-- An immediate extended (07 R208): signed or unsigned. -/
def immS (i : BitVec 12) : Nat := (i.signExtend 64).toNat
def immZ (i : BitVec 12) : Nat := i.toNat

/-- The address of a lane index read signed in 32 bits (02 R55). -/
def signedIndex (w : Word) : Int := signed 32 w.toNat

end Sys2Proof.Machine
end

