-- ==== Sys2Proof/Machine/Flags.lean ====
section
/-! DEFINITION. Floating-point formats, rounding, flags and operations (03 R87 to R100). A finite value is a sign, a natural
mantissa m and an exponent e: m x 2^e. -/

namespace Sys2Proof.Machine

/-! Flags of FSTAT (03 R94). -/

def flagNV : BitVec 5 := 1
def flagDZ : BitVec 5 := 2
def flagOF : BitVec 5 := 4
def flagUF : BitVec 5 := 8
def flagNX : BitVec 5 := 16

/-! Formats (03 R87). -/

/-- Kinds of special codes: with infinities and NaNs, e4m3, e2m1. -/
inductive FmtKind
  | ieee | e4m3 | e2m1
deriving DecidableEq, Repr

structure Fmt where
  ebits : Nat
  fbits : Nat
  bias  : Nat
  kind  : FmtKind
deriving DecidableEq, Repr

def f32 : Fmt := ⟨8, 23, 127, .ieee⟩
def f16 : Fmt := ⟨5, 10, 15, .ieee⟩
def bf16 : Fmt := ⟨8, 7, 127, .ieee⟩
def e5m2 : Fmt := ⟨5, 2, 15, .ieee⟩
def e4m3 : Fmt := ⟨4, 3, 7, .e4m3⟩
def e2m1 : Fmt := ⟨2, 1, 1, .e2m1⟩

/-- Bits of an element. -/
def Fmt.width (f : Fmt) : Nat := 1 + f.ebits + f.fbits
/-- Exponent of the smallest normal. -/
def Fmt.emin (f : Fmt) : Int := 1 - (f.bias : Int)
/-- Largest finite magnitude as a pattern without sign. -/
def Fmt.maxBits (f : Fmt) : Nat :=
  match f.kind with
  | .ieee => (2 ^ f.ebits - 1) * 2 ^ f.fbits - 1
  | .e4m3 => 0x7E
  | .e2m1 => 7
/-- Pattern of +infinity in the formats that have one. -/
def Fmt.infBits (f : Fmt) : Nat := (2 ^ f.ebits - 1) * 2 ^ f.fbits
/-- The canonical NaN (03 R88); 0 for e2m1, which has none (03 R98). -/
def Fmt.nan (f : Fmt) : Nat :=
  match f.kind with
  | .ieee => f.infBits + 2 ^ (f.fbits - 1)
  | .e4m3 => 0x7F
  | .e2m1 => 0
def Fmt.signBit (f : Fmt) : Nat := 2 ^ (f.ebits + f.fbits)

/-- A decoded value. -/
inductive FVal
  | nan (signalling : Bool)
  | inf (neg : Bool)
  | fin (neg : Bool) (m : Nat) (e : Int)
deriving DecidableEq, Repr

/-- Decode a pattern; with FTZ a subnormal reads as a zero of its sign (03 R87 to R89). -/
def Fmt.decode (f : Fmt) (ftz : Bool) (x : Nat) : FVal :=
  let neg := x / f.signBit % 2 == 1
  let e := x / 2 ^ f.fbits % 2 ^ f.ebits
  let m := x % 2 ^ f.fbits
  if f.kind = .ieee ∧ e = 2 ^ f.ebits - 1 then
    if m = 0 then .inf neg else .nan (m / 2 ^ (f.fbits - 1) % 2 == 0)
  else if f.kind = .e4m3 ∧ e = 15 ∧ m = 7 then .nan false
  else if e = 0 then .fin neg (if ftz then 0 else m) (f.emin - f.fbits)
  else .fin neg (m + 2 ^ f.fbits) ((e : Int) - f.bias - f.fbits)

/-! Rounding state: the lane's LFSR and the flags raised so far. -/

structure FpSt where
  lfsr  : Word
  flags : BitVec 5 := 0
deriving DecidableEq, Repr

/-- The fields of MODE that govern rounding (07 R245). -/
structure FpCfg where
  rnd : Nat
  ftz : Bool
deriving DecidableEq, Repr

def Gang.fpCfg (g : Gang) : FpCfg := ⟨modeRnd g.regs.mode, modeFtz g.regs.mode⟩

/-- One LFSR step (03 R93). -/
def lfsrStep (s : Word) : Word :=
  (s <<< 1) ||| (if Bool.xor (Bool.xor (s.getLsbD 31) (s.getLsbD 21)) (Bool.xor (s.getLsbD 1) (s.getLsbD 0)) then 1 else 0)

def FpSt.raise (t : FpSt) (f : BitVec 5) : FpSt := { t with flags := t.flags ||| f }

/-- Under SR the LFSR steps once for each element rounded (03 R93). -/
def FpSt.tick (t : FpSt) (rnd : Nat) : FpSt := if rnd = 5 then { t with lfsr := lfsrStep t.lfsr } else t

/-- m x 2^e cut at unit 2^u: the quotient, the remainder, and log2 of the divisor. -/
def cutAt (m : Nat) (e u : Int) : Nat × Nat × Nat :=
  if u ≤ e then (m * 2 ^ (e - u).toNat, 0, 0)
  else (m / 2 ^ (u - e).toNat, m % 2 ^ (u - e).toNat, (u - e).toNat)

/-- Whether the magnitude goes up to the next multiple of the unit (03 R90, R92): q the quotient, r the remainder below 2^k,
sticky a nonzero tail below r. -/
def roundUp (rnd : Nat) (neg : Bool) (q r k : Nat) (sticky : Bool) (g : Nat) : Bool :=
  let inexact := r != 0 || sticky
  let half := 2 ^ k / 2
  match rnd with
  | 0 => k != 0 && (decide (half < r) || (r == half && (sticky || q % 2 == 1)))
  | 1 => false
  | 2 => neg && inexact
  | 3 => !neg && inexact
  | 4 => k != 0 && decide (half ≤ r)
  | _ => decide (2 ^ 24 ≤ r * 2 ^ 24 / 2 ^ k + g)

/-- Overflowed result (03 R91). -/
def overflowBits (f : Fmt) (rnd : Nat) (neg : Bool) : Nat :=
  let inf := match f.kind with
    | .ieee => match rnd with
      | 1 => false
      | 2 => neg
      | 3 => !neg
      | _ => true
    | _ => false
  if inf then f.infBits else f.maxBits

/-- round() of 07 R245: an exact value of sign neg and magnitude m x 2^e, with a nonzero tail below when sticky, into a
format. -/
def roundTo (f : Fmt) (c : FpCfg) (neg : Bool) (m : Nat) (e : Int) (sticky : Bool) (t : FpSt) : Nat × FpSt :=
  let t := t.tick c.rnd
  let s := if neg then f.signBit else 0
  if m = 0 then (s, t)
  else
    let x := e + (m.log2 : Int)
    let tiny := decide (x < f.emin)
    if tiny && c.ftz then (s, t.raise (flagUF ||| flagNX))
    else
      let u := max x f.emin - f.fbits
      let (q, r, k) := cutAt m e u
      let inexact := r != 0 || sticky
      let q' := if roundUp c.rnd neg q r k sticky (t.lfsr.toNat % 2 ^ 24) then q + 1 else q
      let mag := q' + (u - (f.emin - f.fbits)).toNat * 2 ^ f.fbits
      let ovf := decide (f.maxBits < mag)
      let fl := (if inexact then flagNX else 0) ||| (if tiny && inexact then flagUF else 0) |||
        (if ovf then flagOF ||| flagNX else 0)
      (s + (if ovf then overflowBits f c.rnd neg else mag), t.raise fl)

/-- Rounding onto the integers (03 R90): the signed result and whether it was inexact. -/
def roundInt (rnd : Nat) (neg : Bool) (m : Nat) (e : Int) (t : FpSt) : Int × Bool × FpSt :=
  let t := t.tick rnd
  let (q, r, k) := cutAt m e 0
  let q' := if roundUp rnd neg q r k false (t.lfsr.toNat % 2 ^ 24) then q + 1 else q
  (if neg then -(q' : Int) else (q' : Int), r != 0, t)

/-! Operations (03 R96, R97). Each takes patterns and answers a pattern with the state after it. -/

/-- Any NaN among the inputs: the canonical NaN, NV if one is signalling (03 R96). -/
def nanOf (f : Fmt) (vs : List FVal) (t : FpSt) : Option (Nat × FpSt) :=
  if vs.any (fun v => match v with | .nan _ => true | _ => false) then
    some (f.nan, if vs.any (fun v => match v with | .nan true => true | _ => false) then t.raise flagNV else t)
  else none

def infOf (f : Fmt) (neg : Bool) : Nat := (if neg then f.signBit else 0) + f.infBits

/-- The invalid result (03 R97). -/
def invalid (f : Fmt) (t : FpSt) : Nat × FpSt := (f.nan, t.raise flagNV)

/-- The exact sum of two finite values as sign, magnitude and exponent; the sign of zero by 03 R97. -/
def addExact (rnd : Nat) (na : Bool) (ma : Nat) (ea : Int) (nb : Bool) (mb : Nat) (eb : Int) : Bool × Nat × Int :=
  let e := min ea eb
  let a : Int := (ma * 2 ^ (ea - e).toNat : Nat)
  let b : Int := (mb * 2 ^ (eb - e).toNat : Nat)
  let x := (if na then -a else a) + (if nb then -b else b)
  if x = 0 then (if na == nb then na else rnd == 2, 0, e) else (decide (x < 0), x.natAbs, e)

def FVal.negate : FVal → FVal
  | .nan q => .nan q
  | .inf n => .inf (!n)
  | .fin n m e => .fin (!n) m e

/-- Sum of two decoded values. -/
def addVals (f : Fmt) (c : FpCfg) (a b : FVal) (t : FpSt) : Nat × FpSt :=
  match nanOf f [a, b] t with
  | some r => r
  | none =>
    match a, b with
    | .inf x, .inf y => if x == y then (infOf f x, t) else invalid f t
    | .inf x, _ => (infOf f x, t)
    | _, .inf y => (infOf f y, t)
    | .fin na ma ea, .fin nb mb eb =>
      let (n, m, e) := addExact c.rnd na ma ea nb mb eb
      roundTo f c n m e false t
    | _, _ => (f.nan, t)

def fpAdd (f : Fmt) (c : FpCfg) (a b : Nat) (t : FpSt) : Nat × FpSt :=
  addVals f c (f.decode c.ftz a) (f.decode c.ftz b) t

def fpSub (f : Fmt) (c : FpCfg) (a b : Nat) (t : FpSt) : Nat × FpSt :=
  addVals f c (f.decode c.ftz a) (f.decode c.ftz b).negate t

def fpMul (f : Fmt) (c : FpCfg) (a b : Nat) (t : FpSt) : Nat × FpSt :=
  let a := f.decode c.ftz a
  let b := f.decode c.ftz b
  match nanOf f [a, b] t with
  | some r => r
  | none =>
    match a, b with
    | .inf x, .inf y => (infOf f (x != y), t)
    | .inf x, .fin y m _ => if m = 0 then invalid f t else (infOf f (x != y), t)
    | .fin x m _, .inf y => if m = 0 then invalid f t else (infOf f (x != y), t)
    | .fin na ma ea, .fin nb mb eb => roundTo f c (na != nb) (ma * mb) (ea + eb) false t
    | _, _ => (f.nan, t)

/-- Quotient bits kept beyond both mantissas, so that SR sees floor(...) of 03 R92 exactly. -/
def divBits : Nat := 96

def fpDiv (f : Fmt) (c : FpCfg) (a b : Nat) (t : FpSt) : Nat × FpSt :=
  let a := f.decode c.ftz a
  let b := f.decode c.ftz b
  match nanOf f [a, b] t with
  | some r => r
  | none =>
    match a, b with
    | .inf _, .inf _ => invalid f t
    | .inf x, .fin y _ _ => (infOf f (x != y), t)
    | .fin x _ _, .inf y => roundTo f c (x != y) 0 0 false t
    | .fin na ma ea, .fin nb mb eb =>
      if mb = 0 then
        if ma = 0 then invalid f t else (infOf f (na != nb), t.raise flagDZ)
      else
        roundTo f c (na != nb) (ma * 2 ^ divBits / mb) (ea - eb - divBits) (ma * 2 ^ divBits % mb != 0) t
    | _, _ => (f.nan, t)

def fpSqrt (f : Fmt) (c : FpCfg) (b : Nat) (t : FpSt) : Nat × FpSt :=
  let b := f.decode c.ftz b
  match nanOf f [b] t with
  | some r => r
  | none =>
    match b with
    | .inf n => if n then invalid f t else (infOf f false, t)
    | .fin n m e =>
      if m = 0 then (if n then f.signBit else 0, t.tick c.rnd)
      else if n then invalid f t
      else
        let odd : Nat := (e % 2).toNat
        let x := m * 2 ^ (odd + 2 * divBits)
        let r := Nat.sqrt x
        roundTo f c false r ((e - odd) / 2 - divBits) (r * r != x) t
    | .nan _ => (f.nan, t)

/-- a < b on numbers; zeros equal. -/
def FVal.lt (a b : FVal) : Bool :=
  match a, b with
  | .inf x, .inf y => x && !y
  | .inf x, .fin .. => x
  | .fin .., .inf y => !y
  | .fin na ma ea, .fin nb mb eb =>
    let e := min ea eb
    let x : Int := (ma * 2 ^ (ea - e).toNat : Nat)
    let y : Int := (mb * 2 ^ (eb - e).toNat : Nat)
    decide ((if na then -x else x) < (if nb then -y else y))
  | _, _ => false

/-- Sign of a value. -/
def FVal.neg : FVal → Bool
  | .nan _ => false
  | .inf n => n
  | .fin n _ _ => n

/-- The pattern of an input read under FTZ. -/
def readBits (f : Fmt) (ftz : Bool) (x : Nat) : Nat :=
  match f.decode ftz x with
  | .fin n 0 _ => if n then f.signBit else 0
  | _ => x % 2 ^ f.width

/-- FMIN and FMAX (03 R97). -/
def fpMinMax (mx : Bool) (f : Fmt) (c : FpCfg) (a b : Nat) (t : FpSt) : Nat × FpSt :=
  let x := f.decode c.ftz a
  let y := f.decode c.ftz b
  let t := if x == .nan true || y == .nan true then t.raise flagNV else t
  match x, y with
  | .nan _, .nan _ => (f.nan, t)
  | .nan _, _ => (readBits f c.ftz b, t)
  | _, .nan _ => (readBits f c.ftz a, t)
  | _, _ =>
    let aLess := x.lt y || (!(y.lt x) && x.neg && !y.neg)
    (readBits f c.ftz (if aLess != mx then a else b), t)

/-- FMA family (08 R289): negP and negD negate the product and the addend. -/
def fpFma (f : Fmt) (c : FpCfg) (negP negD : Bool) (a b d : Nat) (t : FpSt) : Nat × FpSt :=
  let a := f.decode c.ftz a
  let b := f.decode c.ftz b
  let d := f.decode c.ftz d
  let d := if negD then d.negate else d
  let zeroInf := match a, b with
    | .inf _, .fin _ 0 _ => true
    | .fin _ 0 _, .inf _ => true
    | _, _ => false
  if zeroInf then invalid f t
  else
    match nanOf f [a, b, d] t with
    | some r => r
    | none =>
      let n := (a.neg != b.neg) != negP
      match a, b, d with
      | .fin _ ma ea, .fin _ mb eb, .fin nd md ed =>
        let (s, m, e) := addExact c.rnd n (ma * mb) (ea + eb) nd md ed
        roundTo f c s m e false t
      | .fin .., .fin .., .inf nd => (infOf f nd, t)
      | _, _, .inf nd => if n == nd then (infOf f n, t) else invalid f t
      | _, _, _ => (infOf f n, t)

/-- The compares of 08 R291 with the NaN rows of 03 R97. -/
def fpCompare (op : FcmpOp) (c : FpCfg) (a b : Nat) (t : FpSt) : Bool × FpSt :=
  let x := f32.decode c.ftz a
  let y := f32.decode c.ftz b
  let nan (v : FVal) : Bool := match v with | .nan _ => true | _ => false
  if nan x || nan y then
    let sig := x == .nan true || y == .nan true
    match op with
    | .feq => (false, if sig then t.raise flagNV else t)
    | .fne => (true, if sig then t.raise flagNV else t)
    | _ => (false, t.raise flagNV)
  else
    let lt := x.lt y
    let gt := y.lt x
    (match op with
      | .feq => !lt && !gt | .fne => lt || gt | .flt => lt | .fle => !gt | .fgt => gt | .fge => !lt, t)

/-- The class bit of 08 R292. -/
def fclassBits (b : Nat) : Nat :=
  let neg := b / 2 ^ 31 % 2 == 1
  let e := b / 2 ^ 23 % 256
  let m := b % 2 ^ 23
  if e = 255 ∧ m ≠ 0 then (if m / 2 ^ 22 = 0 then 256 else 512)
  else if e = 255 then (if neg then 1 else 128)
  else if e = 0 ∧ m = 0 then (if neg then 8 else 16)
  else if e = 0 then (if neg then 4 else 32)
  else (if neg then 2 else 64)

/-! FEXP2 and FLOG2 (03 R99, R100). The constants are those the formulas give. -/

def expA1 : Nat := 2977044472
def expA2 : Nat := 1031764991
def expA3 : Nat := 238388332
def logKL : Nat := 26613026195688644983

/-- T of 03 R99 for j = 0 to 63: 2^(31 + j/64), rounded half up. -/
def exp2Table : List Nat :=
  [2147483648, 2170868212, 2194507417, 2218404036, 2242560872, 2266980759, 2291666561, 2316621173] ++
  [2341847524, 2367348571, 2393127307, 2419186755, 2445529972, 2472160047, 2499080105, 2526293303] ++
  [2553802834, 2581611923, 2609723834, 2638141863, 2666869345, 2695909648, 2725266179, 2754942382] ++
  [2784941738, 2815267765, 2845924021, 2876914102, 2908241642, 2939910317, 2971923842, 3004285971] ++
  [3037000500, 3070071267, 3103502151, 3137297074, 3171459999, 3205994934, 3240905930, 3276197082] ++
  [3311872529, 3347936457, 3384393094, 3421246719, 3458501653, 3496162267, 3534232978, 3572718252] ++
  [3611622603, 3650950594, 3690706840, 3730896002, 3771522796, 3812591987, 3854108391, 3896076880] ++
  [3938502376, 3981389855, 4024744348, 4068570940, 4112874773, 4157661043, 4202935003, 4248701965]

/-- L of 03 R100 for c = 64 to 127: log2(c / 64) x 2^64, rounded half up. -/
def log2Table : List Nat :=
  [0, 412613322424486499, 818926958183105433, 1219130382413175476, 1613404648504497789, 2001922879925238372, 2384850726660851500, 2762346789278069823] ++
  [3134563013331062591, 3501645056564487676, 3863732631134349280, 4220959822858870674, 4573455389325005895, 4921343038509143852, 5264741689420736009, 5603765716143027046] ++
  [5938525176524057593, 6269126026662125183, 6595670322231605598, 6918256407606284491, 7236979093657101011, 7551929825028555382, 7863196837632180880, 8170865307035720186] ++
  [8475017488372349945, 8775732848344909873, 9073088189855120184, 9367157769746774429, 9658013410114482884, 9945724603595365617, 10230358613029842718, 10511980565849063488] ++
  [10790653543520307104, 11066438666357651011, 11339395173983139430, 11609580501703412536, 11877050353048115186, 12141858768699246319, 12404058192024804892, 12663699531415516614] ++
  [12920832219609980521, 13175504270181158604, 13427762331345657399, 13677651737246638159, 13925216556851369695, 14170499640595339779, 14413542664896407538, 14654386174654656383] ++
  [14893069623846345523, 15129631414313612932, 15364108932845312999, 15596538586638540477, 15826955837224964698, 16055395232941043113, 16281890440016472475, 16506474272350843312] ++
  [16729178720044364697, 16950034976744699890, 17169073465868378867, 17386323865751912702, 17601815133784610129, 17815575529572172779, 18027632637177408114, 18238013386481834773]

/-- FEXP2 of a finite value. -/
def exp2Fin (ftz : Bool) (neg : Bool) (m : Nat) (e : Int) (t : FpSt) : Nat × FpSt :=
  let v : Int := if neg then -(m : Int) else (m : Int)
  let scaled (k : Int) : Int := if 0 ≤ e + k then v * (2 ^ (e + k).toNat : Nat) else v / (2 ^ (-(e + k)).toNat : Nat)
  let n := scaled 0
  let whole := decide (0 ≤ e) || decide (v % (2 ^ (-e).toNat : Nat) = 0)
  if 128 ≤ n then (f32.infBits, t.raise (flagOF ||| flagNX))
  else if n < -151 then (0, t.raise (flagUF ||| flagNX))
  else
    let fr := (scaled 32 % (2 ^ 32 : Nat)).toNat
    let g := fr % 2 ^ 26
    let j := fr / 2 ^ 26
    let p := 2 ^ 32 + g * (expA1 + g * (expA2 + g * expA3 / 2 ^ 32) / 2 ^ 32) / 2 ^ 32
    let (r, t') := roundTo f32 ⟨0, ftz⟩ false ((exp2Table[j]?).getD 0 * p) (n - 63) false t
    (r, if whole then t' else t'.raise flagNX)

def fpExp2 (c : FpCfg) (b : Nat) (t : FpSt) : Nat × FpSt :=
  let x := f32.decode c.ftz b
  match nanOf f32 [x] t with
  | some r => r
  | none =>
    match x with
    | .inf n => (if n then 0 else f32.infBits, t)
    | .fin n m e => exp2Fin c.ftz n m e t
    | .nan _ => (f32.nan, t)

/-- FLOG2 of a positive finite value. -/
def log2Fin (ftz : Bool) (m : Nat) (e : Int) (t : FpSt) : Nat × FpSt :=
  let k : Int := 23 - (m.log2 : Int)
  let sig := if 0 ≤ k then m * 2 ^ k.toNat else m / 2 ^ (-k).toNat
  let ex := e - k + 23
  -- x lies in [1 - 2^-5, 1 + 2^-5)
  let near := (ex == 0 && decide (sig < 2 ^ 23 + 2 ^ 18)) || (ex == -1 && decide (2 ^ 24 - 2 ^ 19 ≤ sig))
  let c := sig / 2 ^ 17
  let y : Int :=
    if near then (if ex = 0 then ((sig : Int) - 2 ^ 23) * 2 ^ 41 else ((sig : Int) - 2 ^ 24) * 2 ^ 40)
    else ((sig - c * 2 ^ 17 : Nat) : Int) * 2 ^ 64 / ((c * 2 ^ 17 : Nat) : Int)
  let e0 : Int := if near then 0 else ex
  let l : Int := if near then 0 else ((log2Table[c - 64]?).getD 0 : Nat)
  let two : Int := 2 ^ 64
  let p2 := y * y / two
  let p3 := p2 * y / two
  let p4 := p3 * y / two
  let p5 := p4 * y / two
  let z := y - p2 / 2 + p3 / 3 - p4 / 4 + p5 / 5
  let w := z * (logKL : Int) / two
  let total := e0 * two + l + w
  let (r, t') := roundTo f32 ⟨0, ftz⟩ (decide (total < 0)) total.natAbs (-64) false t
  (r, if sig = 2 ^ 23 then t' else t'.raise flagNX)

def fpLog2 (c : FpCfg) (b : Nat) (t : FpSt) : Nat × FpSt :=
  let x := f32.decode c.ftz b
  match nanOf f32 [x] t with
  | some r => r
  | none =>
    match x with
    | .inf n => if n then invalid f32 t else (f32.infBits, t)
    | .fin n m e =>
      if m = 0 then (infOf f32 true, t.raise flagDZ)
      else if n then invalid f32 t
      else log2Fin c.ftz m e t
    | .nan _ => (f32.nan, t)

/-- A sub-op of 08 R288 on patterns of one element; fneg, fabs and fcpys move bits (03 R97). -/
def fopElem (op : FopOp) (f : Fmt) (c : FpCfg) (a b : Nat) (t : FpSt) : Nat × FpSt :=
  match op with
  | .fadd => fpAdd f c a b t
  | .fsub => fpSub f c a b t
  | .fmul => fpMul f c a b t
  | .fdiv => fpDiv f c a b t
  | .fmin => fpMinMax false f c a b t
  | .fmax => fpMinMax true f c a b t
  | .fsqrt => fpSqrt f c b t
  | .fexp2 => fpExp2 c b t
  | .flog2 => fpLog2 c b t
  | .fneg => (Nat.xor (b % 2 ^ f.width) f.signBit, t)
  | .fabs => (b % f.signBit, t)
  | .fcpys => (a % f.signBit + b / f.signBit % 2 * f.signBit, t)

/-- The FMA family on one element (08 R289). -/
def fmaElem (op : FmaOp) (f : Fmt) (c : FpCfg) (a b d : Nat) (t : FpSt) : Nat × FpSt :=
  match op with
  | .fma => fpFma f c false false a b d t
  | .fms => fpFma f c false true a b d t
  | .fnma => fpFma f c true false a b d t
  | .fnms => fpFma f c true true a b d t

/-! Conversions (03 R98, 08 R293). -/

/-- The integer types of FCVT. -/
def CvtTy.int? : CvtTy → Option IntTy
  | .i32 => some ⟨32, true⟩ | .n32 => some ⟨32, false⟩ | .i16 => some ⟨16, true⟩ | .n16 => some ⟨16, false⟩
  | .i8 => some ⟨8, true⟩ | .n8 => some ⟨8, false⟩ | .i64 => some ⟨64, true⟩ | .n64 => some ⟨64, false⟩ | _ => none

/-- The floating-point types of FCVT. -/
def CvtTy.fmt : CvtTy → Fmt
  | .f16 => f16 | .bf16 => bf16 | .e4m3 => e4m3 | .e5m2 => e5m2 | .e2m1 => e2m1 | _ => f32

/-- Float to float: exact to a wider format, otherwise rounded (03 R98). -/
def cvtFF (tgt src : Fmt) (c : FpCfg) (x : Nat) (t : FpSt) : Nat × FpSt :=
  match src.decode c.ftz x with
  | .nan sig => (tgt.nan, if sig || tgt.kind == .e2m1 then t.raise flagNV else t)
  | .inf n =>
    match tgt.kind with
    | .ieee => (infOf tgt n, t)
    | _ => ((if n then tgt.signBit else 0) + tgt.maxBits, t.raise (flagOF ||| flagNX))
  | .fin n m e =>
    if src.width < tgt.width then roundTo tgt ⟨0, c.ftz⟩ n m e false t else roundTo tgt c n m e false t

/-- Integer to float (03 R98). -/
def cvtIF (tgt : Fmt) (ty : IntTy) (c : FpCfg) (x : Nat) (t : FpSt) : Nat × FpSt :=
  roundTo tgt c (decide (ty.read x < 0)) (ty.read x).natAbs 0 false t

/-- Float to integer (03 R98). -/
def cvtFI (ty : IntTy) (src : Fmt) (c : FpCfg) (x : Nat) (t : FpSt) : Nat × FpSt :=
  match src.decode c.ftz x with
  | .nan _ => (0, t.raise flagNV)
  | .inf n => (ty.wrap (if n then ty.lo else ty.hi), t.raise flagNV)
  | .fin n m e =>
    let (v, inexact, t) := roundInt c.rnd n m e t
    if v < ty.lo then (ty.wrap ty.lo, t.raise flagNV)
    else if ty.hi < v then (ty.wrap ty.hi, t.raise flagNV)
    else (ty.wrap v, if inexact then t.raise flagNX else t)

/-- FCVT of one value: the pattern of the target's width (03 R98). -/
def fcvtElem (target source : CvtTy) (c : FpCfg) (sat : Bool) (x : Nat) (t : FpSt) : Nat × FpSt :=
  match CvtTy.int? target, CvtTy.int? source with
  | some ti, some si => (ti.sat sat (si.read x), t)
  | some ti, none => cvtFI ti (CvtTy.fmt source) c x t
  | none, some si => cvtIF (CvtTy.fmt target) si c x t
  | none, none => cvtFF (CvtTy.fmt target) (CvtTy.fmt source) c x t

/-- Placement of a narrow result in n bits: sign copies for i8, i16 and i32, zeros otherwise (08 R293). -/
def placeResult (target : CvtTy) (n x : Nat) : Nat :=
  match target with
  | .i8 => ((signed 8 x) % (2 ^ n : Nat)).toNat
  | .i16 => ((signed 16 x) % (2 ^ n : Nat)).toNat
  | .i32 => ((signed 32 x) % (2 ^ n : Nat)).toNat
  | _ => x

/-! Applying an operation to lanes. -/

/-- Element types of floating-point V operations (03 R82). -/
def etypeFmt : Nat → Option Fmt
  | 6 => some f32 | 7 => some f16 | 8 => some bf16 | _ => none

/-- A lane computed element by element in ascending order (03 R83, R93). -/
def fpLane (w : Nat) (f : Nat → FpSt → Nat × FpSt) (t : FpSt) : Word × FpSt :=
  let r := (List.range (32 / w)).foldl
    (fun acc j => let x := f j acc.2; (acc.1 + x.1 % 2 ^ w * 2 ^ (w * j), x.2)) (0, t)
  (BitVec.ofNat 32 r.1, r.2)

/-- The results of the active lanes: values, LFSRs and the flags of all of them (07 R249, 03 R95). -/
def Gang.fpLanes (g : Gang) (f : Fin 32 → FpSt → Word × FpSt) : Lanes Word × Lanes Word × BitVec 5 :=
  let r : Lanes (Word × FpSt) := Lanes.of (fun i =>
    if Mask.has g.active i then f i ⟨g.regs.lfsr[i], 0⟩ else (0, ⟨g.regs.lfsr[i], 0⟩))
  (r.map Prod.fst, r.map (fun x => x.2.lfsr), r.toList.foldl (fun k x => k ||| x.2.flags) 0)

/-- Write active lanes of V[d] from a lane computation, with LFSRs and flags. -/
def Gang.setFp (g : Gang) (d : VReg) (f : Fin 32 → FpSt → Word × FpSt) : Gang :=
  let (v, l, k) := g.fpLanes f
  let g' := (g.setV d (fun i => v[i])).raise k
  { g' with regs := { g'.regs with lfsr := l } }

/-- A computation on lane 0's LFSR, for the S forms (08 R290, R293). -/
def Gang.withLane0 (g : Gang) (f : FpSt → α × FpSt) : α × Gang :=
  let (x, t) := f ⟨g.regs.lfsr[0], 0⟩
  let g' := g.raise t.flags
  (x, { g' with regs := { g'.regs with lfsr := g'.regs.lfsr.set 0 t.lfsr } })

end Sys2Proof.Machine
end

