-- ==== Sys2Proof/WellFormed.lean ====
section
/-! DEFINITION. Which instructions have an encoding: the limits of 07 R207 to R230 that the types of Syntax do not already hold. -/

namespace Sys2Proof

/-- Unary ALU sub-ops, whose a field must be zero (07 R220). -/
def AluOp.unary : AluOp → Bool
  | .abs | .neg | .not | .clz | .popc | .mov => true
  | _ => false

/-- The unsigned sub-ops, which only SOP takes (07 R220). -/
def AluOp.sopOnly : AluOp → Bool
  | .mulhu | .divu | .remu | .minu | .maxu => true
  | _ => false

/-- Unary floating-point sub-ops, whose a field must be zero (07 R223). -/
def FopOp.unary : FopOp → Bool
  | .fsqrt | .fexp2 | .flog2 | .fneg | .fabs => true
  | _ => false

/-- Compares VCMP and VCMPS accept (07 R221): 0 to 5 and 10. -/
def CmpOp.vectorLegal : CmpOp → Bool
  | .ltu | .leu | .gtu | .geu => false
  | _ => true

/-- Unary PLOG sub-ops (07 R222). -/
def PlogOp.unary : PlogOp → Bool
  | .pnot | .pmov => true
  | _ => false

/-- Types FCVT 0x59 does not take (07 R224). -/
def CvtTy.wide : CvtTy → Bool
  | .i64 | .n64 => true
  | _ => false

/-- Sizes of ATOM, ATOMC and RED (07 R227). -/
def Size.atomic : Size → Bool
  | .w | .d => true
  | _ => false

/-- Whether the row is an instruction word; the other rows are events (95). -/
def Instr.isWord : Instr → Bool
  | .gangEnd .. | .subscribeRegistration .. | .streamPacketEntry .. | .publisherHold .. | .fenceComplete ..
  | .xfenceComplete .. | .barwtRelease .. | .fewaitComplete .. | .wmwaitComplete .. | .watermarkLoadRelease ..
  | .qualifiedLoadComplete .. | .atomicPerform .. | .reductionPerform .. | .txLogGrant .. | .irrevocableTokenGrant ..
  | .copyChunk .. | .copyChunkComplete .. | .selectInputConsume .. | .queueWake .. | .inboxWaiterEntry ..
  | .waitmsgDelivery .. | .ringRequestApply .. | .binTimerExpiry .. | .indexPassComplete .. | .matrixOpStart ..
  | .matrixStep .. | .drainQ11Push .. | .gangPlacement .. | .growGrant .. | .storePerform .. | .readCacheLineExpiry ..
  | .scWindowComplete .. | .orderedEventRelease .. | .faultPacketDelivery .. | .fountPacketService .. | .watchdogHung ..
  | .convergenceCountFreeze .. | .debugWindowWrite .. | .debugStatusRead .. | .powerOnReset .. | .functionLevelReset ..
  | .hostPost .. | .registerWrite .. | .evcauseClear .. | .recordCommit .. | .sysReadCompletion .. | .sysReadTimeout ..
  | .claim .. | .claimVerification | .renew .. | .yieldOwnership .. | .leaseWarning | .leaseRevocation
  | .partCreate .. | .partDestroy .. | .partReset .. | .partScrubComplete .. | .setDeleg .. | .setModid .. | .setRoute ..
  | .setExport .. | .attest .. | .extend .. | .cert .. | .updateWrite .. | .updateActivate .. | .updateCommit ..
  | .logRead .. | .logSegmentSign | .portLinkUp .. | .peerAccess .. | .setCeiling .. | .setShare .. | .setPmax ..
  | .park .. | .parkComplete .. | .unpark .. | .unparkComplete .. | .setEscpol .. | .fresume .. | .setWdog ..
  | .clrCounters .. | .railSample .. | .powerEstimate .. | .pstateStepDown .. | .pstateStepUp .. | .pstateStepComplete ..
  | .thermalStep .. | .thermalTrip .. | .illegalWord .. | .loadPerform .. | .tileOperationComplete .. | .portLinkDown ..
  | .busMasterEnableChange .. => false
  | _ => true

/-- The checks of 07 R207 to R230 on a term of Instr. An instruction that meets them has exactly one word. -/
def Instr.wf : Instr → Bool
  | .vop op _ a _ => !op.sopOnly && (!op.unary || a == 0)
  | .vops op _ a _ => !op.sopOnly && (!op.unary || a == 0)
  | .sop op _ a _ => !op.unary || a == 0
  | .vcmp op .. => op.vectorLegal
  | .vcmps op .. => op.vectorLegal
  | .plog op _ a _ => !op.unary || a == 0
  | .fop op _ a _ => !op.unary || a == 0
  | .fops op _ a _ => !op.unary || a == 0
  | .sfop op _ a _ => !op.unary || a == 0
  | .fcvt t s .. => t != s && !t.wide && !s.wide
  | .fcvtS t s .. => t != s
  | .ld _ _ sz q => !(sz == .q && q == .sc)
  | .lds _ _ sz _ => sz == .b || sz == .h
  | .st _ _ sz q => !(sz == .q && q == .sc)
  | .sld _ _ sz _ => sz != .q
  | .slds _ _ sz _ => sz == .b || sz == .h || sz == .w
  | .sst _ _ sz _ => sz != .q
  | .objinfo .. => true
  | .atom _ _ _ sz => sz.atomic
  | .atomAcq _ _ _ sz => sz.atomic
  | .atomRel _ _ _ sz => sz.atomic
  | .atomAr _ _ _ sz => sz.atomic
  | .atomSc _ _ _ sz => sz.atomic
  | .atomc _ _ _ sz => sz.atomic
  | .red op _ _ sz => sz.atomic && op != .swap
  | .redRel op _ _ sz => sz.atomic && op != .swap
  | .qpush q _ => q.toNat < 8
  | .qpop _ q => q.toNat < 8 || q == 9 || q == 11 || q == 13 || q == 14
  | .qbni _ _ p => 2 ≤ p.toNat && p.toNat ≤ 16
  | .dqbni _ _ p => 1 ≤ p.toNat && p.toNat ≤ 16
  | .widf _ k => k.toNat ≤ 5
  | .partctl k _ _ => k.toNat ≤ 5
  | _ => true

end Sys2Proof
end

