-- ==== Sys2Proof/Decode.lean ====
section
/-! DEFINITION. The encodings of 07 R205 to R230: decoding of a 32-bit word, and the encoder written from the same maps. -/

namespace Sys2Proof

/-- Bits [lo + n - 1 : lo] of a word given as a number (00 R5). -/
def fld (w lo n : Nat) : Nat := w / 2 ^ lo % 2 ^ n

/-- The instruction when every condition on its fields holds (07 R207). -/
def whenOk (c : Bool) (i : Instr) : Option Instr := if c then some i else none

def AluOp.all : List AluOp :=
  [.add, .sub, .mul, .mulh, .div, .rem, .min, .max, .and, .or, .xor, .andn, .shl, .shr, .sra, .ror,
   .abs, .neg, .not, .clz, .popc, .mov, .absd, .avg, .mulhu, .divu, .remu, .minu, .maxu]
/-- 07 R220. -/
def AluOp.ofCode (x : Nat) : Option AluOp := AluOp.all[x]?
def AluOp.code (o : AluOp) : Nat := AluOp.all.idxOf o

def CmpOp.all : List CmpOp := [.eq, .ne, .lt, .le, .gt, .ge, .ltu, .leu, .gtu, .geu, .tst]
/-- 07 R221. -/
def CmpOp.ofCode (x : Nat) : Option CmpOp := CmpOp.all[x]?
def CmpOp.code (o : CmpOp) : Nat := CmpOp.all.idxOf o

/-- 07 R222: VRED codes 0 to 5 and 8 to 10. -/
def VredKind.ofCode (x : Nat) : Option VredKind :=
  match x with
  | 0 => some .add | 1 => some .min | 2 => some .max | 3 => some .and | 4 => some .or | 5 => some .xor
  | 8 => some .fadd | 9 => some .fmin | 10 => some .fmax | _ => none
def VredKind.code : VredKind → Nat
  | .add => 0 | .min => 1 | .max => 2 | .and => 3 | .or => 4 | .xor => 5 | .fadd => 8 | .fmin => 9 | .fmax => 10

/-- 07 R222: VSCAN codes 0 to 3 and 8. -/
def VscanKind.ofCode (x : Nat) : Option VscanKind :=
  match x with
  | 0 => some .add | 1 => some .addx | 2 => some .min | 3 => some .max | 8 => some .fadd | _ => none
def VscanKind.code : VscanKind → Nat
  | .add => 0 | .addx => 1 | .min => 2 | .max => 3 | .fadd => 8

def VoteKind.list : List VoteKind := [.ballot, .any, .all, .count]
def VoteKind.ofCode (x : Nat) : Option VoteKind := VoteKind.list[x]?
def VoteKind.code (o : VoteKind) : Nat := VoteKind.list.idxOf o

def PlogOp.all : List PlogOp := [.pand, .por, .pxor, .pandn, .pnot, .pmov]
def PlogOp.ofCode (x : Nat) : Option PlogOp := PlogOp.all[x]?
def PlogOp.code (o : PlogOp) : Nat := PlogOp.all.idxOf o

def FopOp.all : List FopOp :=
  [.fadd, .fsub, .fmul, .fdiv, .fmin, .fmax, .fsqrt, .fexp2, .flog2, .fneg, .fabs, .fcpys]
/-- 07 R223. -/
def FopOp.ofCode (x : Nat) : Option FopOp := FopOp.all[x]?
def FopOp.code (o : FopOp) : Nat := FopOp.all.idxOf o

def FmaOp.all : List FmaOp := [.fma, .fms, .fnma, .fnms]
def FmaOp.ofCode (x : Nat) : Option FmaOp := FmaOp.all[x]?
def FmaOp.code (o : FmaOp) : Nat := FmaOp.all.idxOf o

def FcmpOp.all : List FcmpOp := [.feq, .fne, .flt, .fle, .fgt, .fge]
def FcmpOp.ofCode (x : Nat) : Option FcmpOp := FcmpOp.all[x]?
def FcmpOp.code (o : FcmpOp) : Nat := FcmpOp.all.idxOf o

def CvtTy.all : List CvtTy :=
  [.i32, .n32, .i16, .n16, .i8, .n8, .f32, .f16, .bf16, .e4m3, .e5m2, .e2m1, .i64, .n64]
/-- 07 R224. -/
def CvtTy.ofCode (x : Nat) : Option CvtTy := CvtTy.all[x]?
def CvtTy.code (o : CvtTy) : Nat := CvtTy.all.idxOf o

def ModeField.all : List ModeField := [.guard, .etype, .rnd, .ftz, .sat, .oosz, .scope, .kresume]
/-- 07 R217. -/
def ModeField.ofCode (x : Nat) : Option ModeField := ModeField.all[x]?
def ModeField.code (o : ModeField) : Nat := ModeField.all.idxOf o

def Scope.all : List Scope := [.gang, .core, .crew, .die, .pkg, .sys]
/-- 05 R146. -/
def Scope.ofCode (x : Nat) : Option Scope := Scope.all[x]?
def Scope.code (o : Scope) : Nat := Scope.all.idxOf o

/-- 07 R218: 1 acq, 2 rel, 3 full. -/
def FenceKind.ofCode (x : Nat) : Option FenceKind :=
  match x with | 1 => some .acq | 2 => some .rel | 3 => some .full | _ => none
def FenceKind.code : FenceKind → Nat | .acq => 1 | .rel => 2 | .full => 3

def Size.all : List Size := [.b, .h, .w, .d, .q]
/-- 07 R210. -/
def Size.ofCode (x : Nat) : Option Size := Size.all[x]?
def Size.code (o : Size) : Nat := Size.all.idxOf o

def LoadQ.all : List LoadQ := [.plain, .fe, .fk, .sc]
def LoadQ.ofCode (x : Nat) : Option LoadQ := LoadQ.all[x]?
def LoadQ.code (o : LoadQ) : Nat := LoadQ.all.idxOf o

/-- 07 R210: stores take 0 and 3. -/
def StoreQ.ofCode (x : Nat) : Option StoreQ := match x with | 0 => some .plain | 3 => some .sc | _ => none
def StoreQ.code : StoreQ → Nat | .plain => 0 | .sc => 3

def AtomOp.all : List AtomOp := [.add, .min, .max, .and, .or, .xor, .swap]
/-- 07 R227. -/
def AtomOp.ofCode (x : Nat) : Option AtomOp := AtomOp.all[x]?
def AtomOp.code (o : AtomOp) : Nat := AtomOp.all.idxOf o

def AtomQ.all : List AtomQ := [.none, .acq, .rel, .ar, .sc]
def AtomQ.ofCode (x : Nat) : Option AtomQ := AtomQ.all[x]?
def AtomQ.code (o : AtomQ) : Nat := AtomQ.all.idxOf o

def CapField.all : List CapField := [.space, .perm, .id, .origin, .length, .tag]
/-- 09 R306. -/
def CapField.ofCode (x : Nat) : Option CapField := CapField.all[x]?
def CapField.code (o : CapField) : Nat := CapField.all.idxOf o

def Counter.all : List Counter := [.cycle, .retired, .tick]
def Counter.ofCode (x : Nat) : Option Counter := Counter.all[x]?
def Counter.code (o : Counter) : Nat := Counter.all.idxOf o

/-! Registers and immediates in the fields of the six forms (07 R206). A field whose number is outside its class fails. -/

def vr (x : Nat) : VReg := BitVec.ofNat 6 x
def sr (x : Nat) : SReg := BitVec.ofNat 5 x
def pr (x : Nat) : PReg := BitVec.ofNat 3 x
def cr (x : Nat) : CReg := BitVec.ofNat 4 x

/-- A-form fields d, a, b, x. -/
def fd (w : Nat) : Nat := fld w 18 6
def fa (w : Nat) : Nat := fld w 12 6
def fb (w : Nat) : Nat := fld w 6 6
def fx (w : Nat) : Nat := fld w 0 6
/-- B-form imm12. -/
def fimm (w : Nat) : Nat := fld w 0 12
/-- C-form fields. -/
def fcond (w : Nat) : Cond := ⟨fld w 23 1 == 1, BitVec.ofNat 3 (fld w 20 3)⟩
def fcond0 (w : Nat) : Bool := fld w 20 4 == 0
def foff (w : Nat) : BitVec 20 := BitVec.ofNat 20 (fld w 0 20)
/-- F-form fields. -/
def fsub (w : Nat) : Nat := fld w 16 8
def fFa (w : Nat) : Nat := fld w 8 8
def fFb (w : Nat) : Nat := fld w 0 8
/-- E-form fields. -/
def fq (w : Nat) : Nat := fld w 20 4
def fs (w : Nat) : Nat := fld w 14 6
def ft (w : Nat) : Nat := fld w 8 6
/-- D-form fields. -/
def fcap (w : Nat) : Nat := fld w 14 4
def fidx (w : Nat) : Nat := fld w 8 6
def fam (w : Nat) : Nat := fld w 6 2
def fsz (w : Nat) : Nat := fld w 3 3
def fDq (w : Nat) : Nat := fld w 0 3
def fvmem (w : Nat) : VMem := ⟨cr (fcap w), vr (fidx w), BitVec.ofNat 2 (fam w)⟩
def fsmem (w : Nat) : SMem := ⟨cr (fcap w), sr (fidx w), BitVec.ofNat 2 (fam w)⟩

/-- Control, 0x01 to 0x0F (07 R216, R217). -/
def decodeControl (op w : Nat) : Option Instr :=
  match op with
  | 0x01 => some (.br (fcond w) (foff w))
  | 0x02 => some (.brany (fcond w) (foff w))
  | 0x03 => some (.brall (fcond w) (foff w))
  | 0x04 => some (.brnone (fcond w) (foff w))
  | 0x05 => whenOk (fcond0 w) (.call (foff w))
  | 0x06 =>
    match fsub w with
    | 0 => whenOk (fFa w < 32 && fFb w == 0) (.jmp (sr (fFa w)))
    | 1 => whenOk (fFa w < 32 && fFb w == 0) (.callr (sr (fFa w)))
    | 2 => whenOk (fFa w == 0 && fFb w == 0) .ret
    | _ => none
  | 0x07 => some (.if_ (fcond w) (foff w))
  | 0x08 => whenOk (fcond0 w) (.else_ (foff w))
  | 0x09 => whenOk (fld w 0 24 == 0) .endif
  | 0x0A => whenOk (fcond0 w) (.loop (foff w))
  | 0x0B => some (.endloop (fcond w) (foff w))
  | 0x0C => some (.break_ (fcond w) (foff w))
  | 0x0D => some (.cont (fcond w) (foff w))
  | 0x0E =>
    match fsub w with
    | 0 => whenOk (fld w 0 16 == 0) .conv
    | 1 => whenOk (fld w 0 16 == 0) .exit
    | 2 => whenOk (fld w 0 16 == 0) .yield
    | 3 => whenOk (fld w 0 16 == 0) .nop
    | 4 => whenOk (fFa w < 32 && fFb w == 0) (.setmode (sr (fFa w)))
    | 5 => whenOk (fFa w < 32 && fFb w == 0) (.getmode (sr (fFa w)))
    | 6 => whenOk (fFa w < 32 && fFb w == 0) (.setfs (sr (fFa w)))
    | 7 => whenOk (fFa w < 32 && fFb w == 0) (.getfs (sr (fFa w)))
    | _ => none
  | 0x0F =>
    match ModeField.ofCode (fd w) with
    | some f => whenOk (fa w == 0) (.setmf f (BitVec.ofNat 12 (fimm w)))
    | none => none
  | _ => none

/-- Channels and synchronisation, 0x10 to 0x1D (07 R218). -/
def decodeChannel (op w : Nat) : Option Instr :=
  match op with
  | 0x10 => whenOk (fld w 0 24 == 0) .publish
  | 0x11 => whenOk (fld w 0 24 == 0) .unpublish
  | 0x12 => whenOk (fsub w == 0 && fFa w < 32 && fFb w < 32) (.subscribe (sr (fFa w)) (sr (fFb w)))
  | 0x13 => whenOk (fld w 0 20 == 0) (.unsub (fcond w))
  | 0x14 => whenOk (fsub w == 0 && fFa w < 32 && fFb w < 32) (.resub (sr (fFa w)) (sr (fFb w)))
  | 0x15 => whenOk (fld w 16 8 == 0) (.rendez (BitVec.ofNat 16 (fld w 0 16)))
  | 0x16 => whenOk (fsub w == 0 && fFa w < 32 && fFb w == 0) (.chstat (sr (fFa w)))
  | 0x18 =>
    match FenceKind.ofCode (fld w 16 2) with
    | none => none
    | some k =>
      if fld w 22 2 == 0 && fld w 0 16 == 0 then
        if fld w 21 1 == 1 then whenOk (fld w 18 3 == 0) (.fence k none)
        else
          match Scope.ofCode (fld w 18 3) with
          | some sc => some (.fence k (some sc))
          | none => none
      else none
  | 0x19 => whenOk (fsub w == 0 && fFa w < 16 && fFb w < 16) (.xfence (BitVec.ofNat 4 (fFa w)) (BitVec.ofNat 4 (fFb w)))
  | 0x1A => whenOk (fld w 0 24 == 0) .bararv
  | 0x1B =>
    match fsub w with
    | 0 => whenOk (fld w 0 16 == 0) .barwtI
    | 1 => whenOk (fld w 0 16 == 0) .barwtX
    | _ => none
  | 0x1C =>
    match fsub w with
    | 0 => whenOk (fFa w < 16 && fFb w == 0) (.feset (cr (fFa w)))
    | 1 => whenOk (fFa w < 16 && fFb w == 0) (.feclr (cr (fFa w)))
    | 2 => whenOk (fFa w < 16 && fFb w == 0) (.fewait (cr (fFa w)))
    | _ => none
  | 0x1D =>
    match fx w with
    | 0 => whenOk (fd w < 16 && fa w < 32 && fb w < 32) (.wmset (BitVec.ofNat 4 (fd w)) (sr (fa w)) (sr (fb w)))
    | 1 => whenOk (fd w < 16 && fa w < 32 && fb w == 0) (.wmwait (BitVec.ofNat 4 (fd w)) (sr (fa w)))
    | _ => none
  | _ => none

/-- Integer, 0x20 to 0x3B (07 R219 to R221). -/
def decodeInteger (op w : Nat) : Option Instr :=
  let imm := BitVec.ofNat 12 (fimm w)
  let shOk := fld w 8 4 == 0
  let sh := BitVec.ofNat 8 (fld w 0 8)
  match op with
  | 0x20 =>
    match AluOp.ofCode (fx w) with
    | some o => whenOk (!o.sopOnly && (!o.unary || fa w == 0)) (.vop o (vr (fd w)) (vr (fa w)) (vr (fb w)))
    | none => none
  | 0x21 =>
    match AluOp.ofCode (fx w) with
    | some o => whenOk (!o.sopOnly && (!o.unary || fa w == 0) && fb w < 32) (.vops o (vr (fd w)) (vr (fa w)) (sr (fb w)))
    | none => none
  | 0x22 => some (.addImmV (vr (fd w)) (vr (fa w)) imm)
  | 0x23 => some (.mulImmV (vr (fd w)) (vr (fa w)) imm)
  | 0x24 => some (.andImmV (vr (fd w)) (vr (fa w)) imm)
  | 0x25 => some (.orImmV (vr (fd w)) (vr (fa w)) imm)
  | 0x26 => some (.xorImmV (vr (fd w)) (vr (fa w)) imm)
  | 0x27 => whenOk shOk (.shlImmV (vr (fd w)) (vr (fa w)) sh)
  | 0x28 => whenOk shOk (.shrImmV (vr (fd w)) (vr (fa w)) sh)
  | 0x29 => whenOk shOk (.sraImmV (vr (fd w)) (vr (fa w)) sh)
  | 0x2A =>
    match CmpOp.ofCode (fx w) with
    | some o => whenOk (o.vectorLegal && fd w < 8) (.vcmp o (pr (fd w)) (vr (fa w)) (vr (fb w)))
    | none => none
  | 0x2B =>
    match CmpOp.ofCode (fx w) with
    | some o => whenOk (o.vectorLegal && fd w < 8 && fb w < 32) (.vcmps o (pr (fd w)) (vr (fa w)) (sr (fb w)))
    | none => none
  | 0x2C => whenOk (fx w < 8) (.sel (vr (fd w)) (vr (fa w)) (vr (fb w)) (pr (fx w)))
  | 0x2D =>
    match fx w with
    | 0 => some (.mad (vr (fd w)) (vr (fa w)) (vr (fb w)))
    | 1 => some (.dot2 (vr (fd w)) (vr (fa w)) (vr (fb w)))
    | 2 => some (.dot4 (vr (fd w)) (vr (fa w)) (vr (fb w)))
    | _ => none
  | 0x30 =>
    match AluOp.ofCode (fx w) with
    | some o => whenOk ((!o.unary || fa w == 0) && fd w < 32 && fa w < 32 && fb w < 32) (.sop o (sr (fd w)) (sr (fa w)) (sr (fb w)))
    | none => none
  | 0x31 => whenOk (fd w < 32 && fa w < 32) (.addImmS (sr (fd w)) (sr (fa w)) imm)
  | 0x32 => whenOk (fd w < 32 && fa w < 32) (.mulImmS (sr (fd w)) (sr (fa w)) imm)
  | 0x33 => whenOk (fd w < 32 && fa w < 32) (.andImmS (sr (fd w)) (sr (fa w)) imm)
  | 0x34 => whenOk (fd w < 32 && fa w < 32) (.orImmS (sr (fd w)) (sr (fa w)) imm)
  | 0x35 => whenOk (fd w < 32 && fa w < 32) (.xorImmS (sr (fd w)) (sr (fa w)) imm)
  | 0x36 => whenOk (fd w < 32 && fa w < 32 && shOk) (.shlImmS (sr (fd w)) (sr (fa w)) sh)
  | 0x37 => whenOk (fd w < 32 && fa w < 32 && shOk) (.shrImmS (sr (fd w)) (sr (fa w)) sh)
  | 0x38 => whenOk (fd w < 32 && fa w < 32 && shOk) (.sraImmS (sr (fd w)) (sr (fa w)) sh)
  | 0x39 => whenOk (fd w < 32 && fld w 16 2 == 0) (.lil (sr (fd w)) (BitVec.ofNat 16 (fld w 0 16)))
  | 0x3A => whenOk (fd w < 32) (.lih (sr (fd w)) (BitVec.ofNat 16 (fld w 0 16)) (BitVec.ofNat 2 (fld w 16 2)))
  | 0x3B =>
    match CmpOp.ofCode (fx w) with
    | some o => whenOk (fd w < 8 && fa w < 32 && fb w < 32) (.scmp o (pr (fd w)) (sr (fa w)) (sr (fb w)))
    | none => none
  | _ => none

/-- Lane operations and predicates, 0x40 to 0x4A (07 R222). -/
def decodeLanes (op w : Nat) : Option Instr :=
  match op with
  | 0x40 => whenOk (fx w == 0) (.shfl (vr (fd w)) (vr (fa w)) (vr (fb w)))
  | 0x41 =>
    match fx w with
    | 0 => whenOk (fb w < 32) (.shflUp (vr (fd w)) (vr (fa w)) (sr (fb w)))
    | 1 => whenOk (fb w < 32) (.shflDown (vr (fd w)) (vr (fa w)) (sr (fb w)))
    | 2 => whenOk (fb w < 32) (.shflXor (vr (fd w)) (vr (fa w)) (sr (fb w)))
    | 3 => whenOk (fb w < 32) (.shflBcast (vr (fd w)) (vr (fa w)) (sr (fb w)))
    | _ => none
  | 0x42 =>
    match VredKind.ofCode (fx w) with
    | some k => whenOk (fd w < 32 && fb w == 0) (.vred k (sr (fd w)) (vr (fa w)))
    | none => none
  | 0x43 =>
    match VscanKind.ofCode (fx w) with
    | some k => whenOk (fb w == 0) (.vscan k (vr (fd w)) (vr (fa w)))
    | none => none
  | 0x44 =>
    match VoteKind.ofCode (fx w) with
    | some k => whenOk (fd w < 32 && fa w < 8 && fb w == 0) (.vote k (sr (fd w)) (pr (fa w)))
    | none => none
  | 0x45 =>
    match PlogOp.ofCode (fx w) with
    | some o => whenOk ((!o.unary || fa w == 0) && fd w < 8 && fa w < 8 && fb w < 8) (.plog o (pr (fd w)) (pr (fa w)) (pr (fb w)))
    | none => none
  | 0x46 =>
    match fx w with
    | 0 => whenOk (fd w < 32 && fa w < 8 && fb w == 0) (.ptos (sr (fd w)) (pr (fa w)))
    | 1 => whenOk (fd w < 8 && fa w < 32 && fb w == 0) (.pfroms (pr (fd w)) (sr (fa w)))
    | _ => none
  | 0x47 =>
    match fx w with
    | 0 => whenOk (fd w == 0 && fa w < 32 && fb w == 0) (.setexm (sr (fa w)))
    | 1 => whenOk (fd w < 32 && fa w == 0 && fb w == 0) (.getexm (sr (fd w)))
    | 2 => whenOk (fd w < 32 && fa w == 0 && fb w == 0) (.getpkm (sr (fd w)))
    | 3 => whenOk (fd w == 0 && fa w < 8 && fb w == 0) (.andexm (pr (fa w)))
    | _ => none
  | 0x48 => whenOk (fd w < 32 && fb w < 32 && fx w == 0) (.vtos (sr (fd w)) (vr (fa w)) (sr (fb w)))
  | 0x49 => whenOk (fa w < 32 && fb w < 32 && fx w == 0) (.stov (vr (fd w)) (sr (fa w)) (sr (fb w)))
  | 0x4A => whenOk (fld w 0 18 == 0) (.laneid (vr (fd w)))
  | _ => none

/-- Floating point and conversion, 0x50 to 0x5A (07 R223, R224). -/
def decodeFloat (op w : Nat) : Option Instr :=
  match op with
  | 0x50 =>
    match FopOp.ofCode (fx w) with
    | some o => whenOk (!o.unary || fa w == 0) (.fop o (vr (fd w)) (vr (fa w)) (vr (fb w)))
    | none => none
  | 0x51 =>
    match FopOp.ofCode (fx w) with
    | some o => whenOk ((!o.unary || fa w == 0) && fb w < 32) (.fops o (vr (fd w)) (vr (fa w)) (sr (fb w)))
    | none => none
  | 0x52 =>
    match FopOp.ofCode (fx w) with
    | some o => whenOk ((!o.unary || fa w == 0) && fd w < 32 && fa w < 32 && fb w < 32) (.sfop o (sr (fd w)) (sr (fa w)) (sr (fb w)))
    | none => none
  | 0x53 =>
    match FmaOp.ofCode (fx w) with
    | some o => some (.fma o (vr (fd w)) (vr (fa w)) (vr (fb w)))
    | none => none
  | 0x54 =>
    match FmaOp.ofCode (fx w) with
    | some o => whenOk (fb w < 32) (.fmaVs o (vr (fd w)) (vr (fa w)) (sr (fb w)))
    | none => none
  | 0x55 =>
    match FmaOp.ofCode (fx w) with
    | some o => whenOk (fd w < 32 && fa w < 32 && fb w < 32) (.fmaS o (sr (fd w)) (sr (fa w)) (sr (fb w)))
    | none => none
  | 0x56 =>
    match FcmpOp.ofCode (fx w) with
    | some o => whenOk (fd w < 8) (.fcmp o (pr (fd w)) (vr (fa w)) (vr (fb w)))
    | none => none
  | 0x57 =>
    match FcmpOp.ofCode (fx w) with
    | some o => whenOk (fd w < 8 && fb w < 32) (.fcmpS o (pr (fd w)) (vr (fa w)) (sr (fb w)))
    | none => none
  | 0x58 => whenOk (fa w == 0 && fx w == 0) (.fclass (vr (fd w)) (vr (fb w)))
  | 0x59 =>
    match CvtTy.ofCode (fld w 20 4), CvtTy.ofCode (fld w 16 4) with
    | some t, some s => whenOk (t != s && !t.wide && !s.wide && fFa w < 64 && fFb w < 64) (.fcvt t s (vr (fFa w)) (vr (fFb w)))
    | _, _ => none
  | 0x5A =>
    match CvtTy.ofCode (fld w 20 4), CvtTy.ofCode (fld w 16 4) with
    | some t, some s => whenOk (t != s && fFa w < 32 && fFb w < 32) (.fcvtS t s (sr (fFa w)) (sr (fFb w)))
    | _, _ => none
  | _ => none

/-- Memory, 0x70 to 0x7A (07 R225). -/
def decodeMemory (op w : Nat) : Option Instr :=
  match op with
  | 0x70 =>
    match Size.ofCode (fsz w), LoadQ.ofCode (fDq w) with
    | some z, some q => whenOk (!(z == .q && q == .sc)) (.ld (vr (fd w)) (fvmem w) z q)
    | _, _ => none
  | 0x71 =>
    match Size.ofCode (fsz w), LoadQ.ofCode (fDq w) with
    | some z, some q => whenOk (z == .b || z == .h) (.lds (vr (fd w)) (fvmem w) z q)
    | _, _ => none
  | 0x72 =>
    match Size.ofCode (fsz w), StoreQ.ofCode (fDq w) with
    | some z, some q => whenOk (!(z == .q && q == .sc)) (.st (vr (fd w)) (fvmem w) z q)
    | _, _ => none
  | 0x73 =>
    match Size.ofCode (fsz w), LoadQ.ofCode (fDq w) with
    | some z, some q => whenOk (z != .q && fd w < 32 && fidx w < 32) (.sld (sr (fd w)) (fsmem w) z q)
    | _, _ => none
  | 0x74 =>
    match Size.ofCode (fsz w), LoadQ.ofCode (fDq w) with
    | some z, some q => whenOk ((z == .b || z == .h || z == .w) && fd w < 32 && fidx w < 32) (.slds (sr (fd w)) (fsmem w) z q)
    | _, _ => none
  | 0x75 =>
    match Size.ofCode (fsz w), StoreQ.ofCode (fDq w) with
    | some z, some q => whenOk (z != .q && fd w < 32 && fidx w < 32) (.sst (sr (fd w)) (fsmem w) z q)
    | _, _ => none
  | 0x76 => whenOk (fd w < 16 && fidx w < 32 && fld w 0 6 == 0x20) (.ldc (cr (fd w)) (fsmem w))
  | 0x77 => whenOk (fd w < 16 && fidx w < 32 && fld w 0 6 == 0x20) (.stc (cr (fd w)) (fsmem w))
  | 0x78 =>
    whenOk (fld w 10 4 == 0 && fld w 6 2 == 0)
      (.ldb (cr (fq w)) (vr (fs w)) (BitVec.ofNat 2 (fld w 8 2)) (BitVec.ofNat 5 (fld w 0 5)) (fld w 5 1 == 1))
  | 0x79 =>
    whenOk (fld w 10 4 == 0 && fld w 6 2 == 0)
      (.stb (cr (fq w)) (vr (fs w)) (BitVec.ofNat 2 (fld w 8 2)) (BitVec.ofNat 5 (fld w 0 5)) (fld w 5 1 == 1))
  | 0x7A =>
    let k := BitVec.ofNat 2 (fFa w)
    let okc := decide (fFa w < 4) && decide (fFb w < 32)
    match fsub w with
    | 0 => whenOk okc (.baset k (sr (fFb w)))
    | 1 => whenOk okc (.baget k (sr (fFb w)))
    | 2 => whenOk okc (.baadd k (sr (fFb w)))
    | _ => none
  | _ => none

/-- Capabilities and objects, 0x90 to 0x98 (07 R226). -/
def decodeCaps (op w : Nat) : Option Instr :=
  let ccs := decide (fd w < 16) && decide (fa w < 16) && decide (fb w < 32) && fx w == 0
  match op with
  | 0x90 => whenOk ccs (.cinc (cr (fd w)) (cr (fa w)) (sr (fb w)))
  | 0x91 => whenOk ccs (.csetb (cr (fd w)) (cr (fa w)) (sr (fb w)))
  | 0x92 => whenOk ccs (.cperm (cr (fd w)) (cr (fa w)) (sr (fb w)))
  | 0x93 =>
    match CapField.ofCode (fx w) with
    | some f => whenOk (fd w < 32 && fa w < 16 && fb w == 0) (.cget f (sr (fd w)) (cr (fa w)))
    | none => none
  | 0x94 => whenOk (fd w < 16 && fa w < 16 && fld w 0 12 == 0) (.cmov (cr (fd w)) (cr (fa w)))
  | 0x95 => whenOk ccs (.objview (cr (fd w)) (cr (fa w)) (sr (fb w)))
  | 0x96 => whenOk (fd w < 32 && fa w < 16 && fb w == 0 && fx w < 8) (.objinfo (sr (fd w)) (cr (fa w)) (pr (fx w)))
  | 0x97 => whenOk (fd w < 32 && fa w < 16 && fb w < 32 && fx w == 0) (.objres (sr (fd w)) (cr (fa w)) (sr (fb w)))
  | 0x98 => whenOk (fa w < 16 && fb w < 32 && fx w == 0) (.objsum (vr (fd w)) (cr (fa w)) (sr (fb w)))
  | _ => none

/-- ATOM forms share their fields (07 R227). -/
def decodeAtom (w : Nat) (mk : AtomOp → Size → Instr) : Option Instr :=
  match AtomOp.ofCode (fDq w), Size.ofCode (fsz w) with
  | some o, some z => whenOk z.atomic (mk o z)
  | _, _ => none

/-- RED forms: as ATOM without swap (07 R227). -/
def decodeRed (w : Nat) (mk : AtomOp → Size → Instr) : Option Instr :=
  match AtomOp.ofCode (fDq w), Size.ofCode (fsz w) with
  | some o, some z => whenOk (z.atomic && o != .swap) (mk o z)
  | _, _ => none

/-- Atomics and transactions, 0xA0 to 0xAC (07 R227). -/
def decodeAtomics (op w : Nat) : Option Instr :=
  match op with
  | 0xA0 => decodeAtom w fun o z => .atom o (vr (fd w)) (fvmem w) z
  | 0xA1 => decodeAtom w fun o z => .atomAcq o (vr (fd w)) (fvmem w) z
  | 0xA2 => decodeAtom w fun o z => .atomRel o (vr (fd w)) (fvmem w) z
  | 0xA3 => decodeAtom w fun o z => .atomAr o (vr (fd w)) (fvmem w) z
  | 0xA4 => decodeAtom w fun o z => .atomSc o (vr (fd w)) (fvmem w) z
  | 0xA5 =>
    match AtomQ.ofCode (fDq w), Size.ofCode (fsz w) with
    | some q, some z => whenOk z.atomic (.atomc q (vr (fd w)) (fvmem w) z)
    | _, _ => none
  | 0xA6 => decodeRed w fun o z => .red o (vr (fd w)) (fvmem w) z
  | 0xA7 => decodeRed w fun o z => .redRel o (vr (fd w)) (fvmem w) z
  | 0xA8 => whenOk (fld w 6 2 == 0) (.atomr (cr (fq w)) (vr (fs w)) (vr (ft w)) (BitVec.ofNat 6 (fld w 0 6)))
  | 0xA9 => whenOk (fld w 0 24 == 0) .txbegin
  | 0xAA => whenOk (fcond0 w) (.txend (foff w))
  | 0xAB => whenOk (fld w 8 16 == 0) (.txabort (BitVec.ofNat 8 (fld w 0 8)))
  | 0xAC => whenOk (fld w 0 18 == 0) (.txstat (vr (fd w)))
  | _ => none

/-- Engines, queues, rings and records, 0xB0 to 0xBF (07 R228). -/
def decodeEngines (op w : Nat) : Option Instr :=
  let cOk := fq w == 8 && fld w 12 2 == 0 && fld w 0 2 == 0
  let sk := fld w 2 1 == 1
  let dst := cr (fld w 8 4)
  let src := cr (fld w 4 4)
  let cm := fld w 3 1 == 1
  match op with
  | 0xB0 => whenOk (cOk && !sk) (.cpy (vr (fs w)) dst src cm)
  | 0xB1 => whenOk cOk (.cpym (vr (fs w)) dst src cm sk)
  | 0xB2 => whenOk (cOk && !sk) (.cpyo (vr (fs w)) dst src cm)
  | 0xB3 => whenOk (cOk && !sk) (.gathe (vr (fs w)) dst src cm)
  | 0xB4 => whenOk (cOk && !sk) (.scate (vr (fs w)) dst src cm)
  | 0xB5 => whenOk (fq w == 8 && fs w < 32 && fld w 0 14 == 0) (.cpycan (sr (fs w)))
  | 0xB6 => whenOk (fq w == 12 && ft w < 32 && fld w 0 8 == 0) (.selk (vr (fs w)) (sr (ft w)))
  | 0xB7 => whenOk (fq w == 13 && fld w 0 14 == 0) (.selres (vr (fs w)))
  | 0xB8 =>
    match fx w with
    | 0 => whenOk (fd w < 8 && fb w == 0) (.qpush (BitVec.ofNat 4 (fd w)) (vr (fa w)))
    | 1 =>
      whenOk ((decide (fa w < 8) || fa w == 9 || fa w == 11 || fa w == 13 || fa w == 14) && fb w == 0)
        (.qpop (vr (fd w)) (BitVec.ofNat 4 (fa w)))
    | 2 => whenOk (fd w < 32 && fa w < 16 && fb w == 0) (.qstat (sr (fd w)) (BitVec.ofNat 4 (fa w)))
    | _ => none
  | 0xB9 => whenOk (fq w == 0 && ft w < 32 && fld w 0 8 == 0) (.send (vr (fs w)) (sr (ft w)))
  | 0xBA => whenOk (fld w 0 24 == 0) .waitmsg
  | 0xBB => whenOk (fs w < 32 && ft w < 32 && fld w 0 8 == 0) (.ringmk (cr (fq w)) (sr (fs w)) (sr (ft w)))
  | 0xBC => whenOk (fsub w == 0 && fFa w < 32 && fFb w == 0) (.ringdes (sr (fFa w)))
  | 0xBD => whenOk (fq w == 15 && ft w < 32 && fld w 0 8 == 0) (.rpush (vr (fs w)) (sr (ft w)))
  | 0xBE => whenOk (fq w == 15 && ft w < 32 && fld w 0 8 == 0) (.rpop (vr (fs w)) (sr (ft w)))
  | 0xBF => whenOk (fq w == 0 && fld w 0 14 == 0) (.spawn (vr (fs w)))
  | _ => none

/-- Matrix, planes and sparsity, 0xC0 to 0xCC (07 R229). -/
def decodeMatrix (op w : Nat) : Option Instr :=
  let tile := BitVec.ofNat 3 (fld w 21 3)
  let n1 := BitVec.ofNat 5 (fld w 16 5)
  match op with
  | 0xC0 => whenOk (fld w 14 2 == 0) (.mma tile n1 (vr (fld w 8 6)) (cr (fld w 4 4)) (cr (fld w 0 4)))
  | 0xC1 => whenOk (fld w 14 2 == 0) (.mmaS tile n1 (vr (fld w 8 6)) (cr (fld w 4 4)) (cr (fld w 0 4)))
  | 0xC2 => whenOk (fld w 0 21 == 0) (.mzero tile)
  | 0xC3 => whenOk (n1 == 0 && fFa w < 16 && fFb w < 32) (.mload tile (cr (fFa w)) (sr (fFb w)))
  | 0xC4 =>
    if fld w 20 1 == 1 then whenOk (fld w 16 4 == 0 && fFa w == 0 && fFb w < 32) (.mdrainQ tile (sr (fFb w)))
    else whenOk (fld w 16 4 == 0 && fFa w < 16 && fFb w < 32) (.mdrain tile (cr (fFa w)) (sr (fFb w)))
  | 0xC5 => whenOk (n1 == 0 && fFa w < 32 && fFb w == 0) (.mstat tile (sr (fFa w)))
  | 0xC6 => whenOk (fld w 0 21 == 0) (.mwait tile)
  | 0xC7 => whenOk (fsub w == 0 && fFb w < 32) (.prune (cr (fld w 12 4)) (cr (fld w 8 4)) (sr (fFb w)))
  | 0xC8 =>
    match fsub w with
    | 0 => whenOk (fFa w < 32 && fFb w < 16) (.sphdr (sr (fFa w)) (cr (fFb w)))
    | 1 => whenOk (fFa w < 32 && fFb w < 16) (.sphdrChk (sr (fFa w)) (cr (fFb w)))
    | _ => none
  | 0xC9 => whenOk (fsub w == 0 && fFb w < 32) (.plane (cr (fld w 12 4)) (cr (fld w 8 4)) (sr (fFb w)))
  | 0xCA => whenOk (fsub w == 0 && fFb w < 32) (.unplane (cr (fld w 12 4)) (cr (fld w 8 4)) (sr (fFb w)))
  | 0xCB => whenOk (fb w == 0 && 2 ≤ fx w && fx w ≤ 16) (.qbni (vr (fd w)) (vr (fa w)) (BitVec.ofNat 6 (fx w)))
  | 0xCC => whenOk (fb w == 0 && 1 ≤ fx w && fx w ≤ 16) (.dqbni (vr (fd w)) (vr (fa w)) (BitVec.ofNat 6 (fx w)))
  | _ => none

/-- Launch, registers, identity and counters, 0xD0 to 0xD9 (07 R230). -/
def decodeLaunch (op w : Nat) : Option Instr :=
  let imm := BitVec.ofNat 12 (fimm w)
  match op with
  | 0xD0 => whenOk (fsub w == 0 && fFa w < 32 && fFb w == 0) (.launch (sr (fFa w)))
  | 0xD1 => whenOk (fsub w == 0 && fFa w < 32 && fFb w < 32) (.bincfg (sr (fFa w)) (sr (fFb w)))
  | 0xD2 => whenOk (fld w 12 12 == 0) (.grow imm)
  | 0xD3 => whenOk (fld w 12 12 == 0) (.shrink imm)
  | 0xD4 => whenOk (fld w 0 18 == 0) (.wid (vr (fd w)))
  | 0xD5 => whenOk (fld w 6 12 == 0 && fx w ≤ 5) (.widf (vr (fd w)) (BitVec.ofNat 3 (fx w)))
  | 0xD6 =>
    match Counter.ofCode (fx w) with
    | some k => whenOk (fd w < 32 && fld w 6 12 == 0) (.rdcnt k (sr (fd w)))
    | none => none
  | 0xD7 => whenOk (fld w 0 24 == 0) .beat
  | 0xD8 => whenOk (fld w 12 12 == 0) (.trap imm)
  | 0xD9 => whenOk (fld w 12 12 == 0) (.brk imm)
  | _ => none

/-- The privileged block, 0xE0 to 0xEC (10 R374). -/
def decodePriv (op w : Nat) : Option Instr :=
  let a := sr (fFa w)
  let b := sr (fFb w)
  let sOnly := decide (fFa w < 32) && fFb w == 0
  let sBoth := decide (fFa w < 32) && decide (fFb w < 32)
  match op with
  | 0xE0 =>
    match fsub w with
    | 0 => whenOk sBoth (.supsetCore a b)
    | 1 => whenOk sBoth (.supsetPriv a b)
    | 2 => whenOk sBoth (.supsetGet a b)
    | _ => none
  | 0xE1 => whenOk (fsub w == 0 && sOnly) (.freeze a)
  | 0xE2 => whenOk (fsub w == 0 && sBoth) (.resume a b)
  | 0xE3 =>
    match fsub w with
    | 0 => whenOk sBoth (.cpyres a b)
    | 1 => whenOk sBoth (.cpyresCan a b)
    | _ => none
  | 0xE4 =>
    match fld w 16 4 with
    | 0 => whenOk (fld w 20 4 == 0 && sOnly) (.ctxsave a)
    | 1 => whenOk sOnly (.ctxsaveSpill a (cr (fld w 20 4)))
    | 2 => whenOk (fld w 20 4 == 0 && sOnly) (.ctxswap a)
    | _ => none
  | 0xE5 =>
    match fld w 16 4 with
    | 0 => whenOk (fld w 20 4 == 0 && sOnly) (.ctxload a)
    | 1 => whenOk sOnly (.ctxloadFill a (cr (fld w 20 4)))
    | _ => none
  | 0xE6 =>
    match fsub w with
    | 0 => whenOk sBoth (.migrate a b)
    | 1 => whenOk sOnly (.migrateRetire a)
    | _ => none
  | 0xE7 =>
    match fsub w with
    | 0 => whenOk (fld w 0 16 == 0) .stopPart
    | 1 => whenOk sOnly (.stopCore a)
    | 2 => whenOk (fld w 0 16 == 0) .startPart
    | 3 => whenOk sOnly (.startCore a)
    | _ => none
  | 0xE8 => whenOk (fsub w == 0 && sOnly) (.objinv a)
  | 0xE9 =>
    match fsub w with
    | 0 => whenOk sBoth (.rtnld a b)
    | 1 => whenOk sOnly (.rtnclr a)
    | _ => none
  | 0xEA =>
    match fsub w with
    | 0 => whenOk sBoth (.ortsetBase a b)
    | 1 => whenOk sBoth (.ortsetRec a b)
    | _ => none
  | 0xEB =>
    match fsub w with
    | 0 => whenOk sBoth (.chanctlSet a b)
    | 1 => whenOk sOnly (.chanctlClr a)
    | _ => none
  | 0xEC => whenOk (fsub w ≤ 5 && sBoth) (.partctl (BitVec.ofNat 3 (fsub w)) a b)
  | _ => none

/-- The instruction of a word, or none for a word that 07 R211 step 1 or 3 refuses. -/
def decodeNat (w : Nat) : Option Instr :=
  let op := fld w 24 8
  if op < 0x10 then decodeControl op w
  else if op < 0x20 then decodeChannel op w
  else if op < 0x40 then decodeInteger op w
  else if op < 0x50 then decodeLanes op w
  else if op < 0x70 then decodeFloat op w
  else if op < 0x90 then decodeMemory op w
  else if op < 0xA0 then decodeCaps op w
  else if op < 0xB0 then decodeAtomics op w
  else if op < 0xC0 then decodeEngines op w
  else if op < 0xD0 then decodeMatrix op w
  else if op < 0xE0 then decodeLaunch op w
  else if op < 0xF0 then decodePriv op w
  else none

/-- Decoding of a word (07 R211, steps 1 and 3). -/
def decode (w : Word) : Option Instr := decodeNat w.toNat

/-- Whether the opcode of a word is assigned and of a privileged block (07 R211 steps 1 and 2, R213). -/
def opcodePrivileged (w : Word) : Bool := 0xE0 ≤ fld w.toNat 24 8 && fld w.toNat 24 8 ≤ 0xEC

/-- The level-S opcodes of R213: FREEZE, RESUME, CPYRES, OBJINV. -/
def opcodeLevelS (w : Word) : Bool :=
  let op := fld w.toNat 24 8
  op == 0xE1 || op == 0xE2 || op == 0xE3 || op == 0xE8

/-- An instruction stored at byte addresses: its word, little-endian (07 R205), decoded. -/
def decodeBytes (bs : List Byte) : Option Instr :=
  match bs with
  | b0 :: b1 :: b2 :: b3 :: _ => decodeNat (ofBytes [b0, b1, b2, b3])
  | _ => none

/-- What the decoder reads from an opcode-table word: one 32-bit word, bit 0 the least significant, laid out
little-endian and given to decodeBytes. -/
def decodeTableWord (nbits w : Nat) : Option Instr :=
  if nbits ≤ 32 then decodeBytes (toBytes 4 w) else none

/-! The encoder. Each form as a sum of its fields (07 R206). -/

def wordA (op d a b x : Nat) : Nat := op * 2 ^ 24 + d * 2 ^ 18 + a * 2 ^ 12 + b * 2 ^ 6 + x
def wordB (op d a imm : Nat) : Nat := op * 2 ^ 24 + d * 2 ^ 18 + a * 2 ^ 12 + imm
def wordC (op : Nat) (c : Cond) (off : BitVec 20) : Nat :=
  op * 2 ^ 24 + c.neg.toNat * 2 ^ 23 + c.pred.toNat * 2 ^ 20 + off.toNat
def wordD (op d cap idx am sz q : Nat) : Nat :=
  op * 2 ^ 24 + d * 2 ^ 18 + cap * 2 ^ 14 + idx * 2 ^ 8 + am * 2 ^ 6 + sz * 2 ^ 3 + q
def wordE (op q s t f : Nat) : Nat := op * 2 ^ 24 + q * 2 ^ 20 + s * 2 ^ 14 + t * 2 ^ 8 + f
def wordF (op sub a b : Nat) : Nat := op * 2 ^ 24 + sub * 2 ^ 16 + a * 2 ^ 8 + b

def wordVM (op d : Nat) (m : VMem) (sz : Size) (q : Nat) : Nat :=
  wordD op d m.cap.toNat m.idx.toNat m.am.toNat sz.code q
def wordSM (op d : Nat) (m : SMem) (sz q : Nat) : Nat :=
  wordD op d m.cap.toNat m.idx.toNat m.am.toNat sz q
def wordCpy (op : Nat) (s : VReg) (dst src : CReg) (cm sk : Bool) : Nat :=
  wordE op 8 s.toNat dst.toNat (src.toNat * 16 + cm.toNat * 8 + sk.toNat * 4)
def wordBits (op : Nat) (cap : CReg) (d : VReg) (ba : BaReg) (w1 : BitVec 5) (inc : Bool) : Nat :=
  wordE op cap.toNat d.toNat ba.toNat (inc.toNat * 32 + w1.toNat)
def wordTile (op : Nat) (t : TileNo) (n a b : Nat) : Nat := wordF op (t.toNat * 32 + n) a b

/-- The number of an instruction's word; an event has none, and gives 0, which is no instruction (07 R211). -/
def encodeNat : Instr → Nat
  | .br c o => wordC 0x01 c o
  | .brany c o => wordC 0x02 c o
  | .brall c o => wordC 0x03 c o
  | .brnone c o => wordC 0x04 c o
  | .call o => wordC 0x05 ⟨false, 0⟩ o
  | .jmp a => wordF 0x06 0 a.toNat 0
  | .callr a => wordF 0x06 1 a.toNat 0
  | .ret => wordF 0x06 2 0 0
  | .if_ c o => wordC 0x07 c o
  | .else_ o => wordC 0x08 ⟨false, 0⟩ o
  | .endif => wordF 0x09 0 0 0
  | .loop o => wordC 0x0A ⟨false, 0⟩ o
  | .endloop c o => wordC 0x0B c o
  | .break_ c o => wordC 0x0C c o
  | .cont c o => wordC 0x0D c o
  | .conv => wordF 0x0E 0 0 0
  | .exit => wordF 0x0E 1 0 0
  | .yield => wordF 0x0E 2 0 0
  | .nop => wordF 0x0E 3 0 0
  | .setmode a => wordF 0x0E 4 a.toNat 0
  | .getmode a => wordF 0x0E 5 a.toNat 0
  | .setfs a => wordF 0x0E 6 a.toNat 0
  | .getfs a => wordF 0x0E 7 a.toNat 0
  | .setmf f i => wordB 0x0F f.code 0 i.toNat
  | .publish => wordF 0x10 0 0 0
  | .unpublish => wordF 0x11 0 0 0
  | .subscribe a b => wordF 0x12 0 a.toNat b.toNat
  | .unsub c => wordC 0x13 c 0
  | .resub a b => wordF 0x14 0 a.toNat b.toNat
  | .rendez t => wordB 0x15 0 0 t.toNat
  | .chstat a => wordF 0x16 0 a.toNat 0
  | .fence k (some sc) => wordF 0x18 (k.code + 4 * sc.code) 0 0
  | .fence k none => wordF 0x18 (k.code + 32) 0 0
  | .xfence f t => wordF 0x19 0 f.toNat t.toNat
  | .bararv => wordF 0x1A 0 0 0
  | .barwtI => wordF 0x1B 0 0 0
  | .barwtX => wordF 0x1B 1 0 0
  | .feset a => wordF 0x1C 0 a.toNat 0
  | .feclr a => wordF 0x1C 1 a.toNat 0
  | .fewait a => wordF 0x1C 2 a.toNat 0
  | .wmset c a b => wordA 0x1D c.toNat a.toNat b.toNat 0
  | .wmwait c a => wordA 0x1D c.toNat a.toNat 0 1
  | .vop o d a b => wordA 0x20 d.toNat a.toNat b.toNat o.code
  | .vops o d a b => wordA 0x21 d.toNat a.toNat b.toNat o.code
  | .addImmV d a i => wordB 0x22 d.toNat a.toNat i.toNat
  | .mulImmV d a i => wordB 0x23 d.toNat a.toNat i.toNat
  | .andImmV d a i => wordB 0x24 d.toNat a.toNat i.toNat
  | .orImmV d a i => wordB 0x25 d.toNat a.toNat i.toNat
  | .xorImmV d a i => wordB 0x26 d.toNat a.toNat i.toNat
  | .shlImmV d a i => wordB 0x27 d.toNat a.toNat i.toNat
  | .shrImmV d a i => wordB 0x28 d.toNat a.toNat i.toNat
  | .sraImmV d a i => wordB 0x29 d.toNat a.toNat i.toNat
  | .vcmp o d a b => wordA 0x2A d.toNat a.toNat b.toNat o.code
  | .vcmps o d a b => wordA 0x2B d.toNat a.toNat b.toNat o.code
  | .sel d a b p => wordA 0x2C d.toNat a.toNat b.toNat p.toNat
  | .mad d a b => wordA 0x2D d.toNat a.toNat b.toNat 0
  | .dot2 d a b => wordA 0x2D d.toNat a.toNat b.toNat 1
  | .dot4 d a b => wordA 0x2D d.toNat a.toNat b.toNat 2
  | .sop o d a b => wordA 0x30 d.toNat a.toNat b.toNat o.code
  | .addImmS d a i => wordB 0x31 d.toNat a.toNat i.toNat
  | .mulImmS d a i => wordB 0x32 d.toNat a.toNat i.toNat
  | .andImmS d a i => wordB 0x33 d.toNat a.toNat i.toNat
  | .orImmS d a i => wordB 0x34 d.toNat a.toNat i.toNat
  | .xorImmS d a i => wordB 0x35 d.toNat a.toNat i.toNat
  | .shlImmS d a i => wordB 0x36 d.toNat a.toNat i.toNat
  | .shrImmS d a i => wordB 0x37 d.toNat a.toNat i.toNat
  | .sraImmS d a i => wordB 0x38 d.toNat a.toNat i.toNat
  | .lil d i => wordB 0x39 d.toNat 0 i.toNat
  | .lih d i k => wordB 0x3A d.toNat (k.toNat * 16) i.toNat
  | .scmp o d a b => wordA 0x3B d.toNat a.toNat b.toNat o.code
  | .shfl d a b => wordA 0x40 d.toNat a.toNat b.toNat 0
  | .shflUp d a b => wordA 0x41 d.toNat a.toNat b.toNat 0
  | .shflDown d a b => wordA 0x41 d.toNat a.toNat b.toNat 1
  | .shflXor d a b => wordA 0x41 d.toNat a.toNat b.toNat 2
  | .shflBcast d a b => wordA 0x41 d.toNat a.toNat b.toNat 3
  | .vred k d a => wordA 0x42 d.toNat a.toNat 0 k.code
  | .vscan k d a => wordA 0x43 d.toNat a.toNat 0 k.code
  | .vote k d a => wordA 0x44 d.toNat a.toNat 0 k.code
  | .plog o d a b => wordA 0x45 d.toNat a.toNat b.toNat o.code
  | .ptos d a => wordA 0x46 d.toNat a.toNat 0 0
  | .pfroms d a => wordA 0x46 d.toNat a.toNat 0 1
  | .setexm a => wordA 0x47 0 a.toNat 0 0
  | .getexm d => wordA 0x47 d.toNat 0 0 1
  | .getpkm d => wordA 0x47 d.toNat 0 0 2
  | .andexm a => wordA 0x47 0 a.toNat 0 3
  | .vtos d a b => wordA 0x48 d.toNat a.toNat b.toNat 0
  | .stov d a b => wordA 0x49 d.toNat a.toNat b.toNat 0
  | .laneid d => wordA 0x4A d.toNat 0 0 0
  | .fop o d a b => wordA 0x50 d.toNat a.toNat b.toNat o.code
  | .fops o d a b => wordA 0x51 d.toNat a.toNat b.toNat o.code
  | .sfop o d a b => wordA 0x52 d.toNat a.toNat b.toNat o.code
  | .fma o d a b => wordA 0x53 d.toNat a.toNat b.toNat o.code
  | .fmaVs o d a b => wordA 0x54 d.toNat a.toNat b.toNat o.code
  | .fmaS o d a b => wordA 0x55 d.toNat a.toNat b.toNat o.code
  | .fcmp o d a b => wordA 0x56 d.toNat a.toNat b.toNat o.code
  | .fcmpS o d a b => wordA 0x57 d.toNat a.toNat b.toNat o.code
  | .fclass d b => wordA 0x58 d.toNat 0 b.toNat 0
  | .fcvt t s d a => wordF 0x59 (t.code * 16 + s.code) d.toNat a.toNat
  | .fcvtS t s d a => wordF 0x5A (t.code * 16 + s.code) d.toNat a.toNat
  | .ld d m z q => wordVM 0x70 d.toNat m z q.code
  | .lds d m z q => wordVM 0x71 d.toNat m z q.code
  | .st d m z q => wordVM 0x72 d.toNat m z q.code
  | .sld d m z q => wordSM 0x73 d.toNat m z.code q.code
  | .slds d m z q => wordSM 0x74 d.toNat m z.code q.code
  | .sst d m z q => wordSM 0x75 d.toNat m z.code q.code
  | .ldc d m => wordSM 0x76 d.toNat m 4 0
  | .stc d m => wordSM 0x77 d.toNat m 4 0
  | .ldb c d k w i => wordBits 0x78 c d k w i
  | .stb c d k w i => wordBits 0x79 c d k w i
  | .baset k b => wordF 0x7A 0 k.toNat b.toNat
  | .baget k b => wordF 0x7A 1 k.toNat b.toNat
  | .baadd k b => wordF 0x7A 2 k.toNat b.toNat
  | .cinc d a b => wordA 0x90 d.toNat a.toNat b.toNat 0
  | .csetb d a b => wordA 0x91 d.toNat a.toNat b.toNat 0
  | .cperm d a b => wordA 0x92 d.toNat a.toNat b.toNat 0
  | .cget f d a => wordA 0x93 d.toNat a.toNat 0 f.code
  | .cmov d a => wordA 0x94 d.toNat a.toNat 0 0
  | .objview d a b => wordA 0x95 d.toNat a.toNat b.toNat 0
  | .objinfo d a k => wordA 0x96 d.toNat a.toNat 0 k.toNat
  | .objres d a b => wordA 0x97 d.toNat a.toNat b.toNat 0
  | .objsum d a b => wordA 0x98 d.toNat a.toNat b.toNat 0
  | .atom o d m z => wordVM 0xA0 d.toNat m z o.code
  | .atomAcq o d m z => wordVM 0xA1 d.toNat m z o.code
  | .atomRel o d m z => wordVM 0xA2 d.toNat m z o.code
  | .atomAr o d m z => wordVM 0xA3 d.toNat m z o.code
  | .atomSc o d m z => wordVM 0xA4 d.toNat m z o.code
  | .atomc q d m z => wordVM 0xA5 d.toNat m z q.code
  | .red o d m z => wordVM 0xA6 d.toNat m z o.code
  | .redRel o d m z => wordVM 0xA7 d.toNat m z o.code
  | .atomr c s t k => wordE 0xA8 c.toNat s.toNat t.toNat k.toNat
  | .txbegin => wordF 0xA9 0 0 0
  | .txend o => wordC 0xAA ⟨false, 0⟩ o
  | .txabort k => wordB 0xAB 0 0 k.toNat
  | .txstat d => wordA 0xAC d.toNat 0 0 0
  | .cpy s x y cm => wordCpy 0xB0 s x y cm false
  | .cpym s x y cm sk => wordCpy 0xB1 s x y cm sk
  | .cpyo s x y cm => wordCpy 0xB2 s x y cm false
  | .gathe s x y cm => wordCpy 0xB3 s x y cm false
  | .scate s x y cm => wordCpy 0xB4 s x y cm false
  | .cpycan s => wordE 0xB5 8 s.toNat 0 0
  | .selk s t => wordE 0xB6 12 s.toNat t.toNat 0
  | .selres d => wordE 0xB7 13 d.toNat 0 0
  | .qpush q a => wordA 0xB8 q.toNat a.toNat 0 0
  | .qpop d q => wordA 0xB8 d.toNat q.toNat 0 1
  | .qstat d q => wordA 0xB8 d.toNat q.toNat 0 2
  | .send s t => wordE 0xB9 0 s.toNat t.toNat 0
  | .waitmsg => wordF 0xBA 0 0 0
  | .ringmk c s t => wordE 0xBB c.toNat s.toNat t.toNat 0
  | .ringdes a => wordF 0xBC 0 a.toNat 0
  | .rpush s t => wordE 0xBD 15 s.toNat t.toNat 0
  | .rpop s t => wordE 0xBE 15 s.toNat t.toNat 0
  | .spawn s => wordE 0xBF 0 s.toNat 0 0
  | .mma t n f ca cb => wordTile 0xC0 t n.toNat f.toNat (ca.toNat * 16 + cb.toNat)
  | .mmaS t n f ca cb => wordTile 0xC1 t n.toNat f.toNat (ca.toNat * 16 + cb.toNat)
  | .mzero t => wordTile 0xC2 t 0 0 0
  | .mload t c b => wordTile 0xC3 t 0 c.toNat b.toNat
  | .mdrain t c b => wordTile 0xC4 t 0 c.toNat b.toNat
  | .mdrainQ t b => wordTile 0xC4 t 16 0 b.toNat
  | .mstat t a => wordTile 0xC5 t 0 a.toNat 0
  | .mwait t => wordTile 0xC6 t 0 0 0
  | .prune i o b => wordF 0xC7 0 (i.toNat * 16 + o.toNat) b.toNat
  | .sphdr a c => wordF 0xC8 0 a.toNat c.toNat
  | .sphdrChk a c => wordF 0xC8 1 a.toNat c.toNat
  | .plane i o b => wordF 0xC9 0 (i.toNat * 16 + o.toNat) b.toNat
  | .unplane i o b => wordF 0xCA 0 (i.toNat * 16 + o.toNat) b.toNat
  | .qbni d a p => wordA 0xCB d.toNat a.toNat 0 p.toNat
  | .dqbni d a p => wordA 0xCC d.toNat a.toNat 0 p.toNat
  | .launch a => wordF 0xD0 0 a.toNat 0
  | .bincfg a b => wordF 0xD1 0 a.toNat b.toNat
  | .grow a => wordB 0xD2 0 0 a.toNat
  | .shrink a => wordB 0xD3 0 0 a.toNat
  | .wid d => wordA 0xD4 d.toNat 0 0 0
  | .widf d k => wordA 0xD5 d.toNat 0 0 k.toNat
  | .rdcnt k d => wordA 0xD6 d.toNat 0 0 k.code
  | .beat => wordF 0xD7 0 0 0
  | .trap k => wordB 0xD8 0 0 k.toNat
  | .brk k => wordB 0xD9 0 0 k.toNat
  | .supsetCore a b => wordF 0xE0 0 a.toNat b.toNat
  | .supsetPriv a b => wordF 0xE0 1 a.toNat b.toNat
  | .supsetGet a b => wordF 0xE0 2 a.toNat b.toNat
  | .freeze a => wordF 0xE1 0 a.toNat 0
  | .resume a b => wordF 0xE2 0 a.toNat b.toNat
  | .cpyres a b => wordF 0xE3 0 a.toNat b.toNat
  | .cpyresCan a b => wordF 0xE3 1 a.toNat b.toNat
  | .ctxsave a => wordF 0xE4 0 a.toNat 0
  | .ctxsaveSpill a m => wordF 0xE4 (m.toNat * 16 + 1) a.toNat 0
  | .ctxswap a => wordF 0xE4 2 a.toNat 0
  | .ctxload a => wordF 0xE5 0 a.toNat 0
  | .ctxloadFill a m => wordF 0xE5 (m.toNat * 16 + 1) a.toNat 0
  | .migrate a b => wordF 0xE6 0 a.toNat b.toNat
  | .migrateRetire a => wordF 0xE6 1 a.toNat 0
  | .stopPart => wordF 0xE7 0 0 0
  | .stopCore a => wordF 0xE7 1 a.toNat 0
  | .startPart => wordF 0xE7 2 0 0
  | .startCore a => wordF 0xE7 3 a.toNat 0
  | .objinv a => wordF 0xE8 0 a.toNat 0
  | .rtnld a b => wordF 0xE9 0 a.toNat b.toNat
  | .rtnclr a => wordF 0xE9 1 a.toNat 0
  | .ortsetBase a b => wordF 0xEA 0 a.toNat b.toNat
  | .ortsetRec a b => wordF 0xEA 1 a.toNat b.toNat
  | .chanctlSet a b => wordF 0xEB 0 a.toNat b.toNat
  | .chanctlClr a => wordF 0xEB 1 a.toNat 0
  | .partctl k a b => wordF 0xEC k.toNat a.toNat b.toNat
  | _ => 0

/-- The word of a well-formed instruction (07 R205 to R230). -/
def encode (i : Instr) : Word := BitVec.ofNat 32 (encodeNat i)

end Sys2Proof
end

