-- ==== Sys2Proof/Machine/Channel.lean ====
section
/-! DEFINITION. Instruction channels: opcodes 0x10 to 0x16 and the steps of the Runnel tree (01 R37 to R49, 08 R267 to R271). -/

namespace Sys2Proof.Machine

/-- A CHANNEL fault with its cause (01 R40). -/
def chanFault (cause : Nat) : Flt := { code := .channel, offset := BitVec.ofNat 64 cause }

/-- Class of a circuit descriptor and its endpoints (12 R436). -/
def Circuit.cls (c : Circuit) : Nat := bits c.desc 11 10
def Circuit.epb (c : Circuit) : Nat := bits c.desc 9 5
def Circuit.epa (c : Circuit) : Nat := bits c.desc 4 0

/-- A tuned circuit of a class joins two endpoints within a partition (12 R435, R436). -/
def State.joined (s : State) (p : Fin 4) (cls a b : Nat) : Bool :=
  s.circuits.toList.any (fun c => c.valid && c.tuned && c.part == p && c.cls == cls &&
    ((c.epa == a && c.epb == b) || (c.epa == b && c.epb == a)))

/-- The gang that publishes on a channel: the publisher of the core whose channel it is. -/
def State.publisherOf (s : State) (near_ : CoreId) (chan : CoreId) : Option (CoreId × SlotId × Gang) :=
  (s.gangsOf (s.part near_)).find? (fun x => x.2.2.chan.role == .publisher && x.2.2.channelAt x.1 == chan)

/-- The gangs subscribed to a channel, waiting or not. -/
def State.subscribersOf (s : State) (near_ : CoreId) (chan : CoreId) : List (CoreId × SlotId × Gang) :=
  (s.gangsOf (s.part near_)).filter (fun x =>
    (x.2.2.chan.role == .waiting || x.2.2.chan.role == .subscriber) && x.2.2.chan.chan == chan)

/-- Leave the cohort: the buffered packets are discarded (01 R42). -/
def Gang.leaveCohort (g : Gang) : Gang :=
  { g with chan := { g.chan with role := .none, buf := [], due := [] } }

/-- PUBLISH (01 R37, 08 R268): published from the instruction after it. -/
def execPublish (s : State) : Host.Outcome State Fault Refusal :=
  runFull .u [] false (fun s g =>
    if g.inTx then .fault (flt .illegal)
    else if g.chan.role = .publisher ∨ g.chan.role = .subscriber then .done s
    else if (s.ctx s.cur.core).gangs.any (fun kg => kg.2.chan.role == .publisher) then .fault (chanFault 5)
    else .done (s.setMe { g with chan := { g.chan with
      role := .publisher, done := some g.regs.pc, seq := 0, held := false, holdAt := none, kept := none } })) s

/-- UNPUBLISH (08 R268). -/
def execUnpublish (s : State) : Host.Outcome State Fault Refusal :=
  runFull .u [] false (fun s g =>
    if g.inTx then .fault (flt .illegal)
    else if g.follows then .done (s.setMe g.leaveCohort)
    else if g.chan.role = .publisher then
      let s := s.publish s.cur.core s.cur.slot s.cur.word false
      .done (s.modGang s.cur.core s.cur.slot (fun g => { g with chan := { g.chan with
        role := .none, held := false, holdAt := none, kept := none } }))
    else .done s) s

/-- Distinct channels from other dies that a die receives (01 R40). -/
def State.inbound (s : State) (near_ : CoreId) : List CoreId :=
  (((s.gangsOf (s.part near_)).filter (fun x =>
    dieOf x.1 == dieOf near_ && (x.2.2.chan.role == .waiting || x.2.2.chan.role == .subscriber) &&
      dieOf x.2.2.chan.chan != dieOf near_)).map (fun x => x.2.2.chan.chan)).eraseDups

/-- ac a registration takes: free within the bounds of 01 R39. -/
def registrationDelay (clock : Nat) (sameDie : Bool) : Nat :=
  1 + Config.nat clock % (if sameDie then 16 else 128)

/-- Packets of a channel that are on their way to a site when its gang subscribes: on another die only those that ride to it for
another subscriber (01 R39, R44). -/
def State.onTheWay (s : State) (chan me : CoreId) : List (Nat × StreamPkt) :=
  if dieOf chan = dieOf me ∨ (s.inbound me).contains chan then
    (s.coresOf (s.part me)).flatMap (fun c => (s.core c).inFlight.filterMap (fun x =>
      if x.1 = chan ∧ s.now me < x.2.tick + entryDelay c me then some (x.2.tick + entryDelay c me, x.2) else none))
  else []

/-- The checks and the wait of 08 R270. -/
def subscribeTo (ch tag : DWord) (s : State) (g : Gang) : Res :=
  let c : CoreId := ch.truncate 12
  let me := s.cur.core
  if g.inTx then .fault (flt .illegal)
  else if bits ch 63 12 ≠ 0 ∨ bits tag 63 16 ≠ 0 then .fault (flt .illegal)
  else if g.chan.role = .publisher then .fault (chanFault 3)
  else if s.samePart me c = false then .fault (chanFault 1)
  else if s.noCore c then .fault (chanFault 4)
  else if s.gone c then .fault { flt .notMapped with offset := c.zeroExtend 64 }
  else if dieOf c ≠ dieOf me ∧ s.joined (s.partNo me) 1 (dieOf c).val (dieOf me).val = false then .fault (chanFault 2)
  else if dieOf c ≠ dieOf me ∧ ¬ (s.inbound me).contains c ∧ 32 ≤ (s.inbound me).length then .fault (chanFault 7)
  else
    .wait (s.setMe { g with chan := { g.chan with
      role := .waiting, chan := c, tag := tag.truncate 16, buf := [], due := s.onTheWay c me,
      reg := s.now me + registrationDelay s.clock (dieOf c == dieOf me) } }) .registration

/-- SUBSCRIBE (08 R270). -/
def execSubscribe (a b : SReg) (s : State) : Host.Outcome State Fault Refusal :=
  runFull .u [] false (fun s g => subscribeTo (g.s a) (g.s b) s g) s

/-- RESUB (08 R270). -/
def execResub (a b : SReg) (s : State) : Host.Outcome State Fault Refusal :=
  runFull .u [] false (fun s g => subscribeTo (g.s a) (g.s b) s g) s

/-- SUBSCRIBE_REGISTRATION (01 R39): the registration completes, and the gang waits for its RENDEZ. -/
def registrationDue (s : State) (core : CoreId) (g : Gang) : Bool :=
  g.why? == some .registration && decide (g.chan.reg ≤ s.now core)

def execSubscribeRegistration (core : CoreId) (slot : SlotId) (s : State) : Host.Outcome State Fault Refusal :=
  .next (match s.gang? core slot with
    | some g =>
      if registrationDue s core g then
        s.setGang core slot { g with status :=
          match g.status with
          | .waiting w => .waiting { w with why := .rendez }
          | x => x }
      else s
    | none => s)

/-- UNSUB (08 R268, R269). -/
def execUnsub (c : Cond) (s : State) : Host.Outcome State Fault Refusal :=
  runFull .u [] false (fun s g =>
    let t := if c.neg then ~~~ g.p c.pred else g.p c.pred
    if g.inTx then .fault (flt .illegal)
    else if g.follows then
      if ~~~ t &&& g.active = 0 then .done (s.setMe g.leaveCohort) else .done s
    else if g.chan.role = .publisher then .done s
    else .fault (chanFault 8)) s

/-- RENDEZ (08 R268): its effect is the packet that a publisher sends at retirement. -/
def execRendez (_tag : BitVec 16) (s : State) : Host.Outcome State Fault Refusal :=
  runFull .u [] false (fun s g => if g.inTx then .fault (flt .illegal) else .done s) s

/-- The word of 01 R49. DEDUCED (log 76): in a subscriber the packet of the CHSTAT itself still heads the buffer, and OCC counts it. -/
def chstatWord (s : State) (g : Gang) : DWord :=
  let me := s.cur.core
  let role : Nat := match g.chan.role with | .none => 0 | .publisher => 1 | .waiting => 2 | .subscriber => 3
  let chan : CoreId := match g.chan.role with | .publisher => g.channelAt me | .none => 0 | _ => g.chan.chan
  let occ := if g.chan.role = .subscriber then g.chan.buf.length else 0
  let xdie := (g.chan.role == .waiting || g.chan.role == .subscriber) && dieOf g.chan.chan != dieOf me
  let held := g.chan.role == .publisher && g.chan.held
  BitVec.ofNat 64 (role + 2 ^ 3 * chan.toNat + 2 ^ 15 * g.chan.tag.toNat + 2 ^ 31 * occ
    + (if held then 2 ^ 38 else 0) + (if xdie then 2 ^ 39 else 0))

/-- CHSTAT (01 R49). -/
def execChstat (a : SReg) (s : State) : Host.Outcome State Fault Refusal :=
  runFull .u [] false (fun s g =>
    if g.inTx then .fault (flt .illegal) else .done (s.setMe (g.setS a (chstatWord s g)))) s

/-- A packet that is a RENDEZ with a tag (07 R218). -/
def isRendez (w : Word) (tag : BitVec 16) : Bool := bits w 31 16 == 0x1500 && bits w 15 0 == tag.toNat

/-- Entries of a stream buffer, and the level at which the tree holds the publisher (01 R45). -/
def bufferDepth : Nat := 96
def holdLevel : Nat := 64

/-- A packet is due to enter (01 R44, R45). -/
def packetDue (s : State) (core : CoreId) (g : Gang) : Bool :=
  match g.chan.due with
  | (t, _) :: _ => decide (t ≤ s.now core) && (g.chan.role != .subscriber || decide (g.chan.buf.length < bufferDepth))
  | [] => false

/-- Ask the tree to hold a channel's publisher after a subscriber's buffer passes 64 entries (01 R45). -/
def State.askHold (s : State) (sub : CoreId) (chan : CoreId) : State :=
  match s.publisherOf sub chan with
  | none => s
  | some (c, k, g) =>
    let t := s.now c + (if dieOf c = dieOf sub then 8 else 64)
    s.setGang c k { g with chan := { g.chan with holdAt := some (match g.chan.holdAt with | some u => min u t | none => t) } }

/-- STREAM_PACKET_ENTRY (01 R44): the oldest due packet enters the buffer; a waiting subscriber joins at a RENDEZ that enters at or
after the TICK of its registration (R39). -/
def execStreamPacketEntry (core : CoreId) (slot : SlotId) (s : State) : Host.Outcome State Fault Refusal :=
  .next (match s.gang? core slot with
    | none => s
    | some g =>
      match g.chan.due with
      | [] => s
      | (t, p) :: rest =>
        if packetDue s core g = false then s
        else
          let g' := { g with chan := { g.chan with due := rest } }
          if g.chan.role = .waiting then
            if isRendez p.word g.chan.tag ∧ g.chan.reg ≤ t ∧ (g.why? = some .rendez ∨ g.why? = some .registration) then
              let s := (s.setGang core slot g').asGang core slot (fun s => s.retire none)
              s.modGang core slot (fun g => { g with
                chan := { g.chan with role := .subscriber }
                regs := { g.regs with pc := p.pc + 4 } })
            else s.setGang core slot g'
          else
            let s := s.setGang core slot { g' with chan := { g'.chan with buf := g'.chan.buf ++ [p] } }
            if holdLevel < g.chan.buf.length + 1 then s.askHold core g.chan.chan else s)

/-- The hold of a channel may lift: every subscriber buffer holds 64 or fewer entries and no packet waits in a staging queue
(01 R45). -/
def mayLift (s : State) (core : CoreId) (chan : CoreId) : Bool :=
  (s.subscribersOf core chan).all (fun x => decide (x.2.2.chan.buf.length ≤ holdLevel) &&
    (dieOf x.1 == dieOf core || x.2.2.chan.due == []))

/-- PUBLISHER_HOLD (01 R45): the hold takes effect at its ac, or lifts. -/
def holdMoves (s : State) (core : CoreId) : Bool :=
  (s.ctx core).gangs.any (fun kg => kg.2.chan.role == .publisher &&
    (((kg.2.chan.holdAt.any (fun t => decide (t ≤ s.now core))) && !kg.2.chan.held) ||
      ((kg.2.chan.held || kg.2.chan.holdAt.isSome) && mayLift s core (kg.2.channelAt core))))

def execPublisherHold (core : CoreId) (s : State) : Host.Outcome State Fault Refusal :=
  .next (if holdMoves s core then
      (s.ctx core).gangs.foldl (fun s kg =>
        if kg.2.chan.role = .publisher then
          if mayLift s core (kg.2.channelAt core) then
            s.modGang core kg.1 (fun g => { g with chan := { g.chan with held := false, holdAt := none } })
          else s.modGang core kg.1 (fun g => { g with chan := { g.chan with held := true } })
        else s) s
    else s)

end Sys2Proof.Machine
end

