-- ==== Sys2Proof/Machine/Access.lean ====
section
/-! DEFINITION. Capabilities, object records, translation and the targets of accesses (02 R50 to R77, 09 R294). -/

namespace Sys2Proof.Machine

/-! Capability fields (02 R51). -/

def Cap.space (c : Cap) : Nat := bits c.val 127 125
def Cap.perm (c : Cap) : Nat := bits c.val 124 119
def Cap.id (c : Cap) : Nat := bits c.val 118 95
def Cap.origin (c : Cap) : Nat := bits c.val 94 48
def Cap.length (c : Cap) : Nat := bits c.val 47 0

/-- A capability of given fields. -/
def Cap.mk' (space perm id origin length : Nat) (tag : Bool) : Cap :=
  ⟨BitVec.ofNat 128 (space * 2 ^ 125 + perm % 64 * 2 ^ 119 + id % 2 ^ 24 * 2 ^ 95 + origin % 2 ^ 47 * 2 ^ 48 + length % 2 ^ 48), tag⟩

/-- Permission bits in the order R, W, X, M, A, K from 5 down (02 R51). -/
def pR : Nat := 32
def pW : Nat := 16
def pX : Nat := 8
def pM : Nat := 4
def pA : Nat := 2
def pK : Nat := 1

/-- All needed permissions are held. -/
def holds (have_ need : Nat) : Bool := Nat.land have_ need == need

/-! Object records (02 R63). -/

structure ObjRec where
  rank : Nat
  fmt : Nat
  layout : Nat
  perm : Nat
  state : Nat
  gen : Nat
  nsub : Nat
  shape : List Nat
  stride : List Int
  map : Nat
  side : Nat
  /-- a reserved field is nonzero -/
  rsv : Bool
deriving DecidableEq, Repr

/-- n bytes of a list from k, as a number. -/
def field (b : List Byte) (k n : Nat) : Nat := ofBytes ((b.drop k).take n)

/-- The fields of 64 bytes (02 R63). -/
def ObjRec.parse (b : List Byte) : ObjRec :=
  let w := field b 0 8
  { rank := w % 8, fmt := w / 2 ^ 3 % 32, layout := w / 2 ^ 8 % 4, perm := w / 2 ^ 10 % 64, state := w / 2 ^ 16 % 4
    gen := w / 2 ^ 18 % 256, nsub := w / 2 ^ 40 % 2 ^ 24
    shape := (List.range 5).map (fun k => field b (8 + 4 * k) 4)
    stride := (List.range 5).map (fun k => signed 32 (field b (28 + 4 * k) 4))
    map := field b 48 6, side := field b 56 6
    rsv := w / 2 ^ 26 % 2 ^ 14 != 0 || field b 54 2 != 0 || field b 62 2 != 0 }

/-- Extents and strides of the dimensions in use. -/
def ObjRec.dims (r : ObjRec) : List Nat := r.shape.take r.rank
def ObjRec.strides (r : ObjRec) : List Int := r.stride.take r.rank
/-- Number of elements. -/
def ObjRec.size (r : ObjRec) : Nat := r.dims.foldl (· * ·) 1

/-- Element bits of an FMT code (02 R65); 0 for a code no object takes. -/
def fmtBits (f : Nat) : Nat :=
  if f = 0 ∨ f = 1 ∨ f = 6 then 32
  else if f = 2 ∨ f = 3 ∨ f = 7 ∨ f = 8 then 16
  else if f = 4 ∨ f = 5 ∨ f = 10 ∨ f = 11 then 8
  else if f = 12 then 4
  else if f = 13 ∨ f = 14 then 64
  else if 16 ≤ f ∧ f ≤ 30 then f - 14
  else 0

/-- The bni formats carry scale rows (02 R65). -/
def fmtBni (f : Nat) : Bool := decide (16 ≤ f) && decide (f ≤ 30)

/-- Layouts a format admits (02 R65): 0 LINEAR, 1 TILE, 2 PLANAR, 3 PACKED. -/
def fmtLayout (f l : Nat) : Bool :=
  let n := fmtBits f
  if n = 0 then false
  else if fmtBni f ∨ n = 4 then l == 2 || l == 3
  else if n = 64 then l == 0 || l == 3
  else if n = 8 then true
  else l == 0 || l == 1 || l == 3

/-- Coordinates of a flat index in row-major order; the outermost takes the whole quotient (02 R64). -/
def decompose : List Nat → Nat → List Int
  | [], _ => []
  | _ :: ds, f =>
    let inner := ds.foldl (· * ·) 1
    if inner = 0 then 0 :: decompose ds 0 else ((f / inner : Nat) : Int) :: decompose ds (f % inner)

/-- Row-major flat index of coordinates. -/
def flatOf : List Nat → List Int → Int
  | _ :: ds, c :: cs => c * ((ds.foldl (· * ·) 1 : Nat) : Int) + flatOf ds cs
  | _, _ => 0

/-- Every coordinate lies in its extent. -/
def inShape : List Nat → List Int → Bool
  | d :: ds, c :: cs => decide (0 ≤ c) && decide (c < (d : Int)) && inShape ds cs
  | _, _ => true

/-- Element offset of coordinates in shape (02 R64): a negative stride is a reversed view. -/
def elemOffset : List Nat → List Int → List Int → Int
  | d :: ds, st :: sts, c :: cs =>
    (if 0 ≤ st then c * st else ((d : Int) - 1 - c) * (-st)) + elemOffset ds sts cs
  | _, _, _ => 0

/-- n rounded up to a multiple of k. -/
def roundUpTo (n k : Nat) : Nat := (n + k - 1) / k * k

/-- The innermost extent. -/
def ObjRec.inner (r : ObjRec) : Nat := (r.dims.getLast?).getD 1

/-- Byte offset of an element offset under LINEAR and TILE (02 R66). -/
def ObjRec.byteOf (r : ObjRec) (e : Nat) : Nat :=
  let s := fmtBits r.fmt / 8
  if r.layout = 0 then e * s
  else
    let lb := roundUpTo (r.inner * s) 128
    let lp := lb / max s 1
    let row := e / max lp 1
    let q := e % max lp 1 * s
    ((row / 32) * (lb / 128) + q / 128) * 4096 + row % 32 * 128 + q % 128

/-- PLANAR geometry of a row: chunks C and footprint F (02 R66). -/
def ObjRec.planarC (r : ObjRec) : Nat := roundUpTo r.inner 1024 / 1024
def ObjRec.planarF (r : ObjRec) : Nat :=
  roundUpTo (r.planarC * fmtBits r.fmt * 128 + (if fmtBni r.fmt then r.planarC * 32 else 0)) 128

/-! Physical places (12 R433). -/

/-- The address lies in a stack of the partition. -/
def Part.ownsPa (p : Part) (pa : Nat) : Bool :=
  decide (pa / 2 ^ 36 < 8) && decide (pa % 2 ^ 36 < Config.stackBytes) &&
    p.dies.getLsbD (pa / 2 ^ 36 / 2)

/-- A frame a map entry of the partition may name (12 R433). -/
def Part.frameOk (p : Part) (pa : Nat) : Bool := p.ownsPa pa || isPeer pa || isWindow pa

/-- Stack and die of a DRAM address. -/
def stackDie (pa : Nat) : Nat := pa / 2 ^ 36 / 2

/-! Records and map entries as translation sees them (02 R72): cached ones first. -/

def State.rawRecord (s : State) (p : Part) (id : Nat) : List Byte := s.dram.read (p.ortBase + 64 * id) 64

def State.record (s : State) (p : Part) (id : Nat) : ObjRec :=
  ObjRec.parse ((Tbl.get? p.recs id).getD (s.rawRecord p id))

def mapKey (id sub : Nat) : Nat := id * 2 ^ 24 + sub

def State.mapEntry (s : State) (p : Part) (id sub : Nat) (r : ObjRec) : Nat :=
  match Tbl.get? p.maps (mapKey id sub) with
  | some e => e.toNat
  | none => ofBytes (s.dram.read (r.map + 8 * sub) 8)

/-- RESIDENT, with no reserved bit set and a frame the partition may reach (02 R68, 12 R433). -/
def entryResident (p : Part) (e : Nat) : Bool :=
  e / 2 ^ 32 % 2 == 1 && e / 2 ^ 34 % 2 == 0 && e / 2 ^ 38 == 0 && p.frameOk (e % 2 ^ 32 * 65536)
def entryMoving (e : Nat) : Bool := e / 2 ^ 33 % 2 == 1

/-- The address that an entry gives a layout byte. -/
def framePa (e b : Nat) : Nat := e % 2 ^ 32 * 65536 + b % 65536

/-- The entry lets a capability reach a byte. DESIGN CHOICE (log 105): the ORT's memory, which no capability reaches (02 R67), is not
resident for any. -/
def entryReaches (p : Part) (e b : Nat) : Bool :=
  entryResident p e && !(decide (p.ortBase ≤ framePa e b) && decide (framePa e b < p.ortBase + 64 * p.ortSize))

/-- Fill the record cache with a record used by a translation (02 R72). -/
def State.cacheRec (s : State) (c : CoreId) (id : Nat) : State :=
  let n := s.partNo c
  let p := s.parts[n]
  let b := (Tbl.get? p.recs id).getD (s.rawRecord p id)
  let st := (ObjRec.parse b).state
  if id < p.ortSize ∧ (st = 1 ∨ st = 2) then s.setPart n { p with recs := Tbl.put p.recs id b } else s

/-- Fill the map cache with an entry used by a translation (02 R72). -/
def State.cacheMap (s : State) (c : CoreId) (id sub : Nat) : State :=
  let n := s.partNo c
  let p := s.parts[n]
  let e := s.mapEntry p id sub (s.record p id)
  if entryResident p e ∧ ¬ entryMoving e then
    s.setPart n { p with maps := Tbl.put p.maps (mapKey id sub) (BitVec.ofNat 64 e) }
  else s

/-! Targets. -/

/-- Outcome of one lane's target: a place, the zero of MODE.OOSZ, a wait for a relocation, or a fault. Two places only for a
capability in an object of other innermost stride than 1 (09 R304). -/
inductive LaneRes
  | at_ (l : Loc) (sub : Nat)
  | two (l h : Loc) (sub : Nat)
  | zero (f : Flt)
  | moving (id : Nat)
  | err (f : Flt)
deriving DecidableEq, Repr

/-- What a capability reaches after the gang-uniform steps. -/
inductive Reach
  | local_
  | near (home other : CoreId) (xd : Nat)
  | object (r : ObjRec)
  | code (r : ObjRec)
  | sys
deriving DecidableEq, Repr

/-- A fault that names a capability (11 R392). -/
def capFlt (code : Code) (c : Cap) (creg : Nat) : Flt :=
  { code := code, space := c.space, creg := creg, id := if c.space = 2 ∨ c.space = 3 then c.id else 0 }

/-- Steps 4 to 6 of 02 R69. -/
def State.objectSteps (s : State) (core : CoreId) (c : Cap) (creg need : Nat) : Except Flt ObjRec :=
  let p := s.part core
  let r := s.record p c.id
  if p.ortSize ≤ c.id then .error (capFlt .notMapped c creg)
  else if ¬ (r.state = 1 ∨ r.state = 2) then .error (capFlt .notMapped c creg)
  else if holds r.perm need = false then .error (capFlt .capPerm c creg)
  else .ok r

/-- A NEAR capability's cluster, partner and XD, when its ID is legal and lies in the partition (02 R52). -/
def State.nearOf (s : State) (core : CoreId) (c : Cap) : Option Reach :=
  let site : CoreId := BitVec.ofNat 12 (c.id / 2 ^ 12)
  let xd := c.id % 4
  let d := (dieOf site).val
  let other := if xd = 1 then d + 1 else if xd = 2 then d - 1 else d
  if c.id / 4 % 2 ^ 10 ≠ 0 ∨ xd = 3 ∨ xOf site % 4 ≠ 0 ∨ yOf site % 4 ≠ 0 then none
  else if s.samePart core site = false then none
  else if xd = 1 ∧ 3 ≤ d then none
  else if xd = 2 ∧ d = 0 then none
  else
    let o := siteAt other (xOf site) (yOf site)
    if s.samePart core o = false then none else some (.near site o xd)

/-- The addressing modes a space takes (02 R55). -/
def amLegal (space am : Nat) : Bool :=
  match space with
  | 0 | 3 | 4 => am == 0
  | 1 => am != 3
  | 2 => am == 0 || am == 3
  | _ => false

/-- Steps 1 to 3 of 09 R294, or 1 to 6 of 02 R69: gang-uniform. A store to CODE faults CAP_PERM whatever its record holds. -/
def State.reach (s : State) (core : CoreId) (c : Cap) (creg am need : Nat) : Except Flt Reach :=
  if c.tag = false then .error (capFlt .capTag c creg)
  else if 4 < c.space then .error (capFlt .capPerm c creg)
  else if c.space = 0 ∧ c.id ≠ 0 then .error (capFlt .capPerm c creg)
  else if c.space = 4 ∧ c.id / 2 ^ 17 ≠ 0 then .error (capFlt .capPerm c creg)
  else if c.space = 1 ∧ (s.nearOf core c).isNone then .error (capFlt .capPerm c creg)
  else if amLegal c.space am = false then .error (capFlt .illegal c creg)
  else if holds c.perm need = false then .error (capFlt .capPerm c creg)
  else
    match c.space with
    | 0 => .ok .local_
    | 1 => .ok ((s.nearOf core c).getD .local_)
    | 2 => (s.objectSteps core c creg need).map .object
    | 3 =>
      match s.objectSteps core c creg need with
      | .error f => .error f
      | .ok r => if holds need pW then .error (capFlt .capPerm c creg) else .ok (.code r)
    | _ => .ok .sys

/-- Kinds of access to the reserved scratchpad ranges (06 R181, 05 R163). -/
inductive Into
  | load | other
  /-- FECLR, by which a supervisor takes a packet (11 R389) -/
  | feclr
deriving DecidableEq, Repr

/-- A run of scratchpad bytes meets a reserved range that this access may not touch. -/
def reserved (k : Into) (o n : Nat) : Bool :=
  let top := o + n
  let areas := decide (o < 0x3C000) && decide (0x38000 < top)
  let pool := decide (o < 0x38000) && decide (0x37000 < top)
  decide (0x3C000 < top) || pool || (areas && k == .other)

/-- A byte offset as the fault record's OFFSET. -/
def offFlt (f : Flt) (o : Int) : Flt := { f with offset := BitVec.ofInt 64 o }

/-- The core is reached by cross-die traffic: a data circuit joins the dies (12 R435). -/
def State.linked (s : State) (a b : CoreId) : Bool :=
  dieOf a == dieOf b || s.joined (s.partNo a) 0 (dieOf a).val (dieOf b).val

/-- No core answers at the site for this sender (01 R15, 10 R380, 12 R435). -/
def State.unreached (s : State) (me c : CoreId) : Bool := s.noCore c || s.noCore (s.route c) || !s.linked me c || s.gone c

/-- The site a NEAR offset names and its byte (02 R55). -/
def nearTarget (home other : CoreId) (am o : Nat) : CoreId × Nat :=
  let base := if o / 2 ^ 22 % 2 = 1 then other else home
  let pos := if am = 2 then o / 16 % 16 else o / 2 ^ 18 % 16
  let byte := if am = 2 then o / 256 % 2 ^ 14 * 16 + o % 16 else o % 2 ^ 18
  (siteAt (dieOf base).val (xOf base + pos % 4) (yOf base + pos / 4), byte)

/-- Steps 4 to 7 of 09 R294 for n bytes at byte offset o of a byte space, aligned to z. -/
def State.byteTarget (s : State) (core : CoreId) (c : Cap) (creg am : Nat) (k : Into) (r : Reach) (o : Int)
    (n z : Nat) : LaneRes :=
  let bad (code : Code) : LaneRes := .err (offFlt (capFlt code c creg) o)
  let within (x : Int) : Bool := decide ((c.origin : Int) ≤ x) && decide (x + n ≤ (c.origin + c.length : Nat))
  match r with
  | .local_ =>
    let b := o.toNat
    if o < 0 ∨ within o = false ∨ Config.padBytes < b + n ∨ reserved k b n then bad .capBounds
    else if b % z ≠ 0 then bad .misaligned
    else .at_ (.pad core b) 0
  | .near home other xd =>
    let ob := if xd = 0 then o else if 0 ≤ o ∧ o.toNat / 2 ^ 22 % 2 = 1 then o - 2 ^ 22 else o
    let (site, b) := nearTarget home other am o.toNat
    if o < 0 ∨ 2 ^ 23 ≤ o ∨ (xd = 0 ∧ 2 ^ 22 ≤ o) ∨ within ob = false ∨ Config.padBytes < b + n ∨ reserved k b n then
      bad .capBounds
    else if b % z ≠ 0 then bad .misaligned
    else if s.unreached core site then .err { capFlt .notMapped c creg with offset := site.zeroExtend 64 }
    else .at_ (.pad (s.route site) b) 0
  | .sys =>
    let a := c.id % 2 ^ 17 * 2 ^ 47 + o.toNat % 2 ^ 47
    if o < 0 ∨ within o = false then bad .capBounds
    else if a % z ≠ 0 then bad .misaligned
    else if (s.funcs[s.partNo core]).bme = false then bad .notMapped
    else .at_ (.host a) 0
  | .code rec_ =>
    let b := o.toNat
    let p := s.part core
    let e := s.mapEntry p c.id (b / 65536) rec_
    if o < 0 ∨ within o = false then bad .capBounds
    else if b % z ≠ 0 then bad .misaligned
    else if rec_.nsub ≤ b / 65536 ∨ entryReaches p e b = false then
      .err { capFlt .notResident c creg with offset := BitVec.ofNat 64 (b / 65536), gen := rec_.gen }
    else if entryMoving e then .moving c.id
    else .at_ (.phys (framePa e b)) (b / 65536)
  | .object _ => bad .capPerm

/-- Steps 10 and 11 of 02 R69 for a layout byte offset of an object. -/
def State.objectByte (s : State) (core : CoreId) (c : Cap) (creg : Nat) (r : ObjRec) (b : Nat) (co : List Int) : LaneRes :=
  let p := s.part core
  let e := s.mapEntry p c.id (b / 65536) r
  let c0 : Word := BitVec.ofInt 32 ((co.reverse[1]?).getD 0)
  let c1 : Word := BitVec.ofInt 32 ((co.reverse[0]?).getD 0)
  if r.nsub ≤ b / 65536 ∨ entryReaches p e b = false then
    .err { capFlt .notResident c creg with
      offset := BitVec.ofNat 64 (b / 65536), gen := r.gen, coord0 := c0, coord1 := c1 }
  else if entryMoving e then .moving c.id
  else .at_ (.phys (framePa e b)) (b / 65536)

/-- Dimensions with rank 1 read as [1, SHAPE[0]] (02 R64). -/
def ObjRec.dims2 (r : ObjRec) : List Nat := if r.rank = 1 then 1 :: r.dims else r.dims
def ObjRec.strides2 (r : ObjRec) : List Int := if r.rank = 1 then 0 :: r.strides else r.strides

/-- Add to the last two coordinates. -/
def addLast2 (co : List Int) (a b : Int) : List Int :=
  match co.reverse with
  | x :: y :: t => ((x + b) :: (y + a) :: t).reverse
  | x :: t => ((x + b) :: t).reverse
  | [] => []

/-- Coordinates of an index, or of a pair for AM 3 (02 R64). -/
def ObjRec.coords (r : ObjRec) (origin am : Nat) (i0 i1 : Int) : List Int × Int :=
  if am = 3 then
    let co := addLast2 (decompose r.dims2 origin) i0 i1
    (co, flatOf r.dims2 co)
  else
    let f := (origin : Int) + i0
    (if f < 0 then r.dims2.map (fun _ => -1) else decompose r.dims2 f.toNat, f)

/-- Steps 7 to 11 of 02 R69 for one element of z bytes; zero where MODE.OOSZ gives it. Coordinates give the element. -/
def State.elemTarget (s : State) (core : CoreId) (c : Cap) (creg : Nat) (r : ObjRec) (co : List Int) (f : Int)
    (z : Nat) (oosz : Bool) : LaneRes :=
  let c0 : Word := BitVec.ofInt 32 ((co.reverse[1]?).getD 0)
  let c1 : Word := BitVec.ofInt 32 ((co.reverse[0]?).getD 0)
  let bad (code : Code) : Flt := { offFlt (capFlt code c creg) f with coord0 := c0, coord1 := c1 }
  if inShape r.dims2 co = false then (if oosz then .zero (bad .outOfShape) else .err (bad .outOfShape))
  else if ¬ ((c.origin : Int) ≤ f ∧ f < (c.origin + c.length : Nat)) then .err (bad .capBounds)
  else if ¬ (r.layout = 0 ∨ r.layout = 1) ∨ fmtBits r.fmt ≠ 8 * z then .err (bad .misaligned)
  else s.objectByte core c creg r (r.byteOf (elemOffset r.dims2 r.strides2 co).toNat) co

/-- The target of one access of z bytes after its gang-uniform steps: i0 and i1 are the indices read signed (02 R55, 09 R294). -/
def State.target (s : State) (core : CoreId) (c : Cap) (creg am : Nat) (k : Into) (oosz : Bool) (r : Reach) (z : Nat)
    (i0 i1 : Int) : LaneRes :=
  match r with
  | .object rec_ =>
    let (co, f) := rec_.coords c.origin am i0 i1
    s.elemTarget core c creg rec_ co f z oosz
  | _ => s.byteTarget core c creg am k r ((c.origin : Int) + i0 * z) z z

/-- The caches a resolved access has used (02 R72). -/
def State.touch (s : State) (core : CoreId) (c : Cap) : State :=
  if c.space = 2 ∨ c.space = 3 then s.cacheRec core c.id else s

/-- Sub-tile a lane's translation used. -/
def LaneRes.sub? : LaneRes → Option Nat
  | .at_ _ n => some n
  | .two _ _ n => some n
  | _ => none

/-- Fill the map cache with the entries that translations of an instruction used (02 R72). -/
def State.touchLanes (s : State) (core : CoreId) (c : Cap) (rs : List LaneRes) : State :=
  if c.space = 2 ∨ c.space = 3 then
    (rs.filterMap LaneRes.sub?).foldl (fun s n => s.cacheMap core c.id n) (s.touch core c)
  else s

/-! Full/empty bits (02 R61, R468). -/

/-- A context holds an accepted copy that covers a granule. -/
def Ctx.covers (x : Ctx) (core : CoreId) (gr : Nat) : Bool := x.copies.any (fun y => y.2.cover.contains (core, gr))

/-- A granule of a core is covered by an accepted copy of any core, or of a saved context that is not the core's own (02 R468). -/
def State.covered (s : State) (core : CoreId) (gr : Nat) : Bool :=
  s.cores.any (fun kv => kv.2.ctx.covers core gr || (kv.1 != core.toNat && kv.2.tarn.any (fun x => x.covers core gr))) ||
    s.parts.toList.any (fun p => p.spills.any (fun x =>
      !p.filled.contains x.1 && x.2.origin != some core && x.2.covers core gr))

/-- Full for a qualified read or a claim: full and not under an accepted copy (02 R61). -/
def State.isFull (s : State) (core : CoreId) (gr : Nat) : Bool := (s.ctx core).full.has gr && !s.covered core gr

/-- Taking a packet: the first granule of a record-area entry is set empty after its delivery (11 R389). -/
def takePacket (gr : Nat) (x : Ctx) : Ctx :=
  if 0x3800 ≤ gr ∧ gr < 0x3C00 ∧ gr % 4 = 0 then
    let k := slotOf ((gr - 0x3800) / 128)
    let e := (gr - 0x3800) / 4 % 32
    match x.slots[k.val] with
    | some g =>
      match Tbl.get? g.cnt.hops e with
      | some h => x.setSlot k (some { g with cnt := { g.cnt with hopTaken := some h, hops := Tbl.del g.cnt.hops e } })
      | none => x
    | none => x
  else x

/-- Set a granule's full/empty bit. -/
def State.setFull (s : State) (core : CoreId) (gr : Nat) (b : Bool) : State :=
  s.modCtx core (fun x =>
    let x := { x with full := x.full.put gr b }
    if b then x else takePacket gr x)

/-- Grant the read claims on a core's granules that have become full (04 R133). -/
def State.regrant (s : State) (core : CoreId) : State :=
  { s with cores := s.cores.map (fun kv => (kv.1, { kv.2 with ctx := { kv.2.ctx with ops := kv.2.ctx.ops.map (fun o =>
      { o with claims := o.claims.map (fun c =>
          if c.core == core && !c.granted && s.isFull core c.granule then { c with granted := true } else c) }) } })) }

/-- Watermark of a channel: base plus the run of granules written from its base (02 R62). -/
def CopyChan.mark (c : CopyChan) : Nat :=
  c.base + min c.len (16 * ((List.range (c.len / 16)).takeWhile (fun i => c.done.has (c.base / 16 + i))).length)

/-- A plain LOCAL load waits for the watermark of a channel it reads above (02 R62). -/
def waitsMark (x : Ctx) (o n : Nat) : Bool :=
  x.chans.toList.any (fun ch => match ch with
    | some c =>
      let hi := min (o + n) (c.base + c.len)
      decide (c.base < hi) && decide (o < c.base + c.len) && decide (o < hi) && decide (c.mark < hi)
    | none => false)

end Sys2Proof.Machine
end

