-- ==== Sys2Proof/Machine/Window.lean ====
section
/-! DEFINITION. The debug window (11 R395 to R400). -/

namespace Sys2Proof.Machine

/-! Who may reach it (11 R386, R387, 10 R372). -/

/-- A gang of level S or P may act on a core: the core's supervisor, its die's, or level P. -/
def State.mayAct (s : State) (me : CoreId) (slot : SlotId) (g : Gang) (c : CoreId) : Bool :=
  match g.priv with
  | .u => false
  | .p => s.samePart me c
  | .s => s.samePart me c &&
      (s.supNames (s.core c).supv me slot || s.supNames (s.dies[dieOf c]).dsupv me slot)

/-! Reading (R396 to R398, R400). -/

/-- Half of a 64-bit value. -/
def halfOf (x : Nat) (h : Nat) : Word := BitVec.ofNat 32 (x >>> (32 * (h % 2)))

/-- A 64-bit value with one half replaced. -/
def putHalf (x : Nat) (h : Nat) (w : Word) : Nat :=
  if h % 2 = 0 then x / 2 ^ 32 * 2 ^ 32 + w.toNat else x % 2 ^ 32 + w.toNat * 2 ^ 32

/-- A 32-bit word of a list of bytes. -/
def wordOf (b : List Byte) (o : Nat) : Word := BitVec.ofNat 32 (ofBytes ((b.drop o).take 4))

/-- STATE of STATUS (R397). -/
def State.gangState (s : State) (c : CoreId) (g : Gang) : Nat :=
  match g.status with
  | .frozen => 3
  | .waiting _ => if (s.core c).stopped && g.priv != .p then 4 else 2
  | .running => if (s.core c).stopped && g.priv != .p then 4 else 1

def Priv.num : Priv → Nat
  | .u => 0 | .s => 1 | .p => 2

/-- STATUS (R397). -/
def State.statusWord (s : State) (c : CoreId) (g : Gang) : Nat :=
  let b (x : Bool) (n : Nat) : Nat := if x then 2 ^ n else 0
  s.gangState c g + b g.pending 3 + 2 ^ 4 * g.priv.num + 2 ^ 6 * g.stack.length
    + 2 ^ 12 * (g.parked.toList.filter Option.isSome).length + 2 ^ 16 * g.allot
    + b g.shadow 23 + b g.hdr.persist 24 + b g.save.isSome 25 + b g.heldClaims.isSome 26
    + b (!g.openLanes.isEmpty) 27 + b g.tx.irrev.isSome 28 + 2 ^ 32 * g.fcode.num

def EntryKind.num : EntryKind → Nat
  | .if_ => 0 | .else_ => 1 | .loop => 2 | .tx => 3

/-- Word w of a mask-stack entry (08 R257). -/
def Entry.word (e : Entry) (w : Nat) : Word :=
  match w with
  | 0 => e.mask
  | 1 => BitVec.ofNat 32 e.kind.num
  | 2 => e.brkm
  | _ => 0

/-- Word at byte o of a mask stack, bottom entry first. -/
def stackWord (bottom : List Entry) (o : Nat) : Word :=
  match bottom[o / 16]? with
  | some e => e.word (o % 16 / 4)
  | none => 0

/-- Word at byte o of a column page (R398). -/
def columnWord (r : Option ParkRec) (o : Nat) : Word :=
  match r with
  | none => 0
  | some r =>
    if o < 0x100 then
      let i := o / 8
      let col : Nat := (r.stack.zipIdx.map (fun ek =>
        (if ek.1.mask.getLsbD i then 2 ^ (2 * ek.2) else 0) + (if ek.1.brkm.getLsbD i then 2 ^ (2 * ek.2 + 1) else 0))).sum
      halfOf col (o / 4)
    else if o < 0x108 then halfOf ((r.stack.zipIdx.map (fun ek => ek.1.kind.num * 2 ^ (2 * ek.2))).sum) (o / 4)
    else 0

/-- Word at byte o of the paged area (R398). -/
def Gang.pageWord (g : Gang) (o : Nat) : Word :=
  let p := g.page.toNat
  if p < 4 then
    let r := 16 * p + o / 128
    if r < g.allot then (g.v (BitVec.ofNat 6 r))[o / 4 % 32]'(Nat.mod_lt _ (by decide)) else 0
  else if p < 12 then
    match g.parked.toList[p - 4]? with
    | some r => columnWord r o
    | none => 0
  else if p = 12 then
    match g.save with
    | some v => stackWord v.stack.reverse o
    | none => 0
  else 0

/-- Word at byte o of a parked-lane record header (R396). -/
def headerWord (c : CoreId) (k : SlotId) (r : Option ParkRec) (n o : Nat) : Word :=
  match r with
  | none => 0
  | some r =>
    match o / 4 with
    | 0 => halfOf r.pc.toNat 0
    | 1 => halfOf r.pc.toNat 1
    | 2 => r.lanes
    | 3 => BitVec.ofNat 32 (r.flt.code.num + 128 + 256 * r.stack.length)
    | j => wordOf (recordBytes { parkReport r n with slot := k.val, core := c }) (24 + 4 * (j - 4))

/-- Word at byte o of a slot window (R396). -/
def State.slotWord (s : State) (c : CoreId) (k : SlotId) (g : Gang) (o : Nat) : Word :=
  let lane (x : Lanes Word) (b : Nat) : Word := x[b / 4 % 32]'(Nat.mod_lt _ (by decide))
  if o < 0x800 then g.pageWord o
  else if o < 0x900 then halfOf (g.s (BitVec.ofNat 5 ((o - 0x800) / 8))).toNat (o / 4)
  else if o < 0xA00 then BitVec.ofNat 32 ((g.c (BitVec.ofNat 4 ((o - 0x900) / 16))).val.toNat >>> (8 * (o % 16)))
  else if o < 0xA08 then
    halfOf (((List.range 16).map (fun i => if (g.c (BitVec.ofNat 4 i)).tag then 2 ^ i else 0)).sum) (o / 4)
  else if o < 0xA10 then halfOf g.regs.pc.toNat (o / 4)
  else if o = 0xA10 then g.regs.exm
  else if o = 0xA14 then g.regs.pkm
  else if o = 0xA18 then g.regs.mode
  else if o = 0xA1C then g.regs.fstat.zeroExtend 32
  else if o < 0xA40 then g.p (BitVec.ofNat 3 ((o - 0xA20) / 4))
  else if o < 0xA60 then
    halfOf (g.regs.ba[(o - 0xA40) / 8 % 4]'(Nat.mod_lt _ (by decide))).toNat (o / 4)
  else if o < 0xA68 then halfOf (s.statusWord c g) (o / 4)
  else if o < 0xA70 then halfOf g.page.toNat (o / 4)
  else if o < 0xA80 then 0
  else if o < 0xB00 then lane g.regs.lfsr (o - 0xA80)
  else if o < 0xB80 then lane g.tx.stat (o - 0xB00)
  else if o < 0xBC0 then
    match g.rec_ with
    | some r => wordOf (recordBytes r) (o - 0xB80)
    | none => 0
  else if o < 0xC00 then 0
  else if o < 0xE00 then stackWord g.stack.reverse (o - 0xC00)
  else if o < 0xF00 then
    let n := (o - 0xE00) / 32
    headerWord c k ((g.parked.toList[n]?).join) n (o % 32)
  else if o < 0xF10 then
    match g.save with
    | some v =>
      if o < 0xF08 then halfOf v.pc.toNat (o / 4)
      else if o = 0xF08 then v.exm
      else BitVec.ofNat 32 v.stack.length
    | none => 0
  else if o < 0xF18 then halfOf (g.cnt.dogLog + 2 ^ 32 * g.hdr.pint) (o / 4)
  else if o < 0xF20 then halfOf g.cnt.retired (o / 4)
  else if o < 0xF28 then halfOf g.cnt.elapsed (o / 4)
  else if o < 0xF30 then halfOf g.cnt.lt (o / 4)
  else 0

/-- A copy channel's word (02 R62). -/
def CopyChan.word (c : CopyChan) : Nat :=
  2 ^ 63 + 2 ^ 36 * c.len + 2 ^ 18 * c.base + min (c.mark - c.base) (c.len - 1)

/-- Word at byte o, from 0x8000, of a core page (R400). -/
def State.coreWord (s : State) (c : CoreId) (o : Nat) : Word :=
  let k := s.core c
  if o < 0x8000 then 0
  else if o < 0x8008 then halfOf k.supv.toNat (o / 4)
  else if o < 0x8010 then halfOf (if k.stopped then (if k.ctx.empty then 2 else 1) else 0) (o / 4)
  else if o < 0x8100 then 0
  else if o < 0x8180 then
    match (k.ctx.chans.toList[(o - 0x8100) / 8]?).join with
    | some ch => halfOf ch.word (o / 4)
    | none => 0
  else if o < 0x8188 then
    halfOf ((k.ctx.chans.toList.zipIdx.map (fun cn =>
      match cn.1 with
      | some ch => if ch.mark = ch.base + ch.len then 2 ^ cn.2 else 0
      | none => 0)).sum) (o / 4)
  else if o < 0x8190 then halfOf (match k.fwd with | some f => 2 ^ 15 + f.toNat | none => 0) (o / 4)
  else if o < 0x8198 then halfOf (min 63 k.ctx.packets.length) (o / 4)
  else 0

/-- Core and block offset of an aperture address (R395). -/
def windowCore (pa : Nat) : CoreId := BitVec.ofNat 12 ((pa - apertureBase) / 0x10000)
def windowOff (pa : Nat) : Nat := (pa - apertureBase) % 0x10000

/-- The value of one 32-bit window word. -/
def State.windowWord (s : State) (pa : Nat) : Word :=
  let c := windowCore pa
  let o := windowOff pa
  if o < 0x8000 then
    match s.gang? c (slotOf (o / 0x1000)) with
    | some g => s.slotWord c (slotOf (o / 0x1000)) g (o % 0x1000)
    | none => 0
  else s.coreWord c o

/-- What a load in flight names of a register, as 32-bit words of V, S and C registers (R399); word 64 + r of the C registers stands for
the tag of C register r. -/
def Dst.words (d : Dst) (size : Nat) : List (Nat × Nat) :=
  match d with
  | .v r => (List.range (max 1 (size / 4))).map (fun i => (0, r.toNat + i))
  | .s r => [(1, 2 * r.toNat), (1, 2 * r.toNat + 1)]
  | .c r => (2, 64 + r.toNat) :: (List.range 4).map (fun i => (2, 4 * r.toNat + i))
  | .none => []

/-- The register words at a slot-window offset: class, word index, lane for a V register. -/
def regWordsAt (page o : Nat) : List (Nat × Nat × Option Nat) :=
  if o < 0x800 then (if page < 4 then [(0, 16 * page + o / 128, some (o / 4 % 32))] else [])
  else if o < 0x900 then [(1, (o - 0x800) / 4, none)]
  else if o < 0xA00 then [(2, (o - 0x900) / 4, none)]
  else if o = 0xA00 then (List.range 16).map (fun r => (2, 64 + r, none))
  else []

/-- A load in flight will write this register word. -/
def flightNames (k : SlotId) (w : Nat × Nat × Option Nat) (f : Flight) : Bool :=
  f.slot == k && (f.dst.words f.size).contains (w.1, w.2.1) &&
    (match w.2.2 with
     | some i => f.lanes.any (fun a => a.lane.val == i)
     | none => true)

/-- Read side effects: STATUS clears PENDING; a register that a load in flight will write sets it (R399). -/
def State.windowReadEffect (s : State) (pa size : Nat) : State :=
  let c := windowCore pa
  let o := windowOff pa
  if o < 0x8000 then
    let k := slotOf (o / 0x1000)
    match s.gang? c k with
    | none => s
    | some g =>
      let o := o % 0x1000
      if 0xA60 ≤ o ∧ o < 0xA68 then s.setGang c k { g with pending := false }
      else
        let ws := (List.range (size / 4)).flatMap (fun i => regWordsAt g.page.toNat (o + 4 * i))
        if ws.any (fun w => (s.ctx c).flights.any (fun f => flightNames k w f.2)) then
          s.setGang c k { g with pending := true }
        else s
  else s

/-- The size-byte value a window read returns. -/
def State.windowRead (s : State) (pa size : Nat) : List Byte :=
  if size = 8 then toBytes 4 (s.windowWord pa).toNat ++ toBytes 4 (s.windowWord (pa + 4)).toNat
  else toBytes 4 (s.windowWord pa).toNat

/-! Writing (R398, R399). -/

/-- A mask stack without some lanes: their MASK bits are cleared (R399). -/
def dropMask (l : Mask) (st : List Entry) : List Entry := st.map (fun e => { e with mask := e.mask &&& ~~~ l })

/-- A convergence save without some lanes (R399). -/
def ConvSave.dropLanes (v : ConvSave) (l : Mask) : ConvSave := { v with exm := v.exm &&& ~~~ l, stack := dropMask l v.stack }

/-- A record without some lanes and their columns; none when no lane is left (01 R29, R32; log 77). -/
def ParkRec.dropLanes (r : ParkRec) (l : Mask) : Option ParkRec :=
  if r.lanes &&& ~~~ l = 0 then none
  else some { r with
    lanes := r.lanes &&& ~~~ l
    stack := r.stack.map (fun e => { e with mask := e.mask &&& ~~~ l, brkm := e.brkm &&& ~~~ l }) }

/-- Clear lanes that a PKM write gives up; a record whose last parked lane goes is freed (R399, 01 R29, R32). -/
def Gang.discardLanes (g : Gang) (l : Mask) : Gang :=
  { g with
    regs := { g.regs with pkm := g.regs.pkm &&& ~~~ l }
    parked := g.parked.map (fun r => r.bind (fun r => r.dropLanes l))
    stack := dropMask l g.stack
    save := g.save.map (fun v => v.dropLanes l)
    outer := g.outer.map (fun v => v.dropLanes l) }

/-- log2 of a watchdog window that WDOG takes (R407). -/
def wdogOk (w : Word) : Bool := decide (16 ≤ bits w 5 0) && decide (bits w 5 0 ≤ 32)

/-- One 32-bit word of a slot window written, but for CTAG. A nonzero write to a reserved field is ignored for that field alone (00 R8). -/
def Gang.writeWindow (g : Gang) (o : Nat) (v : Word) : Gang :=
  let lanes (x : Lanes Word) (b : Nat) : Lanes Word := x.set (b / 4 % 32) v (Nat.mod_lt _ (by decide))
  if o < 0x800 then
    let p := g.page.toNat
    let r := 16 * p + o / 128
    if p < 4 ∧ r < g.allot then g.setVAll (BitVec.ofNat 6 r) (lanes (g.v (BitVec.ofNat 6 r)) o) else g
  else if o < 0x900 then
    let r : SReg := BitVec.ofNat 5 ((o - 0x800) / 8)
    g.setS r (BitVec.ofNat 64 (putHalf (g.s r).toNat (o / 4) v))
  else if o < 0xA00 then
    let r : CReg := BitVec.ofNat 4 ((o - 0x900) / 16)
    let sh := 8 * (o % 16)
    let x := (g.c r).val
    g.setC r ⟨(x &&& ~~~ (BitVec.ofNat 128 ((2 ^ 32 - 1) * 2 ^ sh))) ||| BitVec.ofNat 128 (v.toNat * 2 ^ sh), false⟩
  else if o < 0xA08 then g
  else if o < 0xA10 then { g with regs := { g.regs with pc := BitVec.ofNat 64 (putHalf g.regs.pc.toNat (o / 4) v) } }
  else if o = 0xA10 then g.setExm v
  else if o = 0xA14 then g.discardLanes (g.regs.pkm &&& ~~~ v)
  else if o = 0xA18 then if modeLegal v then { g with regs := { g.regs with mode := v } } else g
  else if o = 0xA1C then
    if bits v 31 5 = 0 then { g with regs := { g.regs with fstat := v.truncate 5 } } else g
  else if o < 0xA40 then g.setP (BitVec.ofNat 3 ((o - 0xA20) / 4)) v
  else if o < 0xA60 then
    let n := (o - 0xA40) / 8 % 4
    let x := (g.regs.ba[n]'(Nat.mod_lt _ (by decide))).toNat
    { g with regs := { g.regs with ba := g.regs.ba.set n (BitVec.ofNat 48 (putHalf x (o / 4) v)) (Nat.mod_lt _ (by decide)) } }
  else if o < 0xA80 then g
  else if o < 0xB00 then { g with regs := { g.regs with lfsr := lanes g.regs.lfsr (o - 0xA80) } }
  else if o = 0xF10 then
    if wdogOk v then { g with cnt := { g.cnt with dogLog := bits v 5 0 } } else g
  else if o = 0xF14 then { g with hdr := { g.hdr with pint := v.toNat } }
  else g

/-- What a write of a window word comes to: of CTAG, the tags that it changes, which only level P sets. -/
def windowWrites (page : BitVec 4) (o : Nat) (v : Word) (lvlP : Bool) : List LateWrite :=
  if o = 0xA00 then
    ((List.range 16).filter (fun i => lvlP || !v.getLsbD i)).map (fun i => .tag (BitVec.ofNat 4 i) (v.getLsbD i))
  else [.word page o v]

/-- The register words that a write changes. -/
def LateWrite.words : LateWrite → List (Nat × Nat × Option Nat)
  | .word page o _ => regWordsAt page.toNat o
  | .tag r _ => [(2, 64 + r.toNat, none)]

/-- The write takes effect. -/
def LateWrite.run (l : LateWrite) (g : Gang) : Gang :=
  match l with
  | .word page o v => { ({ g with page := page } : Gang).writeWindow o v with page := g.page }
  | .tag r b => g.setC r { g.c r with tag := b }

/-- A load in flight will write a register that the write changes (R399). -/
def Ctx.holdsWrite (x : Ctx) (k : SlotId) (l : LateWrite) : Bool :=
  l.words.any (fun w => x.flights.any (fun f => flightNames k w f.2))

/-- A write takes effect, or waits for the write-back of a load in flight. -/
def State.windowPut (s : State) (c : CoreId) (k : SlotId) (l : LateWrite) : State :=
  s.modGang c k (fun g => if (s.ctx c).holdsWrite k l then { g with late := g.late ++ [l] } else l.run g)

/-- After a write-back, the writes that no load in flight holds any more take effect, in their order. -/
def State.windowLate (s : State) (c : CoreId) (k : SlotId) : State :=
  s.modGang c k (fun g =>
    if g.late = [] then g
    else (g.late.filter (fun l => !(s.ctx c).holdsWrite k l)).foldl (fun g l => l.run g)
      { g with late := g.late.filter (fun l => (s.ctx c).holdsWrite k l) })

/-- CTRL is written whatever the gang does (R399). -/
def isCtrl (o : Nat) : Bool := o == 0xA68

/-- The window write would meet a running or waiting gang (R399). -/
def State.windowRefused (s : State) (pa : Nat) : Bool :=
  let o := windowOff pa
  decide (o < 0x8000) && !(isCtrl (o % 0x1000)) && !(o % 0x1000 == 0xA6C) &&
    (match s.gang? (windowCore pa) (slotOf (o / 0x1000)) with
     | some g => s.gangState (windowCore pa) g == 1 || s.gangState (windowCore pa) g == 2
     | none => false)

/-- One 32-bit window word written. -/
def State.windowWrite4 (s : State) (pa : Nat) (v : Word) (lvlP : Bool) : State :=
  let c := windowCore pa
  let o := windowOff pa
  if o < 0x8000 then
    let k := slotOf (o / 0x1000)
    match s.gang? c k with
    | none => s
    | some g =>
      let o := o % 0x1000
      if isCtrl o then
        s.setGang c k { g with page := v.truncate 4 }
      else if s.windowRefused pa then s
      else (windowWrites g.page o v lvlP).foldl (fun (s : State) l => s.windowPut c k l) s
  else s

/-- A window write of 4 or 8 bytes, as one access; no access covers a C register and CTAG. A WDOG write whose log2 is out of range is
ignored as a whole (R407). -/
def State.windowWrite (s : State) (pa size : Nat) (v : Nat) (lvlP : Bool) : State :=
  if windowOff pa < 0x8000 ∧ windowOff pa % 0x1000 = 0xF10 ∧ wdogOk (halfOf v 0) = false then s else
  let s := s.windowWrite4 pa (halfOf v 0) lvlP
  if size = 8 then s.windowWrite4 (pa + 4) (halfOf v 1) lvlP else s

/-- A function's master may write its aperture: it owns the module or its DELEG bit is set (12 R421). -/
def State.funcMayWrite (s : State) (n : Fin 4) : Bool :=
  s.fount.owner == BitVec.ofNat 8 n.val || (s.funcs[n]).deleg

/-- Size and alignment of a window access (R395). -/
def windowForm (pa size : Nat) : Bool := (size == 4 || size == 8) && pa % size == 0

/-- DEBUG_WINDOW_WRITE (R395 to R399, 12 R421): a write by a supervisor gang or through BAR 4. -/
def execDebugWindowWrite (by_ : Actor) (pa : Nat) (size : Nat) (value : DWord) (s : State) :
    Host.Outcome State Fault Refusal :=
  .next (
    if isWindow pa && windowForm pa size then
      let c := windowCore pa
      if s.noCore c then s
      else
        match by_ with
        | .gang me slot =>
          match s.gang? me slot with
          | some g =>
            if s.mayAct me slot g c && !s.windowRefused pa then s.windowWrite pa size value.toNat (g.priv == .p) else s
          | none => s
        | .func n =>
          if (s.parts[n]).has (dieOf c) && s.funcMayWrite n && s.fount.boot == .running then
            s.windowWrite pa size value.toNat true
          else s
    else s)

/-- DEBUG_STATUS_READ (R397, R399): reads STATUS and clears PENDING. -/
def execDebugStatusRead (by_ : Actor) (core : CoreId) (slot : SlotId) (s : State) : Host.Outcome State Fault Refusal :=
  .next (
    let ok := match by_ with
      | .gang me k =>
        match s.gang? me k with
        | some g => s.mayAct me k g core
        | none => false
      | .func n => (s.parts[n]).has (dieOf core) && s.fount.boot == .running
    if ok && !s.noCore core then
      s.windowReadEffect (apertureBase + core.toNat * 0x10000 + slot.val * 0x1000 + 0xA60) 8
    else s)

end Sys2Proof.Machine
end

