-- ==== Sys2Proof/Machine/Serve.lean ====
section
/-! DEFINITION. How accesses are served: the store buffer, the read cache, accesses in flight, transactions, and the frames of
windows and other modules (05 R143 to R145, R165; 11 R395; 12 R435, R438). -/

namespace Sys2Proof.Machine

/-- sz of the D form and its bytes (07 R210). -/
def sizeLog : Size → Nat
  | .b => 0 | .h => 1 | .w => 2 | .d => 3 | .q => 4
def sizeBytes (z : Size) : Nat := 2 ^ sizeLog z
/-- V registers a datum of this size takes (09 R298). -/
def sizeRegs (z : Size) : Nat := if sizeLog z ≤ 2 then 1 else 2 ^ (sizeLog z - 2)

/-! Overlaps. -/

/-- Offset of byte l within n bytes at a place. -/
def Loc.offIn (a : Loc) (n : Nat) (l : Loc) : Option Nat :=
  match a, l with
  | .pad c x, .pad d y => if c = d ∧ x ≤ y ∧ y < x + n then some (y - x) else none
  | .phys x, .phys y => if x ≤ y ∧ y < x + n then some (y - x) else none
  | .host x, .host y => if x ≤ y ∧ y < x + n then some (y - x) else none
  | _, _ => none

/-- An access of the core that is older than bound is in flight to some of the bytes. -/
def Ctx.olderFlight (x : Ctx) (bound : Nat) (l : Loc) (n : Nat) : Bool :=
  x.flights.any (fun f => decide (f.1 < bound) && l.meets n f.2.loc f.2.size)

/-- A write of the core that is older than bound waits in the store buffer to some of the bytes. -/
def Ctx.olderWrite (x : Ctx) (bound : Nat) (l : Loc) (n : Nat) : Bool :=
  x.buf.any (fun e => decide (e.seq < bound) && l.meets n e.loc e.size)

/-- Any older access of the core to the bytes. -/
def Ctx.busy (x : Ctx) (l : Loc) (n : Nat) : Bool := x.olderFlight x.seq l n || x.olderWrite x.seq l n

/-! Bytes through the store buffer (05 R143 item 3). -/

/-- Bits [bit, bit + w) counted from a byte's place replaced by a value: byte j of the run. -/
def fieldByte (bit w v j : Nat) (b : Byte) : Byte :=
  (List.range 8).foldl (fun (b : Byte) t =>
    let p := 8 * j + t
    if bit ≤ p ∧ p < bit + w then
      (if v.testBit (p - bit) then b ||| BitVec.twoPow 8 t else b &&& ~~~ (BitVec.twoPow 8 t))
    else b) b

/-- Byte j after a buffered write; a reduction's value is not known before it is performed. -/
def BufKind.overlay (k : BufKind) (j : Nat) (b : Option Byte) : Option Byte :=
  match k with
  | .bytes d => d[j]?
  | .cap d _ => d[j]?
  | .half d _ _ => d[j]?
  | .field bit w v => b.map (fieldByte bit w v j)
  | .red _ _ _ => none

/-- One byte as a load of the core sees it: buffered writes older than bound over a base. -/
def Ctx.through (x : Ctx) (bound : Nat) (l : Loc) (base : Byte) : Option Byte :=
  x.buf.foldl (fun b e =>
    if e.seq < bound then
      match Loc.offIn e.loc e.size l with
      | some j => e.kind.overlay j b
      | none => b
    else b) (some base)

/-- All the values of a list, or none. -/
def allSome {α : Type} : List (Option α) → Option (List α)
  | [] => some []
  | none :: _ => none
  | some a :: t => (allSome t).map (a :: ·)

/-- What lies under the store buffer: the read cache's copy for an OBJECT load, else the home. -/
def State.baseBytes (s : State) (core : CoreId) (l : Loc) (n : Nat) (cached : Bool) : List Byte :=
  match l with
  | .phys a =>
    match (if cached then Tbl.get? (s.core core).cache (a / 128) else none) with
    | some line => (List.range n).map (fun i => line.data.getD (a % 128 + i) 0)
    | none => s.homeRead l n
  | _ => s.homeRead l n

/-- The bytes a load of the core returns, when no reduction holds it back. -/
def State.loadBytes (s : State) (core : CoreId) (bound : Nat) (l : Loc) (n : Nat) (cached : Bool) : Option (List Byte) :=
  let base := s.baseBytes core l n cached
  allSome ((List.range n).map (fun i => (s.ctx core).through bound (l.add i) (base.getD i 0)))

/-- The gang has observed the buffered writes that its load met (05 R147). -/
def State.markSeen (s : State) (core : CoreId) (slot : SlotId) (bound : Nat) (l : Loc) (n : Nat) : State :=
  s.modCtx core (fun x => { x with buf := x.buf.map (fun e =>
    if e.seq < bound ∧ l.meets n e.loc e.size then { e with seen := e.seen ||| BitVec.twoPow 8 slot.val } else e) })

/-- Lines of the read cache (05 R143: 64 KiB). -/
def cacheLines : Nat := 512

/-- A miss fills a line from its home; a full cache drops one line, a free choice (05 R143 item 4, log 4). -/
def State.fillLine (s : State) (core : CoreId) (line : Nat) : State :=
  s.modCore core (fun k =>
    match Tbl.get? k.cache line with
    | some _ => k
    | none =>
      let t := if k.cache.length < cacheLines then k.cache
        else k.cache.eraseIdx (Config.nat2 s.clock line % k.cache.length)
      { k with cache := Tbl.put t line ⟨s.dram.read (line * 128) 128, lineTags s.dramTags line, s.now core⟩ })

/-- The line an OBJECT load uses, when it lies in the module's memory. DESIGN CHOICE (log 99): a load that finds all its bytes in the store
buffer fills the line as any other. -/
def State.useCache (s : State) (core : CoreId) (l : Loc) (cached : Bool) : State :=
  match l with
  | .phys a => if cached && (s.part core).ownsPa a then s.fillLine core (a / 128) else s
  | _ => s

/-! Registers. -/

/-- One lane of a V register written. -/
def Gang.setLane (g : Gang) (r : VReg) (i : Fin 32) (w : Word) : Gang := g.setVAll r ((g.v r).set i.val w)

/-- A loaded datum in the lane's registers (09 R298). -/
def Gang.putLane (g : Gang) (d : VReg) (i : Fin 32) (z : Nat) (sx : Bool) (v : Nat) : Gang :=
  if z ≤ 2 then g.setLane d i (if sx then BitVec.ofInt 32 (signed (8 * z) v) else BitVec.ofNat 32 (v % 2 ^ (8 * z)))
  else
    (List.range (max 1 (z / 4))).foldl (fun g k => g.setLane (d + BitVec.ofNat 6 k) i (halfOf (v >>> (32 * k)) 0)) g

/-- A loaded datum as S register contents. -/
def extS (z : Nat) (sx : Bool) (v : Nat) : DWord :=
  if sx then BitVec.ofInt 64 (signed (8 * z) v) else BitVec.ofNat 64 (v % 2 ^ (8 * z))

/-- The datum of a store's lane: its low z bytes (09 R299). -/
def Gang.laneDatum (g : Gang) (d : VReg) (i : Fin 32) (z : Nat) : Nat :=
  ((List.range (max 1 (z / 4))).map (fun k => ((g.v (d + BitVec.ofNat 6 k))[i]).toNat * 2 ^ (32 * k))).sum % 2 ^ (8 * z)

/-! Transactional accesses (05 R165). -/

/-- The lane's accesses are logged: its transaction is open and it does not hold the token (R165, R170). -/
def Gang.logged (g : Gang) (i : Fin 32) : Bool := (g.tx.lanes[i]).isOpen && !g.irrevocable i

/-- Aligned 8-byte words that n bytes at a place touch. -/
def txWords (l : Loc) (n : Nat) : List Loc :=
  let cut (a : Nat) : List Nat := (List.range ((a + n - 1) / 8 - a / 8 + 1)).map (fun i => (a / 8 + i) * 8)
  match l with
  | .pad c o => (cut o).map (.pad c)
  | .phys a => (cut a).map .phys
  | .host a => (cut a).map .host

/-- The bytes of word w that lie in n bytes at l, as a byte mask. -/
def byteMask (w l : Loc) (n : Nat) : BitVec 8 :=
  (List.range 8).foldl (fun m j => if (Loc.offIn l n (w.add j)).isSome then m ||| BitVec.twoPow 8 j else m) 0

def LaneTx.readOf (t : LaneTx) (w : Loc) : Option DWord := (t.reads.find? (fun r => r.1 == w)).map Prod.snd
def LaneTx.writeOf (t : LaneTx) (w : Loc) : Option (DWord × BitVec 8) := (t.writes.find? (fun r => r.1 == w)).map Prod.snd

def txReadMax : Nat := 16
def txWriteMax : Nat := 8

/-- A read entry where a load of the bytes needs one; none when it would be the 17th. DESIGN CHOICE (log 79): a word that has a
read entry is not read at the home again; the load returns the entry's value. -/
def State.txTouch (s : State) (t : LaneTx) (l : Loc) (n : Nat) : List Loc → Option LaneTx
  | [] => some t
  | w :: ws =>
    let need := byteMask w l n
    let written : BitVec 8 := match t.writeOf w with
      | some x => x.2
      | none => 0
    if need &&& ~~~ written = 0 ∨ (t.readOf w).isSome then s.txTouch t l n ws
    else if txReadMax ≤ t.reads.length then none
    else s.txTouch { t with reads := t.reads ++ [(w, BitVec.ofNat 64 (ofBytes (s.homeRead w 8)))] } l n ws

/-- One byte as the transaction sees it. -/
def LaneTx.byte (t : LaneTx) (l : Loc) : Byte :=
  match txWords l 1 with
  | w :: _ =>
    let j := (Loc.offIn w 8 l).getD 0
    let v : DWord := match t.writeOf w with
      | some x => if x.2.getLsbD j then x.1 else (t.readOf w).getD 0
      | none => (t.readOf w).getD 0
    BitVec.ofNat 8 (v.toNat >>> (8 * j))
  | [] => 0

/-- A transactional load: the lane's log after it and the bytes; none for CAPACITY. -/
def State.txLoad (s : State) (t : LaneTx) (l : Loc) (n : Nat) : Option (LaneTx × List Byte) :=
  (s.txTouch t l n (txWords l n)).map (fun t => (t, (List.range n).map (fun i => t.byte (l.add i))))

/-- A write entry with some bytes of its word replaced. -/
def LaneTx.putWord (t : LaneTx) (w : Loc) (m : BitVec 8) (v : DWord) : LaneTx :=
  let mix (old : DWord) : DWord := BitVec.ofNat 64 (ofBytes ((List.range 8).map (fun j =>
    BitVec.ofNat 8 ((if m.getLsbD j then v else old).toNat >>> (8 * j)))))
  if (t.writeOf w).isSome then
    { t with writes := t.writes.map (fun x => if x.1 == w then (w, mix x.2.1, x.2.2 ||| m) else x) }
  else { t with writes := t.writes ++ [(w, mix 0, m)] }

/-- The value of word w's bytes in n bytes d at l. -/
def wordBytes (w l : Loc) (d : List Byte) : DWord :=
  BitVec.ofNat 64 (ofBytes ((List.range 8).map (fun j =>
    match Loc.offIn l d.length (w.add j) with
    | some k => d.getD k 0
    | none => 0)))

/-- A transactional store; none when it would need a 9th write entry. -/
def LaneTx.store (t : LaneTx) (l : Loc) (d : List Byte) : Option LaneTx :=
  (txWords l d.length).foldl (fun acc w =>
    acc.bind (fun t =>
      if (t.writeOf w).isNone && decide (txWriteMax ≤ t.writes.length) then none
      else some (t.putWord w (byteMask w l d.length) (wordBytes w l d)))) (some t)

/-- The lane's log replaced. -/
def Gang.setTx (g : Gang) (i : Fin 32) (t : LaneTx) : Gang := { g with tx := { g.tx with lanes := g.tx.lanes.set i.val t } }

/-- CAPACITY (R165, R167). -/
def Gang.overflow (g : Gang) (i : Fin 32) : Gang := g.abortLane i 2 true true 0 0 none

/-! Frames of debug windows, other modules and other dies. -/

/-- The route to another module stands and its port is up with a data circuit (12 R438). -/
def State.peerRouted (s : State) (core : CoreId) (pa : Nat) : Bool :=
  let n := s.partNo core
  let r := ((s.parts[n]).routes.getD (peerModule pa) 0).toNat
  let port := r % 16
  decide (128 ≤ r) && (Tbl.get? s.fount.portUp port).isSome &&
    s.circuits.toList.any (fun c => c.valid && c.tuned && c.part == n && c.cls == 0 &&
      (c.epa == 16 + port || c.epb == 16 + port))

/-- An access to a peer frame is admitted: the target module's answer is free (12 R438, log 4). -/
def State.peerAdmits (s : State) (core : CoreId) (pa : Nat) : Bool :=
  s.peerRouted core pa && Config.nat2 s.clock pa % 2 == 0

/-- What the frame of one lane's place adds: window rules, peer routes, data circuits between dies. -/
def State.frameLane (s : State) (core : CoreId) (store home : Bool) (z : Nat) (c : Cap) (creg : Nat) (r : LaneRes) : LaneRes :=
  match r with
  | .at_ (.phys pa) _ =>
    if isWindow pa then
      if home ∨ windowForm pa z = false then .err (capFlt .misaligned c creg)
      else if s.noCore (windowCore pa) then .err (capFlt .notMapped c creg)
      else if store ∧ (s.windowRefused pa ∨ (z = 8 ∧ s.windowRefused (pa + 4))) then .err (capFlt .illegal c creg)
      else r
    else if isPeer pa then
      if home ∨ s.peerAdmits core pa = false then .err (capFlt .notMapped c creg) else r
    else if s.linked core (siteAt (stackDie pa) 0 0) = false then .err (capFlt .notMapped c creg)
    else r
  | .two (.phys a) (.phys b) _ =>
    if (s.part core).ownsPa a = false ∨ (s.part core).ownsPa b = false then .err (capFlt .misaligned c creg)
    else if s.linked core (siteAt (stackDie a) 0 0) = false ∨ s.linked core (siteAt (stackDie b) 0 0) = false then
      .err (capFlt .notMapped c creg)
    else r
  | _ => r

/-- A window of a core that the gang may not act on (11 R395). -/
def State.windowDenied (s : State) (core : CoreId) (slot : SlotId) (g : Gang) (r : LaneRes) : Bool :=
  let out (pa : Nat) : Bool := isWindow pa && !s.mayAct core slot g (windowCore pa)
  match r with
  | .at_ (.phys pa) _ => out pa
  | .two (.phys a) (.phys b) _ => out a || out b
  | _ => false

/-- A gang's place with its frame checked: first that the gang may reach the block at all (11 R395, gang-wide). -/
def State.framed (s : State) (g : Gang) (store home : Bool) (z : Nat) (c : Cap) (creg : Nat) (r : LaneRes) : LaneRes :=
  if s.windowDenied s.cur.core s.cur.slot g r then .err (flt .privilege) else s.frameLane s.cur.core store home z c creg r

/-! Releases before an instruction's effect (05 R147, R159; 03 R108), and ordered events (06 R199). -/

/-- What a release at a scope waits for. -/
def relWhy (scope : Nat) : Why := if scope < 2 then .fenceRead else if scope < 5 then .fenceWrite else .fenceSys

/-- The wait is over: loads returned, and from CREW on every write of the gang and every write it observed performed. -/
def Ctx.waitDone (x : Ctx) (slot : SlotId) (w : Why) : Bool :=
  match w with
  | .fenceRead | .acquire => x.readsDone slot
  | .fenceWrite | .fenceSys => x.readsDone slot && x.writesDone slot
  | _ => false

/-- A delivering fence: kind rel or full at DIE or wider (03 R108). -/
def Gang.deliverAt (g : Gang) (scope : Nat) : Gang := if 3 ≤ scope then g.deliverHeld else g

/-- As if preceded by FENCE.rel at a scope: the gang waits at its word until the release is done, then goes on. -/
def State.relGate (s : State) (g : Gang) (scope : Nat) (k : State → Gang → Res) : Res :=
  let w := relWhy scope
  if g.cnt.relOk ∨ (w ≠ .fenceSys ∧ (s.ctx s.cur.core).waitDone s.cur.slot w) then
    let g := g.deliverAt scope
    k (s.setMe g) g
  else .wait s w

/-- An ordered event of a deterministic partition waits for its turn (06 R199). -/
def State.ordGate (s : State) (g : Gang) (k : Unit → Res) : Res :=
  if (s.part s.cur.core).det ∧ g.cnt.ordOk = false then .wait s .ordered else k ()

/-- A sequentially consistent operation is announced after its release, in the window of the current TICK (05 R154, R155). -/
def State.announce (s : State) (g : Gang) : Res :=
  s.ordGate g (fun _ => s.relGate g 4 (fun s _ => .wait s (.sc (s.now s.cur.core / 32))))

/-! One access of one lane. -/

/-- The window place of a result. -/
def LaneRes.window? : LaneRes → Option Nat
  | .at_ (.phys pa) _ => if isWindow pa then some pa else none
  | _ => none

def LaneRes.loc? : LaneRes → Option Loc
  | .at_ l _ => some l
  | _ => none

def LaneRes.fault? : LaneRes → Option Flt
  | .err f => some f
  | _ => none

def LaneRes.moving? : LaneRes → Option Nat
  | .moving n => some n
  | _ => none

/-- Put an access in flight. -/
def State.send_ (s : State) (core : CoreId) (f : Flight) : State :=
  s.modCtx core (fun x => { x with flights := Tbl.put x.flights x.seq f, seq := x.seq + 1 })

/-- Put a write into the store buffer. -/
def State.buffer (s : State) (core : CoreId) (slot : SlotId) (l : Loc) (n : Nat) (k : BufKind) : State :=
  s.modCtx core (fun x => { x with
    buf := x.buf ++ [⟨x.seq, slot, BitVec.twoPow 8 slot.val, l, n, k⟩], seq := x.seq + 1 })

/-- Gangs of a core that an older access held back try again. -/
def State.wakeHazard (s : State) (core : CoreId) : State :=
  (s.ctx core).gangs.foldl (fun s kg => if kg.2.why? = some .hazard then s.wake core kg.1 else s) s

/-- The lanes of one instruction that name one place share a read (09 R298). -/
def groupLoads (ls : List (Fin 32 × Loc)) : List (Loc × List LaneArg) :=
  ls.foldl (fun acc x =>
    if acc.any (fun y => y.1 == x.2) then
      acc.map (fun y => if y.1 == x.2 then (y.1, y.2 ++ [{ lane := x.1 }]) else y)
    else acc ++ [(x.2, [{ lane := x.1 }])]) []

/-- Write back a load in flight. -/
def Flight.deliver (f : Flight) (b : List Byte) (tag : Bool) (g : Gang) : Gang :=
  let v := ofBytes b
  match f.dst, f.act with
  | .v d, .load sx => f.lanes.foldl (fun g a => g.putLane d a.lane f.size sx v) g
  | .v d, .fields w bit => f.lanes.foldl (fun g a => g.putLane d a.lane 4 false (v >>> bit % 2 ^ w)) g
  | .s d, .load sx => g.setS d (extS f.size sx v)
  | .c d, .capLoad k => g.setC d ⟨BitVec.ofNat 128 v, tag && k⟩
  | _, _ => g

/-- The tag under the store buffer: the read cache's copy for an OBJECT load, else the home's (05 R143). -/
def State.baseTag (s : State) (core : CoreId) (l : Loc) (cached : Bool) : Bool :=
  match l with
  | .phys a =>
    match (if cached then Tbl.get? (s.core core).cache (a / 128) else none) with
    | some line => line.tags.getLsbD (a / 16 % 8)
    | none => s.getTag l
  | _ => s.getTag l

/-- The tag a capability load of n bytes takes: the newest buffered write's that it meets, the read cache's or the home's (09 R304,
02 R53). -/
def State.loadTag (s : State) (core : CoreId) (bound : Nat) (l : Loc) (n : Nat) (cached : Bool) : Bool :=
  match ((s.ctx core).buf.filter (fun e => decide (e.seq < bound) && l.meets n e.loc e.size)).getLast? with
  | some e =>
    match e.kind with
    | .cap _ t | .half _ t _ => e.loc == l && t
    | _ => false
  | none => s.baseTag core l cached

/-- A load in flight may be performed: nothing older of its core meets it (05 R144). -/
def State.loadReady (s : State) (core : CoreId) (n : Nat) (f : Flight) : Bool :=
  (match f.act with
   | .load _ | .capLoad _ | .fields _ _ => true
   | _ => false) &&
  !(s.ctx core).olderFlight n f.loc f.size && (s.loadBytes core n f.loc f.size f.cached).isSome

/-- LOAD_PERFORM (05 R143): a load is performed at its home and its value returns. -/
def execLoadPerform (core : CoreId) (n : Nat) (s : State) : Host.Outcome State Fault Refusal :=
  .next (match Tbl.get? (s.ctx core).flights n with
    | none => s
    | some f =>
      if s.loadReady core n f then
        let s := s.useCache core f.loc f.cached
        let b := (s.loadBytes core n f.loc f.size f.cached).getD []
        let tag := s.loadTag core n f.loc f.size f.cached
        let s := s.markSeen core f.slot n f.loc f.size
        let s := s.modCtx core (fun x => { x with flights := Tbl.del x.flights n })
        ((s.modGang core f.slot (f.deliver b tag)).windowLate core f.slot).wakeHazard core
      else s)

/-- READ_CACHE_LINE_EXPIRY (05 R143 item 4). -/
def lineExpired (s : State) (core : CoreId) (l : CacheLine) : Bool := decide (l.fill + 65536 ≤ s.now core)

def execReadCacheLineExpiry (core : CoreId) (line : Nat) (s : State) : Host.Outcome State Fault Refusal :=
  .next (match Tbl.get? (s.core core).cache line with
    | some l => if lineExpired s core l then s.modCore core (fun k => { k with cache := Tbl.del k.cache line }) else s
    | none => s)

/-! Performing writes. -/

/-- Vectors that a SYS write raises (12 R418). -/
def notifyVectors (nbase : DWord) (a n : Nat) : List Nat :=
  if nbase.getLsbD 0 then
    let base := nbase.toNat / 64 * 64
    ((List.range 16).filter (fun k => decide (1 ≤ k) && decide (a < base + 4 * k + 4) && decide (base + 4 * k < a + n)))
  else []

/-- A place as the routers see it when an access of a core arrives: its own scratchpad is no router away (10 R380). -/
def State.landing (s : State) (by_ : CoreId) (l : Loc) : Loc :=
  match l with
  | .pad c o => if c = by_ then l else .pad (s.route c) o
  | _ => l

/-- A plain write performed at its home (05 R143, 02 R53, R77, 12 R418). -/
def State.performWrite (s : State) (by_ : CoreId) (e : BufEnt) : State :=
  let l := s.landing by_ e.loc
  match e.kind with
  | .bytes d =>
    let s := s.homeWrite by_ l d
    match l with
    | .host a => s.raiseVectors (s.partNo by_) (notifyVectors (s.funcs[s.partNo by_]).nbase a d.length)
    | _ => s
  | .cap d t | .half d t _ => s.capWrite by_ l d t
  | .field bit w v =>
    if s.lostAt l e.size then s else s.homeWrite by_ l ((s.homeRead l e.size).zipIdx.map (fun bj => fieldByte bit w v bj.2 bj.1))
  | .red _ _ _ => s

/-- The entry of the store buffer with the other half of a capability (09 R304). -/
def Ctx.twin? (x : Ctx) (e : BufEnt) : Option BufEnt :=
  match e.kind with
  | .half _ _ n => x.buf.find? (fun y => y.seq == n)
  | _ => none

/-- The entries that leave the store buffer together with an entry, itself among them, in issue order. -/
def Ctx.leaving (x : Ctx) (e : BufEnt) : List BufEnt :=
  match x.twin? e with
  | some t => if e.seq < t.seq then [e, t] else [t, e]
  | none => [e]

/-- A buffered write may leave: writes to one location leave in issue order, after older loads of it (05 R143, R144). -/
def State.storeReady (s : State) (core : CoreId) (e : BufEnt) : Bool :=
  let x := s.ctx core
  let out := x.leaving e
  out.all (fun e => !x.buf.any (fun y => decide (y.seq < e.seq) && !out.contains y && e.loc.meets e.size y.loc y.size) &&
    !x.olderFlight e.seq e.loc e.size)

def isRed : BufKind → Bool
  | .red _ _ _ => true
  | _ => false

/-- STORE_PERFORM (05 R143): a buffered write leaves the store buffer and is performed at its home; the two halves of a capability
are one write (09 R304). -/
def execStorePerform (core : CoreId) (n : Nat) (s : State) : Host.Outcome State Fault Refusal :=
  .next (match (s.ctx core).buf.find? (fun e => e.seq == n) with
    | none => s
    | some e =>
      if s.storeReady core e && !isRed e.kind then
        let out := (s.ctx core).leaving e
        let s := s.modCtx core (fun x => { x with buf := x.buf.filter (fun e => !out.contains e) })
        (out.foldl (fun s e => s.performWrite core e) s).wakeHazard core
      else s)

end Sys2Proof.Machine
end

