-- ==== Sys2Proof/Machine/Memory.lean ====
section
/-! DEFINITION. Loads and stores, bit fields, bit-address registers, capability loads and stores: opcodes 0x70 to 0x7A
(07 R225, 09 R294 to R304), and the completions of waiting loads. -/

namespace Sys2Proof.Machine

/-- How far an access has come: at issue, at the completion of a qualified wait, at the end of its SC window, or at the end of a SYS read with the lanes whose
read failed. -/
inductive Phase
  | issue | full | sc
  | sys (st : SysStatus) (bad : Mask)
deriving DecidableEq

/-- Register numbers that a V datum and a V index name (07 R225, 02 R55). -/
def vNames (d : VReg) (n : Nat) (m : VMem) : List Nat :=
  m.idx.toNat :: (if m.am = 3 then [m.idx.toNat + 1] else []) ++ (List.range n).map (d.toNat + ·)

/-- Index pair of a lane. -/
def Gang.vIndex (g : Gang) (m : VMem) (i : Fin 32) : Int × Int :=
  ((g.v m.idx)[i].toInt, if m.am = 3 then (g.v (nextV m.idx))[i].toInt else 0)

/-- Index pair of an S-index access, read as signed 32 bits (02 R55). -/
def Gang.sIndex (g : Gang) (m : SMem) : Int × Int :=
  (((g.s m.idx).truncate 32).toInt, if m.am = 3 then ((g.s (m.idx + 1)).truncate 32).toInt else 0)

/-- A partition of several dies lacks a notification circuit between two of them (05 R156). -/
def State.noNotify (s : State) (core : CoreId) : Bool :=
  let p := s.partNo core
  let ds := (s.parts[p]).dieList
  ds.any (fun a => ds.any (fun b => decide (a < b) && !s.joined p 2 a.val b.val))

/-- The lane has an open transaction: its accesses are transactional (05 R165). -/
def Gang.txOpen (g : Gang) (i : Fin 32) : Bool := g.inTx && (g.tx.lanes[i]).isOpen

/-- The lane that an S-data access is transactional in: the lowest active one with an open transaction (05 R165). -/
def Gang.txLane (g : Gang) : Option (Fin 32) := (Mask.lanes g.active).find? g.txOpen

/-- Every active lane's accesses are transactional, so that what a transaction asks of the capability is gang-uniform. -/
def Gang.allTx (g : Gang) : Bool := g.inTx && (Mask.lanes g.active).all g.txOpen

/-- What a transactional access asks: A, R and W of the capability and of the record, and a space other than CODE and SYS (R165). -/
def txReach (c : Cap) (r : Reach) : Bool :=
  holds c.perm (pA + pR + pW) &&
    (match r with
     | .object o => holds o.perm (pA + pR + pW)
     | .code _ | .sys => false
     | _ => true)

/-- The gang-uniform part that every load and store shares: R166, R165, R300, R156, then R294 or R69. sc, fe: the qualifier; tx:
all of the access is transactional. -/
def State.openAccess (s : State) (g : Gang) (c : Cap) (creg am need : Nat) (fe sc tx : Bool) : Except Flt Reach :=
  if g.inTx ∧ (fe ∨ sc) then .error (flt .illegal)
  else if fe ∧ c.tag ∧ 2 ≤ c.space ∧ c.space ≤ 4 then .error (capFlt .illegal c creg)
  else if (sc ∨ tx) ∧ c.tag ∧ (c.space = 3 ∨ c.space = 4) then .error (capFlt .capPerm c creg)
  else if sc ∧ s.noNotify s.cur.core then .error (chanFault 2)
  else s.reach s.cur.core c creg am (if tx then Nat.lor need (pA + pR + pW) else need)

/-- Targets of the active lanes, frames checked. A lane whose access is transactional needs what a transaction asks, and reaches no
reserved range (05 R165, 06 R181). -/
def State.laneTargets (s : State) (g : Gang) (c : Cap) (creg am : Nat) (k : Into) (oosz store home : Bool) (r : Reach) (z : Nat)
    (idx : Fin 32 → Int × Int) : List (Fin 32 × LaneRes) :=
  (Mask.lanes g.active).map (fun i =>
    let tx := g.txOpen i
    (i, if tx && !txReach c r then .err (capFlt .capPerm c creg)
        else s.framed g store (home || tx) z c creg
          (s.target s.cur.core c creg am (if tx then .other else k) oosz r z (idx i).1 (idx i).2)))

/-- Outcomes that stop an access before its effect: a denied window, gang-wide; lane faults, those of lost granules among them in the lanes
whose targets stand (01 R30); relocations. -/
def State.laneStops (s : State) (ts : List (Fin 32 × LaneRes)) (lost : List (Fin 32 × Flt) := []) : Option Res :=
  match ts.filterMap (fun t => t.2.fault?.map (fun f => (t.1, f))) with
  | f :: fs =>
    if (f :: fs).any (fun x => x.2.code == .privilege) then some (.fault (flt .privilege))
    else some (.lanes (sortBy (fun x => x.1.val) (f :: fs ++ lost)))
  | [] =>
    match ts.filterMap (fun t => t.2.moving?) with
    | n :: _ => some (.wait s (.moving n))
    | [] => none

/-- As laneStops for the single target of an S-index access: every fault is gang-wide (R294). -/
def State.oneStop (s : State) (t : LaneRes) : Option Res :=
  match t with
  | .err f => some (.fault f)
  | .moving n => some (.wait s (.moving n))
  | _ => none

/-- The places of the lanes whose accesses are transactional. -/
def Gang.txPlaces (g : Gang) (ts : List (Fin 32 × LaneRes)) : List Loc :=
  (ts.filter (fun t => g.txOpen t.1)).filterMap (fun t => t.2.loc?)

/-- Granules of a place in a scratchpad. -/
def Loc.granules (l : Loc) (n : Nat) : List (CoreId × Nat) :=
  match l with
  | .pad c o => (granulesOf o n).map (fun x => (c, x))
  | _ => []

/-- A lane's read meets a granule that cannot be read (02 R60). -/
def State.lostLane (s : State) (t : LaneRes) (z : Nat) : Bool := (t.loc?.map (fun l => s.lostAt l z)).getD false

/-- The lanes whose reads fault DATA_ERROR (02 R60). -/
def State.lostLanes (s : State) (ts : List (Fin 32 × LaneRes)) (z : Nat) (c : Cap) (creg : Nat) : List (Fin 32 × Flt) :=
  (ts.filter (fun t => s.lostLane t.2 z)).map (fun t => (t.1, capFlt .dataError c creg))

/-- Every granule of the places is full and under no accepted copy (02 R61). -/
def State.allFull (s : State) (ls : List Loc) (z : Nat) : Bool :=
  ls.all (fun l => (l.granules z).all (fun g => s.isFull g.1 g.2))

/-- Set the granules of the places empty, once each (R300). -/
def State.consume (s : State) (ls : List Loc) (z : Nat) : State :=
  ((ls.flatMap (fun l => l.granules z)).eraseDups).foldl (fun s g => s.setFull g.1 g.2 false) s

/-- A plain LOCAL load that must wait for a watermark (02 R62). -/
def State.belowMark (s : State) (r : Reach) (ls : List Loc) (z : Nat) : Bool :=
  match r with
  | .local_ => ls.any (fun l =>
      match l with
      | .pad c o => waitsMark (s.ctx c) o z
      | _ => false)
  | _ => false

def Reach.isObject : Reach → Bool
  | .object _ => true
  | _ => false
def Reach.isLocal : Reach → Bool
  | .local_ => true
  | _ => false
def Reach.isSys : Reach → Bool
  | .sys => true
  | _ => false

/-- One lane of a load that ends at issue: a window read, a transactional read, a read at the home by the irrevocable lane, or
a LOCAL read with nothing older in the way. None: the load goes in flight. -/
def State.laneNow (s : State) (tx : Option (Fin 32)) (home now : Bool) (r : LaneRes) (z : Nat) (put : Nat → Gang → Gang) :
    Option State :=
  let core := s.cur.core
  let slot := s.cur.slot
  match r with
  | .at_ l _ =>
    match r.window? with
    | some pa => some ((s.windowReadEffect pa z).modGang core slot (put (ofBytes (s.windowRead pa z))))
    | none =>
      match (if home then none else tx), s.me? with
      | some i, some g =>
        if g.logged i then
          match s.txLoad (g.tx.lanes[i]) l z with
          | some (t, b) => some (s.setMe (put (ofBytes b) (g.setTx i t)))
          | none => some (s.setMe (g.overflow i))
        else some (s.setMe (put (ofBytes (s.homeRead l z)) g))
      | _, _ =>
        if home then some (s.modGang core slot (put (ofBytes (s.homeRead l z))))
        else if now then
          match s.loadBytes core (s.ctx core).seq l z false with
          | some b =>
            if (s.ctx core).olderFlight (s.ctx core).seq l z then none
            else some ((s.markSeen core slot (s.ctx core).seq l z).modGang core slot (put (ofBytes b)))
          | none => none
        else none
  | _ => some (s.modGang core slot (put 0))

/-- P7 of a load under MODE.OOSZ (R296). -/
def Gang.ooszLanes (g : Gang) (r : Reach) (ts : List (Fin 32 × LaneRes)) : Gang :=
  if modeOosz g.regs.mode && r.isObject then
    g.setPLanes 7 (maskOf (fun i => ts.any (fun t => t.1 == i && (match t.2 with | .zero _ => false | _ => true))))
  else g

/-- The core's older accesses to the places, which transactional and home accesses wait for (05 R143 item 5). -/
def State.anyBusy (s : State) (ls : List Loc) (z : Nat) : Bool := ls.any (fun l => (s.ctx s.cur.core).busy l z)

/-- Fault of a failed SYS read (12 R417). -/
def sysFault (st : SysStatus) (c : Cap) (creg : Nat) : Flt :=
  capFlt (match st with | .poisoned => .dataError | _ => .notMapped) c creg

/-- The lanes of a load served: what ends at issue ends, what does not goes in flight, the lanes of one place together (09 R298). -/
def State.serveLanes (s : State) (sc now : Bool) (z : Nat) (ts : List (Fin 32 × LaneRes)) (put : Fin 32 → Nat → Gang → Gang)
    (mk : Loc → List LaneArg → Flight) : State :=
  let (s, later) := ts.foldl (fun (acc : State × List (Fin 32 × Loc)) t =>
    let open_ := ((acc.1.me?).map (fun g => g.txOpen t.1)).getD false
    match acc.1.laneNow (if open_ then some t.1 else none) sc now t.2 z (put t.1) with
    | some s' => (s', acc.2)
    | none =>
      match t.2.loc? with
      | some l => (acc.1, acc.2 ++ [(t.1, l)])
      | none => acc) (s, [])
  (groupLoads later).foldl (fun s x => s.send_ s.cur.core (mk x.1 x.2)) s

/-- LD and LDS (09 R298, R300, R301). -/
def vLoad (sx : Bool) (d : VReg) (m : VMem) (sz : Size) (q : LoadQ) (ph : Phase) (s : State) (g : Gang) : Res :=
  let core := s.cur.core
  let c := g.c m.cap
  let creg := m.cap.toNat
  let z := sizeBytes sz
  let fe := q == .fe || q == .fk
  if g.wideE then .fault (flt .illegal)
  else
    match s.openAccess g c creg m.am.toNat pR fe (q == .sc) g.allTx with
    | .error f => .fault f
    | .ok r =>
      let ts := s.laneTargets g c creg m.am.toNat .load (modeOosz g.regs.mode) false (q == .sc) r z (g.vIndex m)
      match s.laneStops ts (if r.isSys then [] else s.lostLanes ts z c creg) with
      | some x => x
      | none =>
        let ls := ts.filterMap (fun t => t.2.loc?)
        if fe ∧ s.allFull ls z = false then .wait s .full
        else if fe ∧ s.anyBusy ls z then .wait s .hazard
        else if fe = false ∧ ph ≠ .sc ∧ s.belowMark r ls z then .wait s .watermark
        else if q = .sc ∧ ph ≠ .sc then s.announce g
        else if s.anyBusy (g.txPlaces ts) z then .wait s .hazard
        else if r.isSys ∧ ph = .issue ∧ ls ≠ [] then .wait s .sysRead
        else
          let bad : List (Fin 32 × Flt) := match ph with
            | .sys st b => if st = .ok then [] else (ts.filter (fun t => Mask.has b t.1)).map (fun t => (t.1, sysFault st c creg))
            | _ => s.lostLanes ts z c creg
          if bad ≠ [] then .lanes bad
          else
            let s := s.touchLanes core c (ts.map Prod.snd)
            let s := s.modGang core s.cur.slot (fun g => g.ooszLanes r ts)
            let s := s.serveLanes (ph == .sc) (r.isLocal || fe || r.isSys) z ts (fun i v g => g.putLane d i z sx v) (fun l xs =>
              { slot := s.cur.slot, act := .load sx, loc := l, size := z, dst := .v d, lanes := xs, cached := r.isObject })
            if fe then .done (((if q = .fe then s.consume ls z else s)).acquire core (modeScope g.regs.mode))
            else .done s

/-- SLD and SLDS (09 R298, R300, R301). -/
def sLoad (sx : Bool) (d : SReg) (m : SMem) (sz : Size) (q : LoadQ) (ph : Phase) (s : State) (g : Gang) : Res :=
  let core := s.cur.core
  let c := g.c m.cap
  let creg := m.cap.toNat
  let z := sizeBytes sz
  let fe := q == .fe || q == .fk
  let tx := g.txLane
  if m.am = 3 ∧ m.idx = 31 then .fault (flt .illegal)
  else
    match s.openAccess g c creg m.am.toNat pR fe (q == .sc) tx.isSome with
    | .error f => .fault f
    | .ok r =>
      let i := g.sIndex m
      let t := s.framed g false (tx.isSome || q == .sc) z c creg
        (s.target core c creg m.am.toNat (if tx.isSome then .other else .load) (modeOosz g.regs.mode) r z i.1 i.2)
      match s.oneStop t with
      | some x => x
      | none =>
        let ls := t.loc?.toList
        if fe ∧ s.allFull ls z = false then .wait s .full
        else if fe ∧ s.anyBusy ls z then .wait s .hazard
        else if fe = false ∧ ph ≠ .sc ∧ s.belowMark r ls z then .wait s .watermark
        else if q = .sc ∧ ph ≠ .sc then s.announce g
        else if tx.isSome ∧ s.anyBusy ls z then .wait s .hazard
        else if r.isSys ∧ ph = .issue then .wait s .sysRead
        else
          match ph with
          | .sys .refused _ => .fault (sysFault .refused c creg)
          | .sys .poisoned _ => .fault (sysFault .poisoned c creg)
          | _ =>
            if s.lostLane t z then .fault (capFlt .dataError c creg) else
            let s := s.touchLanes core c [t]
            let s := s.modGang core s.cur.slot (fun g =>
              if modeOosz g.regs.mode && r.isObject then
                g.setP 7 (match t with | .zero _ => 0 | _ => BitVec.allOnes 32)
              else g)
            let put := fun (v : Nat) (g : Gang) => g.setS d (extS z sx v)
            let s := match s.laneNow tx (ph == .sc) (r.isLocal || fe || r.isSys) t z put with
              | some s' => s'
              | none => s.send_ core { slot := s.cur.slot, act := .load sx, loc := t.loc?.getD (.phys 0), size := z, dst := .s d,
                                       lanes := [{ lane := 0 }], cached := r.isObject }
            if fe then .done ((if q = .fe then s.consume ls z else s).acquire core (modeScope g.regs.mode))
            else .done s

/-- LD (09 R298). -/
def execLd (d : VReg) (m : VMem) (sz : Size) (q : LoadQ) (s : State) : Host.Outcome State Fault Refusal :=
  runFull .u (vNames d (sizeRegs sz) m) false (vLoad false d m sz q .issue) s

/-- LDS (09 R298). -/
def execLds (d : VReg) (m : VMem) (sz : Size) (q : LoadQ) (s : State) : Host.Outcome State Fault Refusal :=
  runFull .u (vNames d (sizeRegs sz) m) false (vLoad true d m sz q .issue) s

/-- SLD (09 R298). -/
def execSld (d : SReg) (m : SMem) (sz : Size) (q : LoadQ) (s : State) : Host.Outcome State Fault Refusal :=
  runFull .u [] false (sLoad false d m sz q .issue) s

/-- SLDS (09 R298). -/
def execSlds (d : SReg) (m : SMem) (sz : Size) (q : LoadQ) (s : State) : Host.Outcome State Fault Refusal :=
  runFull .u [] false (sLoad true d m sz q .issue) s

/-! Stores (09 R299). -/

/-- One lane of a store: a window write, a transactional write, a write at the home by the irrevocable lane, a LOCAL write at
once, or an entry of the store buffer (05 R143). -/
def State.laneStore (s : State) (tx : Option (Fin 32)) (home : Bool) (r : Reach) (t : LaneRes) (d : List Byte) : State :=
  let core := s.cur.core
  match t with
  | .at_ l _ =>
    match t.window? with
    | some pa => s.windowWrite pa d.length (ofBytes d) ((s.me?.map Gang.priv) == some .p)
    | none =>
      match tx, s.me? with
      | some i, some g =>
        if g.logged i then
          match (g.tx.lanes[i]).store l d with
          | some t => s.setMe (g.setTx i t)
          | none => s.setMe (g.overflow i)
        else s.homeWrite core l d
      | _, _ =>
        if r.isLocal || home then s.homeWrite core l d
        else s.buffer core s.cur.slot l d.length (.bytes d)
  | _ => s

/-- ST (09 R299, R301). A store at the home at once (LOCAL, transactions) waits for the core's older accesses to its places. -/
def vStore (d : VReg) (m : VMem) (sz : Size) (q : StoreQ) (ph : Phase) (s : State) (g : Gang) : Res :=
  let core := s.cur.core
  let c := g.c m.cap
  let creg := m.cap.toNat
  let z := sizeBytes sz
  if g.wideE then .fault (flt .illegal)
  else
    match s.openAccess g c creg m.am.toNat pW false (q == .sc) g.allTx with
    | .error f => .fault f
    | .ok r =>
      let ts := s.laneTargets g c creg m.am.toNat .other false true (q == .sc) r z (g.vIndex m)
      match s.laneStops ts with
      | some x => x
      | none =>
        let ls := if r.isLocal then ts.filterMap (fun t => t.2.loc?) else g.txPlaces ts
        if q = .sc ∧ ph ≠ .sc then s.announce g
        else if ph ≠ .sc ∧ s.anyBusy ls z then .wait s .hazard
        else
          let s := s.touchLanes core c (ts.map Prod.snd)
          .done (ts.foldl (fun s t =>
            s.laneStore (if g.txOpen t.1 then some t.1 else none) (ph == .sc) r t.2 (toBytes z (g.laneDatum d t.1 z))) s)

/-- SST (09 R299, R301). -/
def sStore (d : SReg) (m : SMem) (sz : Size) (q : StoreQ) (ph : Phase) (s : State) (g : Gang) : Res :=
  let core := s.cur.core
  let c := g.c m.cap
  let creg := m.cap.toNat
  let z := sizeBytes sz
  let tx := g.txLane
  if m.am = 3 ∧ m.idx = 31 then .fault (flt .illegal)
  else
    match s.openAccess g c creg m.am.toNat pW false (q == .sc) tx.isSome with
    | .error f => .fault f
    | .ok r =>
      let i := g.sIndex m
      let t := s.framed g true (tx.isSome || q == .sc) z c creg
        (s.target core c creg m.am.toNat .other false r z i.1 i.2)
      match s.oneStop t with
      | some x => x
      | none =>
        if q = .sc ∧ ph ≠ .sc then s.announce g
        else if (r.isLocal ∨ tx.isSome) ∧ ph ≠ .sc ∧ s.anyBusy t.loc?.toList z then .wait s .hazard
        else .done ((s.touchLanes core c [t]).laneStore tx (ph == .sc) r t (toBytes z (g.s d).toNat))

/-- ST (09 R299). -/
def execSt (d : VReg) (m : VMem) (sz : Size) (q : StoreQ) (s : State) : Host.Outcome State Fault Refusal :=
  runFull .u (vNames d (sizeRegs sz) m) false (vStore d m sz q .issue) s

/-- SST (09 R299). -/
def execSst (d : SReg) (m : SMem) (sz : Size) (q : StoreQ) (s : State) : Host.Outcome State Fault Refusal :=
  runFull .u [] false (sStore d m sz q .issue) s

/-! Capability loads and stores (09 R304). -/

/-- The target of a capability access: a 16-aligned granule, or elements f and f + 1 of a LINEAR i64 or n64 object. -/
def State.capTarget (s : State) (core : CoreId) (c : Cap) (creg am : Nat) (k : Into) (r : Reach) (i0 i1 : Int) :
    LaneRes × List LaneRes :=
  match r with
  | .object o =>
    let (co, f) := o.coords c.origin am i0 i1
    let a := s.elemTarget core c creg o co f 8 false
    let ok := o.layout == 0 && (o.fmt == 13 || o.fmt == 14) && f % 2 == 0
    match a with
    | .err e =>
      (if ok || e.code == .outOfShape || e.code == .capBounds then a
       else .err (offFlt (capFlt .misaligned c creg) f), [])
    | .zero _ | .two _ _ _ | .moving _ =>
      (if ok then a else .err (offFlt (capFlt .misaligned c creg) f), [])
    | .at_ l n =>
      if ok then
        let f1 := f + 1
        let b := s.elemTarget core c creg o
          (if f1 < (o.size : Nat) then decompose o.dims2 f1.toNat else o.dims2.map (fun _ => -1)) f1 8 false
        match b, l with
        | .at_ h _, .phys p =>
          (if h = l.add 8 ∧ p % 16 = 0 then .at_ l n else .two l h n, [a, b])
        | _, _ => (b, [a])
      else (.err (offFlt (capFlt .misaligned c creg) f), [])
  | _ =>
    let t := s.byteTarget core c creg am k r ((c.origin : Int) + i0 * 16) 16 16
    (t, [t])

/-- A capability's 16 bytes. -/
def Cap.bytes (c : Cap) : List Byte := toBytes 16 c.val.toNat

/-- The halves of a capability's place, each with its bytes: one granule, or two elements that are not one (09 R304). -/
def LaneRes.halves (t : LaneRes) : List (Loc × Nat) :=
  match t with
  | .at_ l _ => [(l, 16)]
  | .two a b _ => [(a, 8), (b, 8)]
  | _ => []

/-- The tag that the halves of a capability give: of two, both and a free bit, since the spec gives two granules no common tag
(log 29). -/
def State.joinTags (s : State) (ts : List Bool) : Bool :=
  ts.all id && ts != [] && (ts.length == 1 || (Config.word s.clock).getLsbD 0)

/-- A transactional LDC: a load of two words with its tag read at the home (09 R304, 05 R165). -/
def State.txCapLoad (s : State) (g : Gang) (j : Fin 32) (d : CReg) (keep : Bool) (ls : List (Loc × Nat)) : State :=
  let tag := s.joinTags (ls.map (fun l => s.getTag l.1))
  if g.logged j then
    match ls.foldl (fun (acc : Option (LaneTx × List Byte)) l =>
        acc.bind (fun x => (s.txLoad x.1 l.1 l.2).map (fun y => (y.1, x.2 ++ y.2)))) (some (g.tx.lanes[j], [])) with
    | none => s.setMe (g.overflow j)
    | some (x, b) =>
      let dirty := ls.any (fun l => (txWords l.1 l.2).any (fun w => (x.writeOf w).isSome))
      s.setMe ((g.setTx j x).setC d ⟨BitVec.ofNat 128 (ofBytes b), tag && !dirty && keep⟩)
  else
    s.setMe (g.setC d ⟨BitVec.ofNat 128 (ofBytes (ls.flatMap (fun l => s.homeRead l.1 l.2))), tag && keep⟩)

/-- An LDC that ends at issue, through the store buffer and the read cache; none while a reduction or an older access holds it back. -/
def State.capNow (s : State) (d : CReg) (keep cached : Bool) (ls : List (Loc × Nat)) : Option State :=
  let core := s.cur.core
  let s := ls.foldl (fun s l => s.useCache core l.1 cached) s
  let x := s.ctx core
  match allSome (ls.map (fun l => if x.olderFlight x.seq l.1 l.2 then none else s.loadBytes core x.seq l.1 l.2 cached)) with
  | some b =>
    let tag := s.joinTags (ls.map (fun l => s.loadTag core x.seq l.1 l.2 cached))
    let s := ls.foldl (fun s l => s.markSeen core s.cur.slot x.seq l.1 l.2) s
    some (s.modGang core s.cur.slot (fun g => g.setC d ⟨BitVec.ofNat 128 (ofBytes b.flatten), tag && keep⟩))
  | none => none

/-- LDC (09 R304). -/
def capLoad (d : CReg) (m : SMem) (ph : Phase) (s : State) (g : Gang) : Res :=
  let core := s.cur.core
  let c := g.c m.cap
  let creg := m.cap.toNat
  let tx := g.txLane
  if m.am = 3 ∧ m.idx = 31 then .fault (flt .illegal)
  else
    match s.openAccess g c creg m.am.toNat pR false false tx.isSome with
    | .error f => .fault f
    | .ok r =>
      let i := g.sIndex m
      let (t0, uses) := s.capTarget core c creg m.am.toNat (if tx.isSome then .other else .load) r i.1 i.2
      let t := s.framed g false tx.isSome 16 c creg t0
      let keep := holds c.perm pK && decide (c.space ≤ 2)
      match s.oneStop t with
      | some x => x
      | none =>
        let ls := t.halves
        if s.belowMark r t.loc?.toList 16 then .wait s .watermark
        else if tx.isSome ∧ ls.any (fun l => (s.ctx core).busy l.1 l.2) then .wait s .hazard
        else if r.isSys ∧ ph = .issue then .wait s .sysRead
        else
          match ph with
          | .sys .refused _ => .fault (sysFault .refused c creg)
          | .sys .poisoned _ => .fault (sysFault .poisoned c creg)
          | _ =>
            if s.lostLane t 16 then .fault (capFlt .dataError c creg) else
            let s := s.touchLanes core c uses
            match tx with
            | some j => .done (s.txCapLoad g j d keep ls)
            | none =>
              match (if r.isLocal ∨ r.isSys ∨ ls.length = 2 then s.capNow d keep r.isObject ls else none), t with
              | some s, _ => .done s
              | none, .at_ l _ =>
                .done (s.send_ core { slot := s.cur.slot, act := .capLoad keep, loc := l, size := 16, dst := .c d,
                                      lanes := [{ lane := 0 }], cached := r.isObject })
              | none, _ => .wait s .hazard

/-- LDC (09 R304). -/
def execLdc (d : CReg) (m : SMem) (s : State) : Host.Outcome State Fault Refusal :=
  runFull .u [] false (capLoad d m .issue) s

/-- STC (09 R304, 02 R53). Two elements that are not one granule enter the store buffer as one write of two halves. -/
def capStore (d : CReg) (m : SMem) (s : State) (g : Gang) : Res :=
  let core := s.cur.core
  let c := g.c m.cap
  let creg := m.cap.toNat
  if g.inTx ∨ (m.am = 3 ∧ m.idx = 31) then .fault (flt .illegal)
  else if c.tag ∧ (c.space = 3 ∨ c.space = 4) then .fault (capFlt .capPerm c creg)
  else
    match s.reach core c creg m.am.toNat (pW + pK) with
    | .error f => .fault f
    | .ok r =>
      let i := g.sIndex m
      let (t0, uses) := s.capTarget core c creg m.am.toNat .other r i.1 i.2
      let t := s.framed g true false 16 c creg t0
      match s.oneStop t with
      | some x => x
      | none =>
        let x := g.c d
        let b := x.bytes
        let s' := s.touchLanes core c uses
        match t with
        | .at_ l _ =>
          if r.isLocal then
            if (s.ctx core).busy l 16 then .wait s .hazard
            else .done (s'.capWrite core l b x.tag)
          else .done (s'.buffer core s.cur.slot l 16 (.cap b x.tag))
        | .two a h _ =>
          let tag := s.joinTags [x.tag, x.tag]
          let n := (s.ctx core).seq
          .done ((s'.buffer core s.cur.slot a 8 (.half (b.take 8) tag (n + 1))).buffer core s.cur.slot h 8 (.half (b.drop 8) tag n))
        | _ => .done s

/-- STC (09 R304). -/
def execStc (d : CReg) (m : SMem) (s : State) : Host.Outcome State Fault Refusal :=
  runFull .u [] false (capStore d m) s

/-! Bit fields (02 R76, R77; 09 R302). -/

/-- Target of one lane's field: its first byte, with the bytes it touches. A field that lies in two scratchpads is MISALIGNED (02 R76),
but it meets the log range at the end of the first, so step 5 of R294 stops it with CAP_BOUNDS before. -/
def State.bitTarget (s : State) (core : CoreId) (c : Cap) (creg : Nat) (k : Into) (r : Reach) (b w : Nat) : LaneRes × Nat :=
  let o := b / 8
  let n := (b + w - 1) / 8 - o + 1
  (s.byteTarget core c creg (if r.isLocal then 0 else 1) k r o n 1, n)

/-- The fields of the active lanes: lane, target, bytes touched, bit in the first byte. -/
def State.bitLanes (s : State) (g : Gang) (c : Cap) (creg : Nat) (k : Into) (r : Reach) (ba w : Nat) :
    List (Fin 32 × LaneRes × Nat × Nat) :=
  (Mask.lanes g.active).map (fun i =>
    let b := 8 * c.origin + ba + i.val * w
    let tx := g.txOpen i
    let (t, n) := s.bitTarget s.cur.core c creg (if tx then .other else k) r b w
    (i, if tx && !txReach c r then .err (capFlt .capPerm c creg) else t, n, b % 8))

/-- BA after an access with INC (R302). -/
def Gang.stepBa (g : Gang) (k : BaReg) (w : Nat) (inc : Bool) : Gang :=
  if inc then { g with regs := { g.regs with ba := g.regs.ba.set k.toNat (g.regs.ba[k.toFin] + BitVec.ofNat 48 (32 * w)) k.isLt } }
  else g

/-- What LDB and STB share before their effect. -/
def State.openBits (s : State) (g : Gang) (c : Cap) (creg need : Nat) : Except Flt Reach :=
  if g.wideE then .error (flt .illegal)
  else if c.tag ∧ 2 ≤ c.space ∧ c.space ≤ 4 then .error (capFlt .illegal c creg)
  else s.reach s.cur.core c creg (if c.space = 1 then 1 else 0) (if g.allTx then pA + pR + pW else need)

/-- Fields that wait for the core's older accesses: those of transactional lanes, and where all all of them. -/
def State.bitsBusy (s : State) (g : Gang) (all : Bool) (ts : List (Fin 32 × LaneRes × Nat × Nat)) : Bool :=
  ts.any (fun t => (all || g.txOpen t.1) && (t.2.1.loc?.map (fun l => (s.ctx s.cur.core).busy l t.2.2.1)).getD false)

/-- The lanes whose fields meet a lost granule (02 R60): STB reads its granule too. -/
def State.lostFields (s : State) (c : Cap) (creg : Nat) (ts : List (Fin 32 × LaneRes × Nat × Nat)) : List (Fin 32 × Flt) :=
  (ts.filter (fun t => s.lostLane t.2.1 t.2.2.1)).map (fun t => (t.1, capFlt .dataError c creg))

/-- LDB (09 R302). -/
def bitLoad (cap : CReg) (d : VReg) (ba : BaReg) (w1 : BitVec 5) (inc : Bool) (s : State) (g : Gang) : Res :=
  let core := s.cur.core
  let c := g.c cap
  let w := w1.toNat + 1
  match s.openBits g c cap.toNat pR with
  | .error f => .fault f
  | .ok r =>
    let ts := s.bitLanes g c cap.toNat .load r (g.regs.ba[ba.toFin]).toNat w
    match s.laneStops (ts.map (fun t => (t.1, t.2.1))) (s.lostFields c cap.toNat ts) with
    | some x => x
    | none =>
      let ls := ts.filterMap (fun t => t.2.1.loc?.map (fun l => (l, t.2.2.1)))
      if r.isLocal ∧ ls.any (fun l => s.belowMark r [l.1] l.2) then .wait s .watermark
      else if s.bitsBusy g false ts then .wait s .hazard
      else if s.lostFields c cap.toNat ts ≠ [] then .lanes (s.lostFields c cap.toNat ts)
      else
        .done ((ts.foldl (fun s t =>
          let put := fun (v : Nat) (g : Gang) => g.putLane d t.1 4 false (v >>> t.2.2.2 % 2 ^ w)
          match s.laneNow (if g.txOpen t.1 then some t.1 else none) false r.isLocal t.2.1 t.2.2.1 put with
          | some s' => s'
          | none => s.send_ core { slot := s.cur.slot, act := .fields w t.2.2.2, loc := t.2.1.loc?.getD (.phys 0),
                                   size := t.2.2.1, dst := .v d, lanes := [{ lane := t.1 }] }) s).modGang core s.cur.slot
          (fun g => g.stepBa ba w inc))

/-- One lane's field stored: logged, at the home by the irrevocable lane, at once in LOCAL, or through the store buffer. DESIGN CHOICE
(log 79): a transactional STB first loads the words of its field, so that they have read entries. -/
def State.fieldStore (s : State) (i : Fin 32) (r : Reach) (l : Loc) (n bit w v : Nat) : State :=
  let core := s.cur.core
  let mix (b : List Byte) : List Byte := b.zipIdx.map (fun bj => fieldByte bit w v bj.2 bj.1)
  match s.me? with
  | none => s
  | some g =>
    if g.txOpen i then
      if g.logged i then
        match (s.txLoad (g.tx.lanes[i]) l n).bind (fun x => x.1.store l (mix x.2)) with
        | some x => s.setMe (g.setTx i x)
        | none => s.setMe (g.overflow i)
      else s.homeWrite core l (mix (s.homeRead l n))
    else if r.isLocal then s.homeWrite core l (mix (s.homeRead l n))
    else s.buffer core s.cur.slot l n (.field bit w v)

/-- STB (09 R302, 02 R77): a read-modify-write of the granule at its owning core. -/
def bitStore (cap : CReg) (d : VReg) (ba : BaReg) (w1 : BitVec 5) (inc : Bool) (s : State) (g : Gang) : Res :=
  let core := s.cur.core
  let c := g.c cap
  let w := w1.toNat + 1
  match s.openBits g c cap.toNat pW with
  | .error f => .fault f
  | .ok r =>
    let ts := s.bitLanes g c cap.toNat .other r (g.regs.ba[ba.toFin]).toNat w
    match s.laneStops (ts.map (fun t => (t.1, t.2.1))) (s.lostFields c cap.toNat ts) with
    | some x => x
    | none =>
      if s.bitsBusy g r.isLocal ts then .wait s .hazard
      else if s.lostFields c cap.toNat ts ≠ [] then .lanes (s.lostFields c cap.toNat ts)
      else
        .done ((ts.foldl (fun s t =>
          match t.2.1 with
          | .at_ l _ => s.fieldStore t.1 r l t.2.2.1 t.2.2.2 w (((g.v d)[t.1]).toNat % 2 ^ w)
          | _ => s) s).modGang core s.cur.slot (fun g => g.stepBa ba w inc))

/-- LDB (09 R302). -/
def execLdb (cap : CReg) (d : VReg) (ba : BaReg) (w1 : BitVec 5) (inc : Bool) (s : State) : Host.Outcome State Fault Refusal :=
  runFull .u [d.toNat] false (bitLoad cap d ba w1 inc) s

/-- STB (09 R302). -/
def execStb (cap : CReg) (d : VReg) (ba : BaReg) (w1 : BitVec 5) (inc : Bool) (s : State) : Host.Outcome State Fault Refusal :=
  runFull .u [d.toNat] false (bitStore cap d ba w1 inc) s

/-! Bit-address registers (09 R303). -/

/-- BASET (09 R303). -/
def execBaset (k : BaReg) (b : SReg) (s : State) : Host.Outcome State Fault Refusal :=
  runGang [] (fun g =>
    if bits (g.s b) 63 48 ≠ 0 then .fault (flt .illegal)
    else .done { g with regs := { g.regs with ba := g.regs.ba.set k.toNat ((g.s b).truncate 48) k.isLt } }) s

/-- BAGET (09 R303). -/
def execBaget (k : BaReg) (b : SReg) (s : State) : Host.Outcome State Fault Refusal :=
  runGang [] (fun g => .done (g.setS b ((g.regs.ba[k.toFin]).zeroExtend 64))) s

/-- BAADD (09 R303): S[B] read signed, modulo 2^48. -/
def execBaadd (k : BaReg) (b : SReg) (s : State) : Host.Outcome State Fault Refusal :=
  runGang [] (fun g => .done { g with regs := { g.regs with
    ba := g.regs.ba.set k.toNat (g.regs.ba[k.toFin] + (g.s b).truncate 48) k.isLt } }) s

/-! Completions. -/

/-- The body of a load or store word, at a phase. -/
def loadBody (ph : Phase) (i : Instr) : Option (State → Gang → Res) :=
  match i with
  | .st d m sz q => some (vStore d m sz q ph)
  | .sst d m sz q => some (sStore d m sz q ph)
  | .ld d m sz q => some (vLoad false d m sz q ph)
  | .lds d m sz q => some (vLoad true d m sz q ph)
  | .sld d m sz q => some (sLoad false d m sz q ph)
  | .slds d m sz q => some (sLoad true d m sz q ph)
  | .ldc d m => some (capLoad d m ph)
  | .ldb cap d ba w1 inc => some (bitLoad cap d ba w1 inc)
  | _ => none

/-- Complete a body with the executing gang. -/
def State.runBody (s : State) (body : State → Gang → Res) : State :=
  s.complete (fun s => match s.me? with
    | some g => body s g
    | none => .gone s)

/-- The word a gang waits at. -/
def Gang.waitWord (g : Gang) : Word :=
  match g.status with
  | .waiting w => w.word
  | _ => 0

/-- Run the load that a gang waits at again, at a phase. -/
def State.reload (s : State) (c : CoreId) (k : SlotId) (ph : Phase) : State :=
  match s.gang? c k with
  | none => s
  | some g =>
    match (decode g.waitWord).bind (loadBody ph) with
    | some body => s.asGang c k (fun s => s.runBody body)
    | none => s

/-- A waiting gang whose wait satisfies a test has moved on in s'. -/
def movedOn (s s' : State) (c : CoreId) (k : SlotId) : Bool :=
  (s.gang? c k).bind Gang.why? != (s'.gang? c k).bind Gang.why?

/-- Whether the gang of a slot waits for a reason. -/
def State.waits (s : State) (c : CoreId) (k : SlotId) (w : Why) : Bool := (s.gang? c k).bind Gang.why? == some w

/-- WATERMARK_LOAD_RELEASE (02 R62). -/
def watermarkReady (s : State) (core : CoreId) (slot : SlotId) : Bool :=
  s.waits core slot .watermark && movedOn s (s.reload core slot .issue) core slot

def execWatermarkLoadRelease (core : CoreId) (slot : SlotId) (s : State) : Host.Outcome State Fault Refusal :=
  .next (if watermarkReady s core slot then s.reload core slot .issue else s)

/-- The lanes whose SYS read fails: a free choice among the active ones, at least one (log 4). -/
def badLanes (s : State) (g : Gang) : Mask :=
  let m := g.active &&& (Config.word s.clock).truncate 32
  if m = 0 then (match Mask.lowest g.active with | some i => BitVec.twoPow 32 i.val | none => 0) else m

/-- The end of a SYS read: a load completes; the flushing read of a fence lets the fence go on or faults it (12 R417). -/
def State.sysEnd (s : State) (core : CoreId) (slot : SlotId) (st : SysStatus) : State :=
  match s.gang? core slot with
  | none => s
  | some g =>
    match g.why? with
    | some .sysRead => s.reload core slot (.sys st (badLanes s g))
    | some .fenceSys =>
      if st = .ok then s
      else s.asGang core slot (fun s => s.halt core slot (flt .dataError) g.active g.waitWord)
    | _ => s

/-- SYS_READ_COMPLETION (12 R417). -/
def execSysReadCompletion (core : CoreId) (slot : SlotId) (status : SysStatus) (s : State) : Host.Outcome State Fault Refusal :=
  .next (s.sysEnd core slot status)

/-- SYS_READ_TIMEOUT (12 R417). -/
def execSysReadTimeout (core : CoreId) (slot : SlotId) (s : State) : Host.Outcome State Fault Refusal :=
  .next (s.sysEnd core slot .poisoned)

end Sys2Proof.Machine
end

