-- ==== Sys2Proof/Machine/Sync.lean ====
section
/-! DEFINITION. Fences, engine barriers, crew barriers, full/empty bits and watermarks: opcodes 0x18 to 0x1D (07 R218,
09 R318 to R322, 05 R146 to R153), their completions, and the release of ordered events (06 R199). -/

namespace Sys2Proof.Machine

/-! FENCE (09 R318). -/

def Scope.num : Scope → Nat
  | .gang => 0 | .core => 1 | .crew => 2 | .die => 3 | .pkg => 4 | .sys => 5

/-- What a fence waits for. -/
def fenceWhy (k : FenceKind) (scope : Nat) : Why :=
  match k with
  | .acq => .fenceRead
  | .rel | .full => relWhy scope

/-- The effect of a fence that has completed (05 R147, 03 R108). -/
def State.fenceEffect (s : State) (k : FenceKind) (scope : Nat) : State :=
  let s := match k with
    | .rel => s
    | .acq | .full => s.acquire s.cur.core scope
  match k with
  | .acq => s
  | .rel | .full => s.modGang s.cur.core s.cur.slot (fun g => g.deliverAt scope)

/-- The scope a fence names, or MODE.SCOPE. -/
def Gang.fenceScope (g : Gang) (sc : Option Scope) : Nat :=
  match sc with
  | some x => Scope.num x
  | none => modeScope g.regs.mode

/-- The body of FENCE. -/
def fenceBody (k : FenceKind) (sc : Option Scope) (s : State) (g : Gang) : Res :=
  let scope := g.fenceScope sc
  let w := fenceWhy k scope
  if g.inTx then .fault (flt .illegal)
  else if g.cnt.relOk ∨ (w ≠ .fenceSys ∧ (s.ctx s.cur.core).waitDone s.cur.slot w) then .done (s.fenceEffect k scope)
  else .wait s w

/-- FENCE (09 R318). -/
def execFence (kind : FenceKind) (scope : Option Scope) (s : State) : Host.Outcome State Fault Refusal :=
  runFull .u [] false (fenceBody kind scope) s

/-- A gang waits for a fence whose condition holds. -/
def fenceReady (s : State) (core : CoreId) (slot : SlotId) : Bool :=
  match (s.gang? core slot).bind Gang.why? with
  | some w => (s.ctx core).waitDone slot w
  | none => false

/-- FENCE_COMPLETE (05 R147): a FENCE retires; an instruction that a release precedes goes on; an atomic's acquire ends. -/
def execFenceComplete (core : CoreId) (slot : SlotId) (s : State) : Host.Outcome State Fault Refusal :=
  .next (
    if fenceReady s core slot then
      match s.gang? core slot with
      | none => s
      | some g =>
        if g.why? = some .acquire then
          s.asGang core slot (fun s => (s.acquire core (modeScope g.regs.mode)).retire none)
        else
          let s := s.modGang core slot (fun g => { g with cnt := { g.cnt with relOk := true } })
          match decode g.waitWord with
          | some (.fence k sc) => s.asGang core slot (fun s => s.runBody (fenceBody k sc))
          | _ => s.wake core slot
    else s)

/-! XFENCE (05 R150, 09 R319). -/

/-- Everything of the named classes that the gang has issued is done. -/
def State.classesDone (s : State) (core : CoreId) (slot : SlotId) (f : BitVec 4) : Bool :=
  let x := s.ctx core
  (!f.getLsbD 0 || (x.readsDone slot && x.writesDone slot)) &&
  (!f.getLsbD 1 || x.copies.all (fun y => y.2.slot != slot)) &&
  (!f.getLsbD 2 || x.ops.all (fun o => o.slot != slot || o.held)) &&
  (!f.getLsbD 3 || (match s.gang? core slot with | some g => g.selIn.isEmpty | none => true))

/-- The body of XFENCE. -/
def xfenceBody (f t : BitVec 4) (s : State) (g : Gang) : Res :=
  if g.inTx then .fault (flt .illegal)
  else if f = 0 ∨ t = 0 then .done s
  else if s.classesDone s.cur.core s.cur.slot f then
    .done (if f.getLsbD 0 then s.setMe g.deliverHeld else s)
  else .wait s (.xfence f t s.clock)

/-- XFENCE (09 R319). -/
def execXfence (from_ to_ : BitVec 4) (s : State) : Host.Outcome State Fault Refusal :=
  runFull .u [] false (xfenceBody from_ to_) s

/-- XFENCE_COMPLETE (05 R150). -/
def xfenceReady (s : State) (core : CoreId) (slot : SlotId) : Bool :=
  match (s.gang? core slot).bind Gang.why? with
  | some (.xfence f _ _) => s.classesDone core slot f
  | _ => false

def execXfenceComplete (core : CoreId) (slot : SlotId) (s : State) : Host.Outcome State Fault Refusal :=
  .next (
    match (s.gang? core slot).bind Gang.why? with
    | some (.xfence f t _) =>
      if s.classesDone core slot f then s.asGang core slot (fun s => s.runBody (xfenceBody f t)) else s
    | _ => s)

/-! Crew barriers (01 R36, 05 R148, 09 R320). -/

/-- The gangs of a context with the site they belong to. -/
def Ctx.gangsAt (x : Ctx) (c : CoreId) : List (CoreId × SlotId × Gang) :=
  x.gangs.map (fun kg => (x.origin.getD c, kg.1, kg.2))

/-- Every gang of a partition: live, in Tarn stores and spilled. -/
def State.residents (s : State) (n : Fin 4) : List (CoreId × SlotId × Gang) :=
  let p := s.parts[n]
  (s.coresOf p).flatMap (fun c => (s.ctx c).gangsAt c ++ (match (s.core c).tarn with | some x => x.gangsAt c | none => []))
    ++ (p.spills.filter (fun x => !p.filled.contains x.1)).flatMap (fun x => x.2.gangsAt 0)

/-- Phase I on the waiter's die, or phase X, of instance j: every gang of the crew there has arrived; a gang that has exited
counts as arrived. DEDUCED (log 95): a shadow gang, which has its pair's work identifier (01 R34, 06 R178), is a gang of the crew and
arrives for itself. -/
def State.barrierDone (s : State) (core : CoreId) (g : Gang) (x : Bool) : Bool :=
  (s.residents (s.partNo core)).all (fun y =>
    y.2.2.ident.crew != g.ident.crew || (!x && dieOf y.1 != dieOf (s.origin core)) ||
      decide (g.cnt.arrived ≤ y.2.2.cnt.arrived))

/-- BARARV (09 R320): FENCE.rel.CREW, then the arrival. -/
def execBararv (s : State) : Host.Outcome State Fault Refusal :=
  runFull .u [] false (fun s g =>
    if g.inTx then .fault (flt .illegal)
    else s.relGate g 2 (fun s g => .done (s.setMe { g with cnt := { g.cnt with arrived := g.cnt.arrived + 1 } }))) s

/-- The instance is complete, and the gang's earlier loads have returned, as FENCE.acq.CREW asks (05 R148). -/
def State.barrierOver (s : State) (core : CoreId) (slot : SlotId) (g : Gang) (x : Bool) : Bool :=
  s.barrierDone core g x && (s.ctx core).readsDone slot

/-- The body of BARWT. -/
def barwtBody (x : Bool) (s : State) (g : Gang) : Res :=
  if g.inTx then .fault (flt .illegal)
  else if g.cnt.arrived = 0 then .done s
  else if s.barrierOver s.cur.core s.cur.slot g x then .done (s.acquire s.cur.core 2)
  else .wait s (if x then .barX else .barI)

/-- BARWT.I (09 R320). -/
def execBarwtI (s : State) : Host.Outcome State Fault Refusal := runFull .u [] false (barwtBody false) s

/-- BARWT.X (09 R320). -/
def execBarwtX (s : State) : Host.Outcome State Fault Refusal := runFull .u [] false (barwtBody true) s

/-- BARWT_RELEASE (01 R36). -/
def barwtReady (s : State) (core : CoreId) (slot : SlotId) : Bool :=
  match s.gang? core slot with
  | some g =>
    match g.why? with
    | some .barI => s.barrierOver core slot g false
    | some .barX => s.barrierOver core slot g true
    | _ => false
  | none => false

def execBarwtRelease (core : CoreId) (slot : SlotId) (s : State) : Host.Outcome State Fault Refusal :=
  .next (
    if barwtReady s core slot then
      let x := s.waits core slot .barX
      s.asGang core slot (fun s => s.runBody (barwtBody x))
    else s)

/-! Full/empty bits (09 R321). -/

/-- Scratchpad runs of a LOCAL or blocked NEAR range: core, first byte, bytes. -/
def State.padRuns (_s : State) (r : Reach) (c : Cap) (core : CoreId) : List (CoreId × Nat × Nat) :=
  match r with
  | .near home other _ =>
    (List.range 16).filterMap (fun p =>
      let lo := max c.origin (p * 2 ^ 18)
      let hi := min (c.origin + c.length) ((p + 1) * 2 ^ 18)
      if lo < hi then some ((nearTarget home other 1 lo).1, lo % 2 ^ 18, hi - lo) else none)
  | _ => [(core, c.origin, c.length)]

/-- The capability and the runs of FESET, FECLR and FEWAIT, checked under steps 1 to 5 and 7 of R294. -/
def State.feRuns (s : State) (g : Gang) (a : CReg) (need : Nat) (k : Into) : Except Flt (List (CoreId × Nat × Nat)) :=
  let c := g.c a
  let core := s.cur.core
  let xd : Bool := match s.nearOf core c with
    | some (.near _ _ x) => x != 0
    | _ => false
  if g.inTx then .error (flt .illegal)
  else if c.tag ∧ (c.space ≥ 2 ∨ (c.space = 1 ∧ xd)) then .error (capFlt .capPerm c a.toNat)
  else
    match s.reach core c a.toNat (if c.space = 1 then 1 else 0) need with
    | .error f => .error f
    | .ok r =>
      let top := if r.isLocal then 2 ^ 18 else 2 ^ 22
      if c.length = 0 then .ok []
      else if top < c.origin + c.length then .error (offFlt (capFlt .capBounds c a.toNat) c.origin)
      else
        let runs := s.padRuns r c core
        if runs.any (fun x => reserved k x.2.1 x.2.2) then .error (offFlt (capFlt .capBounds c a.toNat) c.origin)
        else
          match runs.find? (fun x => !r.isLocal && s.unreached core x.1) with
          | some x => .error { capFlt .notMapped c a.toNat with offset := x.1.zeroExtend 64 }
          | none => .ok (if r.isLocal then runs else runs.map (fun x => (s.route x.1, x.2)))

/-- The granules of runs. -/
def runGranules (runs : List (CoreId × Nat × Nat)) : List (CoreId × Nat) :=
  runs.flatMap (fun x => (granulesOf x.2.1 x.2.2).map (fun gr => (x.1, gr)))

/-- FESET (09 R321): FENCE.rel at MODE.SCOPE, then every granule full; claims are granted (04 R133). An empty range has no effect. -/
def execFeset (a : CReg) (s : State) : Host.Outcome State Fault Refusal :=
  runFull .u [] false (fun s g =>
    match s.feRuns g a pW .other with
    | .error f => .fault f
    | .ok [] => .done s
    | .ok runs =>
      s.relGate g (modeScope g.regs.mode) (fun s _ =>
        let s := (runGranules runs).foldl (fun s x => s.setFull x.1 x.2 true) s
        .done ((runs.map Prod.fst).foldl State.regrant s))) s

/-- FECLR (09 R321). -/
def execFeclr (a : CReg) (s : State) : Host.Outcome State Fault Refusal :=
  runFull .u [] false (fun s g =>
    match s.feRuns g a pW .feclr with
    | .error f => .fault f
    | .ok runs => .done ((runGranules runs).foldl (fun s x => s.setFull x.1 x.2 false) s)) s

/-- The body of FEWAIT. -/
def fewaitBody (a : CReg) (s : State) (g : Gang) : Res :=
  match s.feRuns g a pR .other with
  | .error f => .fault f
  | .ok [] => .done s
  | .ok runs =>
    if (runGranules runs).all (fun x => s.isFull x.1 x.2) then .done (s.acquire s.cur.core (modeScope g.regs.mode))
    else .wait s .fewait

/-- FEWAIT (09 R321). -/
def execFewait (a : CReg) (s : State) : Host.Outcome State Fault Refusal := runFull .u [] false (fewaitBody a) s

/-- Run the body of the synchronising word a gang waits at again. -/
def State.resync (s : State) (c : CoreId) (k : SlotId) (body : Instr → Option (State → Gang → Res)) : State :=
  match s.gang? c k with
  | none => s
  | some g =>
    match (decode g.waitWord).bind body with
    | some b => s.asGang c k (fun s => s.runBody b)
    | none => s

/-- FEWAIT_COMPLETE (09 R321). -/
def fewaitOf (i : Instr) : Option (State → Gang → Res) :=
  match i with
  | .fewait a => some (fewaitBody a)
  | _ => none

def fewaitReady (s : State) (core : CoreId) (slot : SlotId) : Bool :=
  s.waits core slot .fewait && movedOn s (s.resync core slot fewaitOf) core slot

def execFewaitComplete (core : CoreId) (slot : SlotId) (s : State) : Host.Outcome State Fault Refusal :=
  .next (if fewaitReady s core slot then s.resync core slot fewaitOf else s)

/-! Watermarks (02 R62, 09 R322). -/

/-- Copies outstanding toward a channel of a core, those of saved contexts among them but for copies within the saved context. -/
def State.copiesToward (s : State) (core : CoreId) (ch : Nat) : Bool :=
  let toward (x : Ctx) : Bool := x.copies.any (fun y =>
    y.2.chan == some ch && y.2.dests.any (fun d => d.core.any (fun c => c == core || s.route c == core)))
  toward (s.ctx core) || (s.contexts (s.part core)).any (fun cx => cx.1 != core && toward cx.2)

/-- Body of WMSET. -/
def wmsetBody (ch : BitVec 4) (a b : SReg) (s : State) (g : Gang) : Res :=
  let base := (g.s a).toNat
  let len := (g.s b).toNat
  let core := s.cur.core
  let other := (List.range 16).any (fun n => n != ch.toNat &&
    (match ((s.ctx core).chans.toList[n]?).join with
     | some c => decide (base < c.base + c.len) && decide (c.base < base + len)
     | none => false))
  if base % 16 ≠ 0 ∨ len % 16 ≠ 0 then .fault (flt .misaligned)
  else if 0x37000 < base + len then .fault { flt .capBounds with offset := g.s a }
  else if len ≠ 0 ∧ other then .fault (flt .copyOverlap)
  else if s.copiesToward core ch.toNat then .wait s .wmset
  else
    .done (s.modCtx core (fun x => { x with
      chans := x.chans.set ch.toNat (if len = 0 then none else some { base := base, len := len }) ch.isLt }))

/-- WMSET (09 R322). -/
def execWmset (ch : BitVec 4) (a b : SReg) (s : State) : Host.Outcome State Fault Refusal :=
  runFull .u [] false (wmsetBody ch a b) s

/-- The body of WMWAIT. -/
def wmwaitBody (ch : BitVec 4) (a : SReg) (s : State) (g : Gang) : Res :=
  if g.inTx then .fault (flt .illegal)
  else
    match (s.ctx s.cur.core).chans[ch.toFin] with
    | none => .fault (flt .illegal)
    | some c =>
      if c.base + c.len < (g.s a).toNat then .fault { flt .capBounds with offset := g.s a }
      else if (g.s a).toNat ≤ c.mark then .done (s.acquire s.cur.core (modeScope g.regs.mode))
      else .wait s .wmwait

/-- WMWAIT (09 R322). -/
def execWmwait (ch : BitVec 4) (a : SReg) (s : State) : Host.Outcome State Fault Refusal :=
  runFull .u [] false (wmwaitBody ch a) s

def wmwaitOf (i : Instr) : Option (State → Gang → Res) :=
  match i with
  | .wmwait ch a => some (wmwaitBody ch a)
  | _ => none

/-- WMWAIT_COMPLETE (02 R62). -/
def wmwaitReady (s : State) (core : CoreId) (slot : SlotId) : Bool :=
  s.waits core slot .wmwait && movedOn s (s.resync core slot wmwaitOf) core slot

def execWmwaitComplete (core : CoreId) (slot : SlotId) (s : State) : Host.Outcome State Fault Refusal :=
  .next (if wmwaitReady s core slot then s.resync core slot wmwaitOf else s)

/-! Ordered events of deterministic mode (06 R199). -/

/-- The waits that let ordered events pass a gang by; of the waits for a queue only a pop, in QPOP or SELRES. -/
def Wait.lets (w : Wait) : Bool :=
  match w.why with
  | .inbox | .ringBlocked | .binFull | .send _ | .fewait | .wmwait | .barI | .barX | .full | .q14 | .grow _ | .txLog => true
  | .queue _ =>
    match decode w.word with
    | some (.qpop _ _) | some (.selres _) => true
    | _ => false
  | _ => false

/-- The gang is waiting in the sense of R199. -/
def Gang.lets (g : Gang) : Bool :=
  match g.status with
  | .waiting w => w.lets
  | _ => false

/-- Keys in order: LT, site of first placement, slot. -/
def keyLess (a b : Nat × Nat × Nat) : Bool :=
  decide (a.1 < b.1) || (a.1 == b.1 && (decide (a.2.1 < b.2.1) || (a.2.1 == b.2.1 && decide (a.2.2 < b.2.2))))

/-- A gang released from a wait by an event of LT t (06 R199). -/
def Gang.releasedAt (g : Gang) (t : Nat) : Gang := { g with cnt := { g.cnt with lt := max g.cnt.lt (t + 1) } }

end Sys2Proof.Machine
end

