-- ==== Sys2Proof/Machine/Atomics.lean ====
section
/-! DEFINITION. Atomics, reductions, routines and sequentially consistent operations: opcodes 0xA0 to 0xA8 (07 R227,
09 R311 to R314, 05 R154 to R162, 03 R107, R108). -/

namespace Sys2Proof.Machine

/-! Element types and operations (05 R158, 09 R311). -/

/-- The element type of a size and ETYPE. -/
def atomTy (sz : Size) (etype : Nat) : Option AtomTy :=
  match sz, etype with
  | .w, 0 => some .i32
  | .w, 1 => some .n32
  | .w, 6 => some .f32
  | .d, 0 => some .i64
  | .d, 1 => some .n64
  | _, _ => none

def AtomTy.int : AtomTy → IntTy
  | .i32 => ⟨32, true⟩ | .n32 => ⟨32, false⟩ | .i64 => ⟨64, true⟩ | .n64 => ⟨64, false⟩ | .f32 => ⟨32, false⟩

/-- Bitwise operations take no f32 (07 R227). -/
def atomLegal (op : AtomOp) (ty : AtomTy) : Bool :=
  match op with
  | .and | .or | .xor => ty != .f32
  | _ => true

/-- The new value and the flags it raises: integers wrap, f32 in RNE with subnormals honoured (R158, 03 R107). -/
def atomNew (op : AtomOp) (ty : AtomTy) (old v : Nat) : Nat × BitVec 5 :=
  let t := ty.int
  let fp (r : Nat × FpSt) : Nat × BitVec 5 := (r.1, r.2.flags)
  match op with
  | .swap => (v, 0)
  | .and => (Nat.land old v, 0)
  | .or => (Nat.lor old v, 0)
  | .xor => (Nat.xor old v, 0)
  | .add => if ty = .f32 then fp (fpAdd f32 ⟨0, false⟩ old v ⟨0, 0⟩) else (t.wrap (t.read old + t.read v), 0)
  | .min => if ty = .f32 then fp (fpMinMax false f32 ⟨0, false⟩ old v ⟨0, 0⟩) else (t.wrap (min (t.read old) (t.read v)), 0)
  | .max => if ty = .f32 then fp (fpMinMax true f32 ⟨0, false⟩ old v ⟨0, 0⟩) else (t.wrap (max (t.read old) (t.read v)), 0)

/-- One lane's application at a location: the new value and flags. -/
def Act.apply (a : Act) (old : Nat) (x : LaneArg) : Nat × BitVec 5 :=
  match a with
  | .atom op ty => atomNew op ty old x.a
  | .cas => (if old = x.b then x.a else old, 0)
  | _ => (old, 0)

/-- The lanes of one location applied in ascending order: final value, what each lane saw, flags (05 R157). -/
def Act.run (a : Act) (old : Nat) (ls : List LaneArg) : Nat × List (LaneArg × Nat) × BitVec 5 :=
  ls.foldl (fun acc x =>
    let (n, k) := a.apply acc.1 x
    (n, acc.2.1 ++ [(x, acc.1)], acc.2.2 ||| k)) (old, [], 0)

/-! Routines (05 R161, R162). -/

/-- A routine core at work: S0 to S15, predicates of its one lane, the line's bytes, flags. -/
structure Rt where
  regs  : List Nat
  preds : List Bool
  line  : List Byte
  /-- the granules of the line that the routine has stored to -/
  wrote : List Nat
  flags : BitVec 5

def Rt.s (t : Rt) (r : SReg) : Nat := if r = 0 then 0 else t.regs.getD r.toNat 0
def Rt.setS (t : Rt) (r : SReg) (x : Nat) : Rt :=
  if r = 0 then t else { t with regs := t.regs.set r.toNat (x % 2 ^ 64) }
def Rt.p (t : Rt) (r : PReg) : Bool := r == 0 || t.preds.getD r.toNat false
def Rt.setP (t : Rt) (r : PReg) (b : Bool) : Rt := if r = 0 then t else { t with preds := t.preds.set r.toNat b }

/-- Offset in the line of a scalar access (R162: modulo 128). -/
def Rt.offset (t : Rt) (m : SMem) (z : Nat) : Nat :=
  ((signed 32 (t.s m.idx) * (z : Int)) % 128).toNat

def Rt.load (t : Rt) (m : SMem) (z : Nat) : Nat := ofBytes ((t.line.drop (t.offset m z)).take z)
def Rt.store (t : Rt) (m : SMem) (z v : Nat) : Rt :=
  let o := t.offset m z
  { t with line := t.line.take o ++ toBytes z (v % 2 ^ (8 * z)) ++ t.line.drop (o + z), wrote := o / 16 :: t.wrote }

/-- RNE with subnormals honoured. -/
def rtCfg : FpCfg := ⟨0, false⟩

/-- A float result with its flags. -/
def Rt.putF (t : Rt) (d : SReg) (r : Nat × FpSt) : Rt := { t.setS d r.1 with flags := t.flags ||| r.2.flags }

/-- Whether a branch with this condition is taken on the routine core's one lane. -/
def Rt.cond (t : Rt) (c : Cond) : Bool := if c.neg then !t.p c.pred else t.p c.pred

/-- One word of a routine: the state and how many words on; none at EXIT. -/
def Rt.step (t : Rt) (i : Instr) : Option (Rt × Nat) :=
  let alu (op : AluOp) (d a : SReg) (b : Nat) : Option (Rt × Nat) :=
    some (t.setS d (aluElem op scalarTy false (t.s a) b), 1)
  let jump (b : Bool) (off : BitVec 20) : Option (Rt × Nat) := some (t, if b then off.toNat else 1)
  match i with
  | .sop op d a b => alu op d a (t.s b)
  | .addImmS d a i => alu .add d a (immS i)
  | .mulImmS d a i => alu .mul d a (immS i)
  | .andImmS d a i => alu .and d a (immZ i)
  | .orImmS d a i => alu .or d a (immZ i)
  | .xorImmS d a i => alu .xor d a (immZ i)
  | .shlImmS d a i => alu .shl d a i.toNat
  | .shrImmS d a i => alu .shr d a i.toNat
  | .sraImmS d a i => alu .sra d a i.toNat
  | .lil d i => some (t.setS d i.toNat, 1)
  | .lih d i k =>
    let x := t.s d
    let lo := 16 * k.toNat
    some (t.setS d (x / 2 ^ (lo + 16) * 2 ^ (lo + 16) + i.toNat * 2 ^ lo + x % 2 ^ lo), 1)
  | .scmp op d a b => some (t.setP d (compare op (signed 64 (t.s a)) (signed 64 (t.s b)) (t.s a) (t.s b)), 1)
  | .sfop op d a b => some (t.putF d (fopElem op f32 rtCfg (t.s a % 2 ^ 32) (t.s b % 2 ^ 32) ⟨0, 0⟩), 1)
  | .fmaS op d a b => some (t.putF d (fmaElem op f32 rtCfg (t.s a % 2 ^ 32) (t.s b % 2 ^ 32) (t.s d % 2 ^ 32) ⟨0, 0⟩), 1)
  | .fcvtS ty src d a =>
    let r := fcvtElem ty src rtCfg false (t.s a) ⟨0, 0⟩
    some (t.putF d (placeResult ty 64 r.1, r.2), 1)
  | .sld d m sz _ => some (t.setS d (t.load m (sizeBytes sz)), 1)
  | .slds d m sz _ => some (t.setS d (extS (sizeBytes sz) true (t.load m (sizeBytes sz))).toNat, 1)
  | .sst d m sz _ => some (t.store m (sizeBytes sz) (t.s d), 1)
  | .br c off => jump (t.cond c) off
  | .brany c off => jump (t.cond c) off
  | .brall c off => jump (t.cond c) off
  | .brnone c off => jump (!t.cond c) off
  | _ => none

/-- Run a routine: at most one visit to each word, branches being forward (R162). -/
def Rt.run : Nat → List Word → Rt → Rt
  | 0, _, t => t
  | n + 1, code, t =>
    match code with
    | [] => t
    | w :: _ =>
      match (decode w).bind t.step with
      | some (t, k) => Rt.run n (code.drop k) t
      | none => t

/-- The routine core at entry (R162). -/
def Rt.entry (line : List Byte) (x : LaneArg) : Rt :=
  { regs := [0, x.off, x.a, x.b, x.lane.val] ++ List.replicate 11 0
    preds := true :: List.replicate 7 false
    line := line
    wrote := []
    flags := 0 }

/-- What a routine leaves: the line, the granules stored to, S5 of each lane, flags. -/
structure RtEnd where
  line  : List Byte
  wrote : List Nat
  seen  : List (LaneArg × Nat)
  flags : BitVec 5

/-- The lanes of a line run one after another (05 R161). -/
def runRoutine (code : List Word) (line : List Byte) (ls : List LaneArg) : RtEnd :=
  ls.foldl (fun acc x =>
    let t := Rt.run 16 code (Rt.entry acc.line x)
    ⟨t.line, t.wrote ++ acc.wrote, acc.seen ++ [(x, t.s 5 % 2 ^ 32)], acc.flags ||| t.flags⟩) ⟨line, [], [], 0⟩

/-- The stores of a routine performed: the granules it stored to and no other, so that other granules keep their tags (02 R53). -/
def State.writeGranules (s : State) (core : CoreId) (l : Loc) (line : List Byte) (gs : List Nat) : State :=
  (List.range 8).foldl (fun s i =>
    if gs.contains i then s.homeWrite core (l.add (16 * i)) ((line.drop (16 * i)).take 16) else s) s

/-- A word that a routine may hold at position i (R162). -/
def routineWord (i : Nat) (w : Word) : Bool :=
  let low (rs : List SReg) : Bool := rs.all (fun r => decide (r.toNat < 16))
  let mem (m : SMem) : Bool := m.cap == 0 && m.am == 0 && low [m.idx]
  let ahead (off : BitVec 20) : Bool := decide (1 ≤ off.toNat) && decide (i + off.toNat < 16)
  match decode w with
  | some (.sop _ d a b) => low [d, a, b]
  | some (.addImmS d a _) | some (.mulImmS d a _) | some (.andImmS d a _) | some (.orImmS d a _)
  | some (.xorImmS d a _) | some (.shlImmS d a _) | some (.shrImmS d a _) | some (.sraImmS d a _) => low [d, a]
  | some (.lil d _) => low [d]
  | some (.lih d _ _) => low [d]
  | some (.scmp _ _ a b) => low [a, b]
  | some (.sfop _ d a b) | some (.fmaS _ d a b) => low [d, a, b]
  | some (.fcvtS _ _ d a) => low [d, a]
  | some (.sld d m _ q) | some (.slds d m _ q) => low [d] && mem m && q == .plain
  | some (.sst d m _ q) => low [d] && mem m && q == .plain
  | some (.br _ off) | some (.brany _ off) | some (.brall _ off) | some (.brnone _ off) => ahead off
  | some .exit => true
  | _ => false

/-! Performing at the home. -/

/-- Perform an atomic or a routine at its home and deliver its results and flags (05 R157, R161, 03 R108). -/
def State.performAtomic (s : State) (core : CoreId) (f : Flight) : State :=
  let l := s.landing core f.loc
  let b := s.homeRead l f.size
  let back (seen : List (LaneArg × Nat)) (flags : BitVec 5) (z : Nat) (s : State) : State :=
    match f.dst with
    | .v r => s.modGang core f.slot (fun g =>
        (seen.foldl (fun g x => g.putLane r x.1.lane z false x.2) g).raise flags)
    | _ => s
  match f.act with
  | .routine code =>
    let e := runRoutine code b f.lanes
    back e.seen e.flags 4 (s.writeGranules core l e.line e.wrote)
  | a =>
    let (v, seen, flags) := a.run (ofBytes b) f.lanes
    back seen flags f.size (if s.lostAt l f.size then s else s.homeWrite core l (toBytes f.size v))

def Act.atHome : Act → Bool
  | .atom _ _ | .cas | .routine _ => true
  | _ => false

/-- ATOMIC_PERFORM (05 R157, R143 item 5). -/
def atomicReady (s : State) (core : CoreId) (n : Nat) (f : Flight) : Bool :=
  f.act.atHome && !(s.ctx core).olderFlight n f.loc f.size && !(s.ctx core).olderWrite n f.loc f.size

def execAtomicPerform (core : CoreId) (n : Nat) (s : State) : Host.Outcome State Fault Refusal :=
  .next (match Tbl.get? (s.ctx core).flights n with
    | some f =>
      if atomicReady s core n f then
        (((s.modCtx core (fun x => { x with flights := Tbl.del x.flights n })).performAtomic core f).windowLate core f.slot).wakeHazard core
      else s
    | none => s)

/-- Perform a reduction at its home; its flags are held against the gang that issued it (05 R160, 03 R108). -/
def State.performRed (s : State) (core : CoreId) (e : BufEnt) : State :=
  match e.kind with
  | .red op ty vals =>
    let l := s.landing core e.loc
    let (v, _, k) := (Act.atom op ty).run (ofBytes (s.homeRead l e.size)) (vals.map (fun v => { lane := 0, a := v }))
    let s := if s.lostAt l e.size then s else s.homeWrite core l (toBytes e.size v)
    if e.seen.getLsbD e.slot.val then s.modGang core e.slot (fun g => { g with held := g.held ||| k }) else s
  | _ => s

/-- REDUCTION_PERFORM (05 R160). -/
def execReductionPerform (core : CoreId) (n : Nat) (s : State) : Host.Outcome State Fault Refusal :=
  .next (match (s.ctx core).buf.find? (fun e => e.seq == n) with
    | none => s
    | some e =>
      if s.storeReady core e && isRed e.kind then
        ((s.modCtx core (fun x => { x with buf := x.buf.filter (fun e => e.seq != n) })).performRed core e).wakeHazard core
      else s)

/-! The words. -/

/-- Lanes of one instruction grouped by location, in ascending lane order. -/
def groupArgs (ls : List (Loc × LaneArg)) : List (Loc × List LaneArg) :=
  ls.foldl (fun acc x =>
    if acc.any (fun y => y.1 == x.1) then
      acc.map (fun y => if y.1 == x.1 then (y.1, y.2 ++ [x.2]) else y)
    else acc ++ [(x.1, [x.2])]) []

/-- Checks and targets that atomics and reductions share: type, R166, space, R294 or R69 (09 R311, R312). -/
def State.atomTargets (s : State) (g : Gang) (m : VMem) (sz : Size) (legal : AtomTy → Bool) (sc : Bool) :
    Except Res (AtomTy × List (Fin 32 × LaneRes)) :=
  let c := g.c m.cap
  let creg := m.cap.toNat
  let z := sizeBytes sz
  match atomTy sz (modeEtype g.regs.mode) with
  | none => .error (.fault (flt .illegal))
  | some ty =>
    if g.inTx ∨ legal ty = false then .error (.fault (flt .illegal))
    else if c.tag ∧ (c.space = 3 ∨ c.space = 4) then .error (.fault (capFlt .capPerm c creg))
    else if sc ∧ s.noNotify s.cur.core then .error (.fault (chanFault 2))
    else
      match s.reach s.cur.core c creg m.am.toNat (pA + pR + pW) with
      | .error f => .error (.fault f)
      | .ok r =>
        let ts := s.laneTargets g c creg m.am.toNat .other false true true r z (g.vIndex m)
        match s.laneStops ts (s.lostLanes ts z c creg) with
        | some x => .error x
        | none =>
          match s.lostLanes ts z c creg with
          | [] => .ok (ty, ts)
          | bad => .error (.lanes bad)

/-- ATOM and ATOMC (09 R312): q the ordering, mk the access for a type, cas whether compare values follow. -/
def atomBody (q : AtomQ) (legal : AtomTy → Bool) (mk : AtomTy → Act) (cas : Bool) (d : VReg) (m : VMem) (sz : Size) (ph : Phase)
    (s : State) (g : Gang) : Res :=
  match s.atomTargets g m sz legal (q == .sc) with
  | .error x => x
  | .ok (ty, ts) =>
    let core := s.cur.core
    let z := sizeBytes sz
    let n := sizeRegs sz
    let issue (s : State) (g : Gang) : State :=
      let s := s.touchLanes core (g.c m.cap) (ts.map Prod.snd)
      let groups := groupArgs (ts.filterMap (fun t => t.2.loc?.map (fun l => (l, ({
          lane := t.1, a := g.laneDatum d t.1 z
          b := if cas then g.laneDatum (d + BitVec.ofNat 6 n) t.1 z else 0 } : LaneArg)))))
      groups.foldl (fun s x =>
        let f : Flight := { slot := s.cur.slot, act := mk ty, loc := x.1, size := z, dst := .v d, lanes := x.2 }
        if ph = .sc then s.performAtomic core f else s.send_ core f) s
    match q with
    | .none => .done (issue s g)
    | .acq => .wait (issue s g) .acquire
    | .rel => s.relGate g (modeScope g.regs.mode) (fun s g => .done (issue s g))
    | .ar => s.relGate g (modeScope g.regs.mode) (fun s g => .wait (issue s g) .acquire)
    | .sc => if ph = .sc then .done (issue s g) else s.announce g

/-- V registers that a word of opcodes 0xA0 to 0xA7 needs in the allotment: d to d + 2n - 1 for ATOM and ATOMC (09 R312), n of them
for a reduction (07 R225). -/
def atomNames (d : VReg) (m : VMem) (sz : Size) (pair : Bool) : List Nat :=
  vNames d (sizeRegs sz * (if pair then 2 else 1)) m

def atomWord (q : AtomQ) (op : AtomOp) (d : VReg) (m : VMem) (sz : Size) (s : State) : Host.Outcome State Fault Refusal :=
  runFull .u (atomNames d m sz true) false (atomBody q (atomLegal op) (Act.atom op) false d m sz .issue) s

/-- ATOM (09 R311). -/
def execAtom (op : AtomOp) (d : VReg) (m : VMem) (sz : Size) (s : State) : Host.Outcome State Fault Refusal := atomWord .none op d m sz s
/-- ATOM.ACQ (09 R311). -/
def execAtomAcq (op : AtomOp) (d : VReg) (m : VMem) (sz : Size) (s : State) : Host.Outcome State Fault Refusal := atomWord .acq op d m sz s
/-- ATOM.REL (09 R311). -/
def execAtomRel (op : AtomOp) (d : VReg) (m : VMem) (sz : Size) (s : State) : Host.Outcome State Fault Refusal := atomWord .rel op d m sz s
/-- ATOM.AR (09 R311). -/
def execAtomAr (op : AtomOp) (d : VReg) (m : VMem) (sz : Size) (s : State) : Host.Outcome State Fault Refusal := atomWord .ar op d m sz s
/-- ATOM.SC (09 R311). -/
def execAtomSc (op : AtomOp) (d : VReg) (m : VMem) (sz : Size) (s : State) : Host.Outcome State Fault Refusal := atomWord .sc op d m sz s

/-- ATOMC (09 R311, R312). -/
def execAtomc (q : AtomQ) (d : VReg) (m : VMem) (sz : Size) (s : State) : Host.Outcome State Fault Refusal :=
  runFull .u (atomNames d m sz true) false (atomBody q (fun _ => true) (fun _ => .cas) true d m sz .issue) s

/-- RED and RED.REL (09 R313, 05 R160). -/
def redBody (rel : Bool) (op : AtomOp) (d : VReg) (m : VMem) (sz : Size) (s : State) (g : Gang) : Res :=
  match s.atomTargets g m sz (atomLegal op) false with
  | .error x => x
  | .ok (ty, ts) =>
    let core := s.cur.core
    let z := sizeBytes sz
    let issue (s : State) (g : Gang) : State :=
      let s := s.touchLanes core (g.c m.cap) (ts.map Prod.snd)
      let groups := groupArgs (ts.filterMap (fun t => t.2.loc?.map (fun l => (l, ({
          lane := t.1, a := g.laneDatum d t.1 z } : LaneArg)))))
      groups.foldl (fun s x => s.buffer core s.cur.slot x.1 z (.red op ty (x.2.map LaneArg.a))) s
    if rel then s.relGate g (modeScope g.regs.mode) (fun s g => .done (issue s g)) else .done (issue s g)

/-- RED (09 R313). -/
def execRed (op : AtomOp) (d : VReg) (m : VMem) (sz : Size) (s : State) : Host.Outcome State Fault Refusal :=
  runFull .u (atomNames d m sz false) false (redBody false op d m sz) s

/-- RED.REL (09 R313). -/
def execRedRel (op : AtomOp) (d : VReg) (m : VMem) (sz : Size) (s : State) : Host.Outcome State Fault Refusal :=
  runFull .u (atomNames d m sz false) false (redBody true op d m sz) s

/-- A 32-bit lane value as a 64-bit pattern, sign-extended. -/
def sext64 (w : Word) : Nat := (w.signExtend 64).toNat

/-- ATOMR (09 R314, 05 R161). -/
def execAtomr (cap : CReg) (v : VReg) (t : VReg) (slot : BitVec 6) (s : State) : Host.Outcome State Fault Refusal :=
  runFull .u [v.toNat, v.toNat + 1, t.toNat] false (fun s g =>
    let core := s.cur.core
    let c := g.c cap
    if g.inTx ∨ g.wideE then .fault (flt .illegal)
    else
      match Tbl.get? (s.part core).routines slot.toNat with
      | none => .fault (flt .illegal)
      | some code =>
        if c.tag ∧ c.space ≠ 2 then .fault (capFlt .capPerm c cap.toNat)
        else
          match s.reach core c cap.toNat 0 (pA + pR + pW) with
          | .error f => .fault f
          | .ok r =>
            let z := match r with
              | .object o => fmtBits o.fmt / 8
              | _ => 1
            let ts := s.laneTargets g c cap.toNat 0 .other false true true r z (fun i => (((g.v t)[i]).toInt, 0))
            match s.laneStops ts with
            | some x => x
            | none =>
              let s := s.touchLanes core c (ts.map Prod.snd)
              let groups := groupArgs (ts.filterMap (fun x =>
                match x.2.loc? with
                | some (.phys pa) => some (Loc.phys (pa / 128 * 128), ({
                    lane := x.1, off := pa % 128, a := sext64 ((g.v v)[x.1]), b := sext64 ((g.v (nextV v))[x.1]) } : LaneArg))
                | _ => none))
              .done (groups.foldl (fun s x => s.send_ core
                { slot := s.cur.slot, act := .routine code, loc := x.1, size := 128, dst := .v v, lanes := x.2 }) s)) s

/-! Sequentially consistent operations (05 R154, R155). -/

/-- The body of a sequentially consistent word at the end of its window. -/
def scBody (i : Instr) : Option (State → Gang → Res) :=
  match i with
  | .atomSc op d m sz => some (atomBody .sc (atomLegal op) (Act.atom op) false d m sz .sc)
  | .atomc q d m sz => some (atomBody q (fun _ => true) (fun _ => .cas) true d m sz .sc)
  | _ => loadBody .sc i

/-- Places that a waiting word's accesses reach. -/
def State.scPlaces (s : State) (g : Gang) (i : Instr) : List (Loc × Nat) :=
  let vs (m : VMem) (z : Nat) : List (Loc × Nat) :=
    match s.reach s.cur.core (g.c m.cap) m.cap.toNat m.am.toNat 0 with
    | .ok r => (s.laneTargets g (g.c m.cap) m.cap.toNat m.am.toNat .load false false true r z (g.vIndex m)).filterMap
        (fun t => t.2.loc?.map (fun l => (l, z)))
    | .error _ => []
  let ss (m : SMem) (z : Nat) : List (Loc × Nat) :=
    match s.reach s.cur.core (g.c m.cap) m.cap.toNat m.am.toNat 0 with
    | .ok r => (s.target s.cur.core (g.c m.cap) m.cap.toNat m.am.toNat .load false r z (g.sIndex m).1 (g.sIndex m).2).loc?.toList.map
        (fun l => (l, z))
    | .error _ => []
  match i with
  | .ld _ m sz _ | .lds _ m sz _ => vs m (sizeBytes sz)
  | .st _ m sz _ => vs m (sizeBytes sz)
  | .sld _ m sz _ | .slds _ m sz _ => ss m (sizeBytes sz)
  | .sst _ m sz _ => ss m (sizeBytes sz)
  | .atomSc _ _ m sz => vs m (sizeBytes sz)
  | .atomc _ _ m sz => vs m (sizeBytes sz)
  | _ => []

/-- Everything a core has pending, by number: places and bytes, a half of a capability with its other half's. -/
def Ctx.pending (x : Ctx) : List (Nat × List (Loc × Nat)) :=
  sortBy Prod.fst (x.flights.map (fun f => (f.1, [(f.2.loc, f.2.size)])) ++
    x.buf.map (fun e => (e.seq, (x.leaving e).map (fun y => (y.loc, y.size)))))

/-- The pending accesses that meet some places, or that stand before one that does, oldest first. -/
def Ctx.before (x : Ctx) (ps : List (Loc × Nat)) : List Nat :=
  (x.pending.reverse.foldl (fun (acc : List Nat × List (Loc × Nat)) e =>
    if acc.2.any (fun p => e.2.any (fun q => p.1.meets p.2 q.1 q.2)) then (e.1 :: acc.1, e.2 ++ acc.2) else acc) ([], ps)).1

/-- Perform one pending access of a core. -/
def State.performOne (s : State) (core : CoreId) (n : Nat) : State :=
  let next (o : Host.Outcome State Fault Refusal) (s : State) : State := match o with | .next t => t | _ => s
  let s := next (execLoadPerform core n s) s
  let s := next (execAtomicPerform core n s) s
  let s := next (execStorePerform core n s) s
  next (execReductionPerform core n s) s

/-- Each sequentially consistent operation waits until the core's buffered writes to its places have been performed
(05 R143 item 5). -/
def State.settlePlaces (s : State) (core : CoreId) (ps : List (Loc × Nat)) : State :=
  ((s.ctx core).before ps).foldl (fun s n => s.performOne core n) s

/-- Order of the announcements of a window: die and core of first placement, slot (05 R154, 11 R406). -/
def scKey (s : State) (x : CoreId × SlotId × Gang) : Nat := (s.origin x.1).toNat * 8 + x.2.1.val

/-- The gangs of a partition whose sequentially consistent operation stands in a window, in SC order. -/
def State.scGangs (s : State) (n : Fin 4) (w : Nat) : List (CoreId × SlotId × Gang) :=
  sortBy (scKey s) ((s.gangsOf s.parts[n]).filter (fun x => x.2.2.why? == some (.sc w)))

/-- The windows announced and not complete. -/
def State.scWindows (s : State) (n : Fin 4) : List Nat :=
  (s.gangsOf s.parts[n]).filterMap (fun x =>
    match x.2.2.why? with
    | some (.sc w) => some w
    | _ => none)

/-- The TICK at which a window completes (05 R154). -/
def scDue (w : Nat) : Nat := 32 * (w + 1) + 96

/-- The earliest window of the partition. -/
def State.scFirst (s : State) (n : Fin 4) : Option Nat := (s.scWindows n).min?

/-- Complete one operation at its home, and FENCE.acq.PKG after it (05 R155). -/
def State.scComplete (s : State) (c : CoreId) (k : SlotId) : State :=
  match s.gang? c k with
  | none => s
  | some g =>
    match decode g.waitWord with
    | none => s
    | some i =>
      match scBody i with
      | none => s
      | some body =>
        s.asGang c k (fun s =>
          let s := match s.me? with
            | some g => s.settlePlaces c (s.scPlaces g i)
            | none => s
          (s.runBody body).acquire c 4)

/-- SC_WINDOW_COMPLETE (05 R154, R155): the operations of the earliest window complete in SC order. -/
def scReady (s : State) (n : Fin 4) : Bool :=
  match s.scFirst n with
  | some w => decide (scDue w ≤ (s.parts[n]).tick)
  | none => false

def execScWindowComplete (part : Fin 4) (s : State) : Host.Outcome State Fault Refusal :=
  .next (match s.scFirst part with
    | some w =>
      if scDue w ≤ (s.parts[part]).tick then (s.scGangs part w).foldl (fun s x => s.scComplete x.1 x.2.1) s else s
    | none => s)

end Sys2Proof.Machine
end

