-- ==== Sys2Proof/Machine/Caps.lean ====
section
/-! DEFINITION. Deriving and reading capabilities, object queries and views: opcodes 0x90 to 0x98 (07 R226, 09 R305 to R310). -/

namespace Sys2Proof.Machine

/-- A capability with another range or permissions, tag kept; space, ID and XD copied (02 R54). -/
def Cap.derive (c : Cap) (perm origin length : Nat) : Cap := Cap.mk' c.space perm c.id origin length true

/-- CINC (09 R305). -/
def execCinc (d a : CReg) (b : SReg) (s : State) : Host.Outcome State Fault Refusal :=
  runGang [] (fun g =>
    let c := g.c a
    let k := (g.s b).toInt
    if c.tag = false then .fault (capFlt .capTag c a.toNat)
    else if k < 0 ∨ (c.length : Int) < k ∨ (2 ^ 47 : Int) ≤ (c.origin : Int) + k then .fault (capFlt .capBounds c a.toNat)
    else .done (g.setC d (c.derive c.perm (c.origin + k.toNat) (c.length - k.toNat)))) s

/-- CSETB (09 R305). -/
def execCsetb (d a : CReg) (b : SReg) (s : State) : Host.Outcome State Fault Refusal :=
  runGang [] (fun g =>
    let c := g.c a
    if c.tag = false then .fault (capFlt .capTag c a.toNat)
    else if c.length < (g.s b).toNat then .fault (capFlt .capBounds c a.toNat)
    else .done (g.setC d (c.derive c.perm c.origin (g.s b).toNat))) s

/-- CPERM (09 R305). -/
def execCperm (d a : CReg) (b : SReg) (s : State) : Host.Outcome State Fault Refusal :=
  runGang [] (fun g =>
    let c := g.c a
    if c.tag = false then .fault (capFlt .capTag c a.toNat)
    else if bits (g.s b) 63 6 ≠ 0 then .fault (capFlt .illegal c a.toNat)
    else if holds c.perm (g.s b).toNat = false then .fault (capFlt .capPerm c a.toNat)
    else .done (g.setC d (c.derive (g.s b).toNat c.origin c.length))) s

/-- CGET (09 R306). -/
def execCget (f : CapField) (d : SReg) (a : CReg) (s : State) : Host.Outcome State Fault Refusal :=
  runGang [] (fun g =>
    let c := g.c a
    .done (g.setS d (BitVec.ofNat 64 (match f with
      | .space => c.space
      | .perm => c.perm
      | .id => c.id
      | .origin => c.origin
      | .length => c.length
      | .tag => if c.tag then 1 else 0)))) s

/-- CMOV (09 R306). -/
def execCmov (d a : CReg) (s : State) : Host.Outcome State Fault Refusal :=
  runGang [] (fun g => .done (g.setC d (g.c a))) s

/-! Object queries: the gang-uniform checks of 02 R69. -/

/-- Steps 1, 2, 4 and 5 of R69 for a query of an OBJECT or, where code, a CODE capability. -/
def State.queryRecord (s : State) (c : Cap) (creg : Nat) (code : Bool) : Except Flt ObjRec :=
  let p := s.part s.cur.core
  let r := s.record p c.id
  if c.tag = false then .error (capFlt .capTag c creg)
  else if ¬ (c.space = 2 ∨ (code ∧ c.space = 3)) then .error (capFlt .capPerm c creg)
  else if p.ortSize ≤ c.id then .error (capFlt .notMapped c creg)
  else if ¬ (r.state = 1 ∨ r.state = 2) then .error (capFlt .notMapped c creg)
  else .ok r

/-- Steps 1 to 6 of R69 with a permission. -/
def State.queryPerm (s : State) (c : Cap) (creg need : Nat) (code : Bool) : Except Flt ObjRec :=
  if c.tag = true ∧ (c.space = 2 ∨ (code ∧ c.space = 3)) ∧ holds c.perm need = false then .error (capFlt .capPerm c creg)
  else
    match s.queryRecord c creg code with
    | .error f => .error f
    | .ok r => if holds r.perm need then .ok r else .error (capFlt .capPerm c creg)

/-- OBJVIEW (09 R307). DEDUCED (log 80): step 6 of R69 asks C[a]'s record for the requested permissions. -/
def execObjview (d a : CReg) (b : SReg) (s : State) : Host.Outcome State Fault Refusal :=
  runFull .u [] false (fun s g =>
    let c := g.c a
    let x := g.s b
    let v := bits x 23 0
    let want := bits x 29 24
    let p := s.part s.cur.core
    if bits x 63 30 ≠ 0 then .fault (capFlt .illegal c a.toNat)
    else
      match s.queryRecord c a.toNat false with
      | .error f => .fault f
      | .ok r =>
        if holds r.perm want = false then .fault (capFlt .capPerm c a.toNat)
        else if ¬ (c.origin = 0 ∧ c.length = r.size) then .fault (capFlt .capBounds c a.toNat)
        else
          let w := s.record p v
          if p.ortSize ≤ v ∨ w.state ≠ 1 then .fault (capFlt .notMapped c a.toNat)
          else if w.map ≠ r.map ∨ r.nsub < w.nsub then .fault (capFlt .capPerm c a.toNat)
          else if holds c.perm want = false ∨ holds w.perm want = false then .fault (capFlt .capPerm c a.toNat)
          else
            .done (((s.cacheRec s.cur.core c.id).cacheRec s.cur.core v).setMe
              (g.setC d (Cap.mk' 2 want v 0 w.size true)))) s

/-- The 64 bytes a translation would use for a record (02 R72). -/
def State.recordImage (s : State) (p : Part) (id : Nat) : List Byte := (Tbl.get? p.recs id).getD (s.rawRecord p id)

/-- OBJINFO (09 R308). -/
def execObjinfo (d : SReg) (a : CReg) (word : BitVec 3) (s : State) : Host.Outcome State Fault Refusal :=
  runFull .u [] false (fun s g =>
    let c := g.c a
    match s.queryRecord c a.toNat true with
    | .error f => .fault f
    | .ok _ =>
      let v := field (s.recordImage (s.part s.cur.core) c.id) (8 * word.toNat) 8
      .done ((s.cacheRec s.cur.core c.id).setMe (g.setS d (BitVec.ofNat 64 v)))) s

/-- OBJRES (09 R309): bit k for map entry S[b] + k. -/
def execObjres (d : SReg) (a : CReg) (b : SReg) (s : State) : Host.Outcome State Fault Refusal :=
  runFull .u [] false (fun s g =>
    let c := g.c a
    match s.queryPerm c a.toNat pR true with
    | .error f => .fault f
    | .ok r =>
      let p := s.part s.cur.core
      let j0 := (g.s b).toNat
      let bit (k : Nat) : Bool :=
        decide (j0 + k < r.nsub) &&
          (let e := s.mapEntry p c.id (j0 + k) r
           e / 2 ^ 32 % 2 == 1 && e / 2 ^ 34 % 2 == 0 && e / 2 ^ 38 == 0)
      let v := ((List.range 64).map (fun k => if bit k then 2 ^ k else 0)).sum
      .done ((s.cacheRec s.cur.core c.id).setMe (g.setS d (BitVec.ofNat 64 v)))) s

/-- OBJSUM (09 R310): an L-class load at the home, with no read cache; in a lane with an open transaction a transactional one
(05 R165). -/
def execObjsum (d : VReg) (a : CReg) (b : SReg) (s : State) : Host.Outcome State Fault Refusal :=
  runFull .u [d.toNat] false (fun s g =>
    let c := g.c a
    let core := s.cur.core
    if g.wideE then .fault (flt .illegal)
    else
      match s.queryPerm c a.toNat (if g.allTx then pA + pR + pW else pR) (!g.allTx) with
      | .error f => .fault f
      | .ok r =>
        let u := bits (g.s b) 31 0
        let h := bits (g.s b) 32 32
        let entry := r.side + 256 * u + 128 * h
        if r.side = 0 then .fault (capFlt .notMapped c a.toNat)
        else if r.side % 256 ≠ 0 then .fault (capFlt .misaligned c a.toNat)
        else if bits (g.s b) 63 33 ≠ 0 then .fault (capFlt .illegal c a.toNat)
        else if (r.shape.getD 0 0) ≤ u then .fault { capFlt .outOfShape c a.toNat with offset := g.s b }
        else
          let ts : List (Fin 32 × LaneRes) := (Mask.lanes g.active).map (fun i =>
            (i, if g.txOpen i && !txReach c (if c.space = 3 then .code r else .object r) then .err (capFlt .capPerm c a.toNat)
                else .at_ (.phys (entry + 4 * i.val)) 0))
          match s.laneStops ts with
          | some x => x
          | none =>
            if s.anyBusy (g.txPlaces ts) 4 then .wait s .hazard
            else .done ((s.cacheRec core c.id).serveLanes false false 4 ts (fun i v g => g.putLane d i 4 false v) (fun l xs =>
              { slot := s.cur.slot, act := .load false, loc := l, size := 4, dst := .v d, lanes := xs }))) s

end Sys2Proof.Machine
end

