-- ==== Sys2Proof/Machine/Control.lean ====
section
/-! DEFINITION. Control, structured masks, mode and the end of a gang: opcodes 0x01 to 0x0F (07 R216, 08 R253 to R266). -/

namespace Sys2Proof.Machine

/-- Target of a C-form word: the object id stays, the offset moves by 4 x off20 (08 R253). -/
def branchTarget (pc : DWord) (off : BitVec 20) : DWord :=
  BitVec.ofNat 24 (bits pc 63 40) ++ (BitVec.ofNat 40 pc.toNat + (off.signExtend 40 <<< 2))

/-- The lanes where T(i) holds (08 R254). -/
def Gang.cond (g : Gang) (c : Cond) : Mask := if c.neg then ~~~ g.p c.pred else g.p c.pred

/-- Take a branch or not; a subscriber evaluates nothing and follows the stream (01 R41, 08 R256). -/
def branchIf (off : BitVec 20) (test : Gang → Bool) (s : State) : Host.Outcome State Fault Refusal :=
  runGang [] (fun g =>
    if !s.subscriber && test g then .jump g (branchTarget g.regs.pc off) else .done g) s

/-- BR (08 R254): T in lane 0, whatever EXM and GUARD hold. -/
def execBr (c : Cond) (off : BitVec 20) (s : State) : Host.Outcome State Fault Refusal :=
  branchIf off (fun g => (g.cond c).getLsbD 0) s

/-- BRANY (08 R254). -/
def execBrany (c : Cond) (off : BitVec 20) (s : State) : Host.Outcome State Fault Refusal :=
  branchIf off (fun g => g.cond c &&& g.active != 0) s

/-- BRALL (08 R254). -/
def execBrall (c : Cond) (off : BitVec 20) (s : State) : Host.Outcome State Fault Refusal :=
  branchIf off (fun g => ~~~ g.cond c &&& g.active == 0) s

/-- BRNONE (08 R254). -/
def execBrnone (c : Cond) (off : BitVec 20) (s : State) : Host.Outcome State Fault Refusal :=
  branchIf off (fun g => g.cond c &&& g.active == 0) s

/-- A jump unless the gang follows a stream. -/
def jumpTo (s : State) (g : Gang) (pc : DWord) : GRes := if s.subscriber then .done g else .jump g pc

/-- CALL (08 R255, R256). -/
def execCall (off : BitVec 20) (s : State) : Host.Outcome State Fault Refusal :=
  runGang [] (fun g => jumpTo s (g.setS 31 (g.regs.pc + 4)) (branchTarget g.regs.pc off)) s

/-- Indirect jump with the alignment check of 08 R255. -/
def indirect (s : State) (g' : Gang) (t : DWord) : GRes :=
  if s.subscriber then .done g'
  else if bits t 1 0 ≠ 0 then .fault (flt .misaligned)
  else .jump g' t

/-- JMP (08 R255). -/
def execJmp (a : SReg) (s : State) : Host.Outcome State Fault Refusal :=
  runGang [] (fun g => indirect s g (g.s a)) s

/-- CALLR (08 R255): the target is read before S31 is written. -/
def execCallr (a : SReg) (s : State) : Host.Outcome State Fault Refusal :=
  runGang [] (fun g => indirect s (g.setS 31 (g.regs.pc + 4)) (g.s a)) s

/-- RET (08 R255). -/
def execRet (s : State) : Host.Outcome State Fault Refusal :=
  runGang [] (fun g => indirect s g (g.s 31)) s

/-! Structured mask instructions (08 R257 to R259). -/

/-- Entries a mask stack holds (01 R28). -/
def stackDepth : Nat := 32

/-- Skip to the target when no lane is left. -/
def skipIfEmpty (s : State) (g : Gang) (off : BitVec 20) : GRes :=
  if g.regs.exm = 0 then jumpTo s g (branchTarget g.regs.pc off) else .done g

/-- IF (08 R259). -/
def execIf (c : Cond) (off : BitVec 20) (s : State) : Host.Outcome State Fault Refusal :=
  runGang [] (fun g =>
    if stackDepth ≤ g.stack.length then .fault (flt .illegal)
    else
      skipIfEmpty s (({ g with stack := ⟨g.regs.exm, .if_, 0⟩ :: g.stack } : Gang).setExm (g.regs.exm &&& g.cond c)) off) s

/-- ELSE (08 R259). -/
def execElse (off : BitVec 20) (s : State) : Host.Outcome State Fault Refusal :=
  runGang [] (fun g =>
    match g.stack with
    | e :: es =>
      if e.kind = .if_ then
        skipIfEmpty s (({ g with stack := { e with kind := .else_ } :: es } : Gang).setExm
          (e.mask &&& ~~~ g.regs.exm)) off
      else .fault (flt .illegal)
    | [] => .fault (flt .illegal)) s

/-- ENDIF (08 R259). -/
def execEndif (s : State) : Host.Outcome State Fault Refusal :=
  runGang [] (fun g =>
    match g.stack with
    | e :: es =>
      if e.kind = .if_ ∨ e.kind = .else_ then .done (({ g with stack := es } : Gang).setExm e.mask)
      else .fault (flt .illegal)
    | [] => .fault (flt .illegal)) s

/-- LOOP (08 R259). -/
def execLoop (off : BitVec 20) (s : State) : Host.Outcome State Fault Refusal :=
  runGang [] (fun g =>
    if stackDepth ≤ g.stack.length then .fault (flt .illegal)
    else skipIfEmpty s { g with stack := ⟨g.regs.exm, .loop, 0⟩ :: g.stack } off) s

/-- ENDLOOP (08 R258, R259): a subscriber takes the outcome from TAKEN of its packet. -/
def execEndloop (c : Cond) (off : BitVec 20) (s : State) : Host.Outcome State Fault Refusal :=
  runGang [] (fun g =>
    match g.stack with
    | e :: es =>
      if e.kind = .loop then
        let k := e.mask &&& ~~~ e.brkm &&& ~~~ g.regs.pkm
        match s.cur.stream with
        | some p =>
          if p.taken then .done (g.setExm k) else .done (({ g with stack := es } : Gang).setExm e.mask)
        | none =>
          let t := k &&& g.cond c
          if t ≠ 0 then
            .jump (({ g with stack := { e with brkm := e.brkm ||| (k &&& ~~~ g.cond c) } :: es } : Gang).setExm t)
              (branchTarget g.regs.pc off)
          else .done (({ g with stack := es } : Gang).setExm e.mask)
      else .fault (flt .illegal)
    | [] => .fault (flt .illegal)) s

/-- Take lanes out of every entry above the innermost LOOP, and out of the loop itself for BREAK (08 R259). -/
def leaveLoop (brk : Bool) (x : Mask) : List Entry → Option (List Entry)
  | [] => none
  | e :: es =>
    match e.kind with
    | .loop => some ((if brk then { e with brkm := e.brkm ||| x } else e) :: es)
    | .tx => none
    | _ => (leaveLoop brk x es).map (fun t => { e with mask := e.mask &&& ~~~ x } :: t)

/-- BREAK and CONT (08 R259). -/
def breakOrCont (brk : Bool) (c : Cond) (off : BitVec 20) (s : State) : Host.Outcome State Fault Refusal :=
  runGang [] (fun g =>
    let x := g.regs.exm &&& g.cond c
    match leaveLoop brk x g.stack with
    | none => .fault (flt .illegal)
    | some st =>
      let g' := ({ g with stack := st } : Gang).setExm (g.regs.exm &&& ~~~ x)
      if g.stack.head?.map Entry.kind = some .loop then skipIfEmpty s g' off else .done g') s

/-- BREAK (08 R259). -/
def execBreak (c : Cond) (off : BitVec 20) (s : State) : Host.Outcome State Fault Refusal := breakOrCont true c off s

/-- CONT (08 R259). -/
def execCont (c : Cond) (off : BitVec 20) (s : State) : Host.Outcome State Fault Refusal := breakOrCont false c off s

/-! Convergence (01 R31, R32). -/

/-- Go back to the replay that a freeze with parked lanes interrupted, if there is one; else no save is held (log 73). -/
def Gang.popReplay (g : Gang) : Gang :=
  match g.outer with
  | v :: t => { g with save := some v, outer := t, replay := true }
  | [] => { g with save := none, replay := false }

/-- One replay ends at a CONV (01 R32): none when the CONV is not the one of its save. -/
def Gang.rejoin (g : Gang) (v : ConvSave) : Option Gang :=
  if v.pc = g.regs.pc ∧ v.stack.length = g.stack.length then
    some (({ g with stack := v.stack } : Gang).setExm (v.exm ||| g.regs.exm))
  else none

/-- The end of a replay at a CONV, and of those that it interrupted (01 R32, log 73): none when one of them cannot end here. -/
def Gang.endReplay (g : Gang) : Option Gang :=
  let saves := if g.replay then g.save.toList ++ g.outer else []
  (saves.foldlM Gang.rejoin g).map (fun g => { g with save := none, outer := [], replay := false })

/-- The CONV at which a subscriber's replay ends is the packet that heads its buffer, which the gang executes with it (01 R32, R47). -/
def State.joinStream (s : State) (g : Gang) : State :=
  if g.replay && g.follows then
    { s with cur := { s.cur with stream := g.chan.buf.head?.filter (fun p => p.pc == g.regs.pc) } }
  else s

/-- CONV (01 R31): no effect with PKM zero; with parked lanes the gang freezes and reports them. -/
def execConv (s : State) : Host.Outcome State Fault Refusal :=
  runFull .u [] false (fun s g =>
    match g.endReplay with
    | none => .fault (flt .illegal)
    | some g' =>
      if g'.regs.pkm = 0 then .done ((s.joinStream g).setMe { g' with cnt := { g'.cnt with sincePark := 0 } })
      else .gone (((s.setMe g').publish s.cur.core s.cur.slot s.cur.word false).freezeParked s.cur.core s.cur.slot)) s

/-- CONVERGENCE_COUNT_FREEZE (01 R31): 4,096 instructions retired since the first park without a CONV. -/
def convergenceDue (g : Gang) : Bool :=
  g.status == .running && g.regs.pkm != 0 && decide (4096 ≤ g.cnt.sincePark)

def execConvergenceCountFreeze (core : CoreId) (slot : SlotId) (s : State) : Host.Outcome State Fault Refusal :=
  .next (match s.gang? core slot with
    | some g => if convergenceDue g then s.freezeParked core slot else s
    | none => s)

/-! The end of a gang (08 R262, 10 R376). -/

/-- The gang has an accepted, incomplete engine command: copies, tile operations, select inputs (08 R262, 06 R202). Entries that a
completed drain holds for Q11 are none, and end with the gang (10 R349). -/
def State.engineBusy (s : State) (c : CoreId) (k : SlotId) : Bool :=
  let x := s.ctx c
  x.copies.any (fun y => y.2.slot == k) || x.ops.any (fun o => o.slot == k && !o.held) ||
    (match s.gang? c k with
     | some g => g.selIn != []
     | none => false)

/-- A record as bytes and its PRIO (06 R180). -/
def recPrio (r : Rec) : Nat := bits ((r[2]?).getD 0) 20 16

/-- Put a record into an inbox list: ahead of every record of lower priority; behind its own unless it returns (06 R182,
R183). -/
def inboxInsert (ret : Bool) (r : Rec) : List Rec → List Rec
  | [] => [r]
  | x :: xs =>
    if recPrio r > recPrio x ∨ (ret ∧ recPrio r = recPrio x) then r :: x :: xs else x :: inboxInsert ret r xs

/-- Records left in Q14 return to the inbox, keeping their order (06 R183). -/
def returnQ14 (q : List (Lanes Word)) (inbox : List Rec) : List Rec :=
  q.reverse.foldl (fun b e => inboxInsert true (e.toList.take 16) b) inbox

/-- The irrevocable token of a partition is released; commits that it held back go on (05 R170). -/
def State.releaseToken (s : State) (n : Fin 4) : State :=
  let s := s.modPart n (fun p => { p with token := false })
  (s.gangsOf s.parts[n]).foldl (fun s x => if x.2.2.why? = some .commit then s.wake x.1 x.2.1 else s) s

/-- A context without the ring requests of a gang. -/
def Ctx.withdraw (x : Ctx) (c : CoreId) (k : SlotId) : Ctx :=
  { x with ringReqs := x.ringReqs.filter (fun r => !(r.core == c && r.slot == k)) }

/-- Ring requests of a gang are withdrawn from every controller, saved ones among them. -/
def State.dropRing (s : State) (c : CoreId) (k : SlotId) : State := s.mapContexts (fun x => x.withdraw c k)

/-- Free a slot and what its gang holds: tiles, GROW requests, ring requests, loads in flight, held flags (08 R262). -/
def State.freeSlot (s : State) (c : CoreId) (k : SlotId) : State :=
  match s.gang? c k with
  | none => s
  | some g =>
    let s := s.modCtx c (fun x => { x with
      slots := x.slots.set k.val none
      tiles := x.tiles.map (fun t => if t.owner = some k then { t with owner := none } else t)
      inbox := returnQ14 (g.q[14]) x.inbox
      ops := x.ops.filter (fun o => o.slot != k)
      running := match x.running with
        | some n => if x.ops.any (fun o => o.seq == n && o.slot == k) then none else some n
        | none => none
      flights := (x.flights.filter (fun f => !(f.2.slot == k && (match f.2.act with | .load _ | .capLoad _ | .fields _ _ => true | _ => false)))).map
        (fun f => if f.2.slot = k then (f.1, { f.2 with dst := .none }) else f)
      buf := x.buf.map (fun b => { b with seen := b.seen &&& ~~~ (BitVec.twoPow 8 k.val) })
      txOwner := if x.txOwner = some k then none else x.txOwner })
    (if g.tx.irrev.isSome then s.releaseToken (s.partNo c) else s).dropRing c k

/-- YIELD (08 R263). -/
def execYield (s : State) : Host.Outcome State Fault Refusal :=
  runGang [] (fun g => .done { g with yielded := true }) s

/-- NOP (08 R261). -/
def execNop (s : State) : Host.Outcome State Fault Refusal := runGang [] (fun g => .done g) s

/-! Mode and flags (08 R264 to R266). -/

/-- MODE := m unless a field would be reserved (01 R24). -/
def Gang.writeMode (g : Gang) (m : Word) : GRes :=
  if modeLegal m then .done { g with regs := { g.regs with mode := m } } else .fault (flt .modeReserved)

/-- SETMODE (08 R264). -/
def execSetmode (a : SReg) (s : State) : Host.Outcome State Fault Refusal :=
  runGang [] (fun g =>
    if bits (g.s a) 63 32 ≠ 0 then .fault (flt .modeReserved) else g.writeMode ((g.s a).truncate 32)) s

/-- GETMODE (08 R261). -/
def execGetmode (a : SReg) (s : State) : Host.Outcome State Fault Refusal :=
  runGang [] (fun g => .done (g.setS a (g.regs.mode.zeroExtend 64))) s

/-- SETFS (08 R266). -/
def execSetfs (a : SReg) (s : State) : Host.Outcome State Fault Refusal :=
  runGang [] (fun g =>
    if bits (g.s a) 63 5 ≠ 0 then .fault (flt .modeReserved)
    else .done { g with regs := { g.regs with fstat := (g.s a).truncate 5 } }) s

/-- GETFS (08 R261). -/
def execGetfs (a : SReg) (s : State) : Host.Outcome State Fault Refusal :=
  runGang [] (fun g => .done (g.setS a (g.regs.fstat.zeroExtend 64))) s

/-- Lowest bit and width of a MODE field (01 R24, 08 R265). -/
def ModeField.place : ModeField → Nat × Nat
  | .guard => (0, 3) | .etype => (3, 5) | .rnd => (8, 3) | .ftz => (11, 1)
  | .sat => (12, 1) | .oosz => (13, 1) | .scope => (14, 3) | .kresume => (17, 5)

/-- MODE with one field replaced. -/
def setField (m : Word) (lo w v : Nat) : Word :=
  (m &&& ~~~ (BitVec.ofNat 32 ((2 ^ w - 1) * 2 ^ lo))) ||| BitVec.ofNat 32 (v * 2 ^ lo)

/-- SETMF (08 R265). -/
def execSetmf (f : ModeField) (imm : BitVec 12) (s : State) : Host.Outcome State Fault Refusal :=
  runGang [] (fun g =>
    let (lo, w) := ModeField.place f
    if 2 ^ w ≤ imm.toNat then .fault (flt .modeReserved) else g.writeMode (setField g.regs.mode lo w imm.toNat)) s

end Sys2Proof.Machine
end

