-- ==== Sys2Proof/Machine/Images.lean ====
section
/-! DEFINITION. Images of the matrix array and of the conversion commands: planar images (04 R112, 02 R66), packed rows
(10 R354), sparse images (04 R122, R123, R125) and the selection of PRUNE (04 R127 to R129). Images are read through a
function from byte offset to byte. -/

namespace Sys2Proof.Machine

abbrev Reader := Nat → Byte

/-- Bit k of a byte of a scratchpad. -/
def bitOf (b : Byte) (k : Nat) : Bool := b.getLsbD k

/-- A byte from its bits. -/
def byteOfBits (f : Nat → Bool) : Byte :=
  (List.range 8).foldl (fun b k => if f k then b ||| BitVec.twoPow 8 k else b) 0

/-- The number whose bits 0 to n - 1 are given. -/
def natOfBits (n : Nat) (f : Nat → Bool) : Nat := (List.range n).foldl (fun x k => if f k then x + 2 ^ k else x) 0

/-- A planar image (04 R112): rows, stored planes, chunks, scale rows. -/
structure Planar where
  base   : Nat
  rows   : Nat
  planes : Nat
  chunks : Nat
  scaled : Bool
deriving DecidableEq, Repr

/-- Row pitch F (04 R112). -/
def Planar.pitch (p : Planar) : Nat :=
  roundUpTo (p.chunks * p.planes * 128 + (if p.scaled then p.chunks * 32 else 0)) 128
def Planar.size (p : Planar) : Nat := p.rows * p.pitch

/-- Plane m of element k of a row. -/
def Planar.bit (p : Planar) (rd : Reader) (i k m : Nat) : Bool :=
  bitOf (rd (p.base + i * p.pitch + k / 1024 * p.planes * 128 + m * 128 + k % 1024 / 8)) (k % 8)

/-- Scale code of the block of element k; an image without scale rows has exponent 0 (04 R112). -/
def Planar.scaleByte (p : Planar) (i k : Nat) : Nat :=
  p.base + i * p.pitch + p.chunks * p.planes * 128 + k / 1024 * 32 + k % 1024 / 32
def Planar.scale (p : Planar) (rd : Reader) (i k : Nat) : Nat :=
  if p.scaled then (rd (p.scaleByte i k)).toNat else 127

/-- The element read at its first n planes, signed or unsigned (03 R102). -/
def Planar.elem (p : Planar) (rd : Reader) (signed_ : Bool) (n i k : Nat) : Int :=
  let x := natOfBits n (fun j => p.bit rd i k (n - 1 - j))
  if signed_ then signed n x else x

/-! What a byte of an image holds, as a function of the elements (c, j): column c, bit j from the least significant. -/

inductive ImgByte
  | bits (row : Nat) (cs : List (Option (Nat × Nat)))
  | scale (row c : Nat)
  | zero
  | pad
deriving DecidableEq, Repr

/-- Byte q of row k of a planar row of ncols columns (04 R112, 10 R354). -/
def planarByte (planes chunks : Nat) (scaled : Bool) (ncols k q : Nat) : ImgByte :=
  let body := chunks * planes * 128
  if q < body then
    let r := q % (planes * 128)
    let c := q / (planes * 128) * 1024 + r % 128 * 8
    let j := planes - 1 - r / 128
    .bits k ((List.range 8).map (fun t => if c + t < ncols then some (c + t, j) else none))
  else if scaled ∧ q < body + chunks * 32 then
    if (q - body) * 32 < ncols then .scale k ((q - body) * 32) else .zero
  else .pad

/-- Byte q of row k of a packed row of n-bit elements (10 R354, 09 R328). -/
def packedByte (n : Nat) (scaled : Bool) (ncols k q : Nat) : ImgByte :=
  let body := (ncols * n + 7) / 8
  if q < body then
    .bits k ((List.range 8).map (fun t =>
      let x := 8 * q + t
      if x < ncols * n then some (x / n, x % n) else none))
  else if scaled ∧ roundUpTo body 16 ≤ q then .scale k ((q - roundUpTo body 16) * 32)
  else .pad

/-- Bytes of a packed row (10 R354). -/
def packedRow (n : Nat) (scaled : Bool) (ncols : Nat) : Nat :=
  let body := (ncols * n + 7) / 8
  if scaled then roundUpTo body 16 + (ncols + 31) / 32 else body

/-! Sparse images. -/

/-- A sparsity header (04 R122). -/
structure SpHdr where
  magic  : Nat
  ver    : Nat
  n      : Nat
  mcode  : Nat
  trans  : Bool
  scaled : Bool
  pln    : Nat
  g      : Nat
  csum   : Nat
  rsv    : Bool
deriving DecidableEq, Repr

/-- The fields of 16 bytes (04 R122). -/
def SpHdr.parse (b : List Byte) : SpHdr :=
  let at_ (k : Nat) : Nat := (b.getD k 0).toNat
  { magic := at_ 0, ver := at_ 1, n := at_ 2, mcode := at_ 3 % 8, trans := at_ 3 / 8 % 2 == 1, scaled := at_ 3 / 16 % 2 == 1
    pln := at_ 4 % 16, g := field b 6 2, csum := field b 8 2
    rsv := at_ 3 / 32 != 0 || at_ 4 / 16 != 0 || at_ 5 != 0 || field b 10 6 != 0 }

/-- Lengths and starts of a sparse image (04 R123). -/
def SpHdr.m (h : SpHdr) : Nat := 4 * 2 ^ h.mcode
def SpHdr.b (h : SpHdr) : Nat := h.mcode + 2
def SpHdr.v (h : SpHdr) : Nat := h.g * h.n
def SpHdr.kl (h : SpHdr) : Nat := h.g * h.m
def SpHdr.fv (h : SpHdr) : Nat := (h.v + 1023) / 1024 * (h.pln + 1) * 128
def SpHdr.fs (h : SpHdr) : Nat := if h.scaled then (h.kl + 4095) / 4096 * 128 else 0
def SpHdr.fi (h : SpHdr) : Nat := (h.v + 1023) / 1024 * h.b * 128
def SpHdr.va (_ : SpHdr) : Nat := 128
def SpHdr.sa (h : SpHdr) : Nat := h.va + 32 * h.fv
def SpHdr.ia (h : SpHdr) : Nat := h.sa + 32 * h.fs
def SpHdr.size (h : SpHdr) : Nat := h.ia + 32 * h.fi

/-- The first failing condition of 04 R125 among 1 to 8; the conditions 5 to 7 belong to an MMA.S (kstep, n steps, pA planes). -/
def SpHdr.bad (h : SpHdr) (op : Option (Nat × Nat × Nat)) : Option Nat :=
  if h.magic ≠ 0xC5 ∨ h.ver ≠ 1 ∨ h.rsv then some 1
  else if h.n = 0 ∨ 4 < h.mcode then some 2
  else if h.m < h.n then some 3
  else if h.kl % 32 ≠ 0 then some 4
  else
    let mid : Option Nat :=
      match op with
      | some (kstep, n, pA) =>
        if kstep % h.m ≠ 0 then some 5 else if h.kl < n * kstep then some 6 else if h.pln + 1 < pA then some 7 else none
      | none => none
    match mid with
    | some x => some x
    | none => if h.trans ∧ h.m = 64 then some 8 else none

/-- Index j of row i (04 R123). -/
def SpHdr.index (h : SpHdr) (base : Nat) (rd : Reader) (i j : Nat) : Nat :=
  natOfBits h.b (fun k =>
    bitOf (rd (base + h.ia + i * h.fi + j / 1024 * h.b * 128 + (h.b - 1 - k) * 128 + j % 1024 / 8)) (j % 8))

/-- Value j of row i read at its first p planes. -/
def SpHdr.value (h : SpHdr) (base : Nat) (rd : Reader) (signed_ : Bool) (p i j : Nat) : Int :=
  let s := h.pln + 1
  let x := natOfBits p (fun k =>
    bitOf (rd (base + h.va + i * h.fv + j / 1024 * s * 128 + (p - 1 - k) * 128 + j % 1024 / 8)) (j % 8))
  if signed_ then signed p x else x

/-- Scale code of logical element k of row i. -/
def SpHdr.scale (h : SpHdr) (base : Nat) (rd : Reader) (i k : Nat) : Nat :=
  if h.scaled then (rd (base + h.sa + i * h.fs + k / 32)).toNat else 127

/-- The logical element k of row i: the value that stands there, or zero (04 R123). -/
def SpHdr.elem (h : SpHdr) (base : Nat) (rd : Reader) (signed_ : Bool) (p i k : Nat) : Int :=
  let g := k / h.m
  match (List.range h.n).find? (fun e => h.index base rd i (g * h.n + e) == k % h.m) with
  | some e => h.value base rd signed_ p i (g * h.n + e)
  | none => 0

/-- Sum of the 16-bit words of the index area (04 R123). -/
def SpHdr.sum (h : SpHdr) (base : Nat) (rd : Reader) : Nat :=
  ((List.range (16 * h.fi)).foldl (fun x k =>
    x + (rd (base + h.ia + 2 * k)).toNat + 256 * (rd (base + h.ia + 2 * k + 1)).toNat) 0) % 65536

/-- The first group, in row-major order, whose indices are not strictly ascending (04 R125, condition 10). -/
def SpHdr.badGroup (h : SpHdr) (base : Nat) (rd : Reader) : Option Nat :=
  (List.range (32 * h.g)).find? (fun x =>
    (List.range (h.n - 1)).any (fun e =>
      decide (h.index base rd (x / h.g) (x % h.g * h.n + e + 1) ≤ h.index base rd (x / h.g) (x % h.g * h.n + e))))

/-! PRUNE (04 R127 to R129). -/

/-- Rank of a magnitude: |q| × 2^s, with 0x00 lowest and 0xFF above every finite one. -/
def magnitude (q : Int) (s : Nat) : Nat := if s = 0 then 0 else if s = 255 then 2 ^ 300 else q.natAbs * 2 ^ s

/-- Positions 0 to n - 1 in descending magnitude, equal ones by position. -/
def byMagnitude (mag : Nat → Nat) (n : Nat) : List Nat :=
  let pos := List.range n
  let top := pos.foldl (fun m x => max m (mag x)) 0
  sortBy (fun x => top - mag x) pos

/-- Indices kept in one row's group, without the transposable flag (04 R127). -/
def keepRow (mag : Nat → Nat) (m n : Nat) : List Nat := sortBy id ((byMagnitude mag m).take n)

/-- Entries accepted in an M × M block in the order of 04 R128, as row × M + column. -/
def keepBlock (mag : Nat → Nat) (m n : Nat) : List Nat :=
  ((byMagnitude mag (m * m)).filter (fun x => mag x != 0)).foldl (fun acc x =>
    if (acc.filter (fun y => y / m == x / m)).length < n ∧ (acc.filter (fun y => y % m == x % m)).length < n
    then acc ++ [x] else acc) []

/-- The kept entries of row r of a block: index and whether its value stands, padded with explicit zeros. -/
def keepTrans (acc : List Nat) (m n r : Nat) : List (Nat × Bool) :=
  let mine := (acc.filter (fun y => y / m == r)).map (· % m)
  let pad := ((List.range m).filter (fun x => !mine.contains x)).take (n - mine.length)
  sortBy Prod.fst (mine.map (fun x => (x, true)) ++ pad.map (fun x => (x, false)))

/-- Parameters of a PRUNE (10 R355). -/
structure PruneArgs where
  src   : Planar
  n     : Nat
  mcode : Nat
  trans : Bool
  seed  : Nat
deriving DecidableEq, Repr

def PruneArgs.m (p : PruneArgs) : Nat := 4 * 2 ^ p.mcode
/-- The header PRUNE writes, its checksum aside (04 R129). -/
def PruneArgs.hdr (p : PruneArgs) : SpHdr :=
  { magic := 0xC5, ver := 1, n := p.n, mcode := p.mcode, trans := p.trans, scaled := p.src.scaled
    pln := p.src.planes - 1, g := 1024 * p.src.chunks / p.m, csum := 0, rsv := false }

/-- The kept entries of row i, group g, in ascending index. -/
def PruneArgs.kept (p : PruneArgs) (rd : Reader) (i g : Nat) : List (Nat × Bool) :=
  let mag (r c : Nat) : Nat :=
    magnitude (p.src.elem rd true p.src.planes r (g * p.m + c)) (p.src.scale rd r (g * p.m + c))
  if p.trans then
    keepTrans (keepBlock (fun x => mag (i / p.m * p.m + x / p.m) (x % p.m)) p.m p.n) p.m p.n (i % p.m)
  else (keepRow (mag i) p.m p.n).map (fun x => (x, true))

/-- All kept entries of the image by row. -/
def PruneArgs.table (p : PruneArgs) (rd : Reader) : List (List (Nat × Bool)) :=
  (List.range 32).map (fun i => (List.range p.hdr.g).flatMap (p.kept rd i))

/-- Bit of an area whose rows hold entries j by planes; the bits past the last entry are free (log 4). -/
def areaByte (seed planes count : Nat) (f : Nat → Nat → Bool) (start q : Nat) : Byte :=
  let h := q / (planes * 128)
  let m := q % (planes * 128) / 128
  byteOfBits (fun t =>
    let j := h * 1024 + q % 128 * 8 + t
    if j < count then f j m else (Config.nat2 seed (8 * (start + q) + t)) % 2 == 1)

/-- The bytes of the image from the value area on: values, scales, indices. -/
def PruneArgs.body (p : PruneArgs) (rd : Reader) : List Byte :=
  let h := p.hdr
  let t := p.table rd
  let ent (i j : Nat) : Nat × Bool := ((t[i]?.getD [])[j]?).getD (0, false)
  let vals := (List.range (32 * h.fv)).map (fun x =>
    areaByte p.seed (h.pln + 1) h.v (fun j m =>
      let e := ent (x / h.fv) j
      e.2 && p.src.bit rd (x / h.fv) (j / h.n * h.m + e.1) m) (x / h.fv * h.fv) (x % h.fv))
  let scal := (List.range (32 * h.fs)).map (fun x =>
    if x % h.fs * 32 < h.kl then rd (p.src.scaleByte (x / h.fs) (x % h.fs * 32))
    else BitVec.ofNat 8 (Config.nat2 p.seed (2 ^ 32 + x)))
  let inds := (List.range (32 * h.fi)).map (fun x =>
    areaByte p.seed h.b h.v (fun j m => ((ent (x / h.fi) j).1).testBit (h.b - 1 - m)) (2 ^ 33 + x / h.fi * h.fi) (x % h.fi))
  vals ++ scal ++ inds

/-- The whole sparse image with its header and checksum (04 R129). -/
def PruneArgs.image (p : PruneArgs) (rd : Reader) : List Byte :=
  let h := p.hdr
  let body := p.body rd
  let area := body.drop (32 * h.fv + 32 * h.fs)
  let sum := ((List.range (16 * h.fi)).foldl (fun x k => x + (area.getD (2 * k) 0).toNat + 256 * (area.getD (2 * k + 1) 0).toNat) 0) % 65536
  let head := [0xC5, 1, BitVec.ofNat 8 h.n,
    BitVec.ofNat 8 (h.mcode + (if h.trans then 8 else 0) + (if h.scaled then 16 else 0)), BitVec.ofNat 8 h.pln, 0]
    ++ toBytes 2 h.g ++ toBytes 2 sum
  head ++ List.replicate 118 0 ++ body

end Sys2Proof.Machine
end

