-- ==== Sys2Proof/Machine/Sha3.lean ====
section
/-! DEFINITION. SHA3-256, the hash that 12 R443 and R445 name by its standard, FIPS 202 (log 6). -/

namespace Sys2Proof.Machine

/-- The 25 lanes of the permutation's state: lane (x, y) stands at x + 5y. -/
abbrev Sponge : Type := List (BitVec 64)

def Sponge.at_ (a : Sponge) (i : Nat) : BitVec 64 := a.getD i 0

/-- Step θ: each lane takes the parity of two columns. -/
def Sponge.theta (a : Sponge) : Sponge :=
  let c : Sponge := (List.range 5).map (fun x => a.at_ x ^^^ a.at_ (x + 5) ^^^ a.at_ (x + 10) ^^^ a.at_ (x + 15) ^^^ a.at_ (x + 20))
  let d : Sponge := (List.range 5).map (fun x => c.at_ ((x + 4) % 5) ^^^ (c.at_ ((x + 1) % 5)).rotateLeft 1)
  (List.range 25).map (fun i => a.at_ i ^^^ d.at_ (i % 5))

/-- Where step π takes lane (x, y) from, and by how much step ρ has turned it. -/
def spongeMoves : List (Nat × Nat) :=
  [(0, 0), (6, 44), (12, 43), (18, 21), (24, 14), (3, 28), (9, 20), (10, 3), (16, 45), (22, 61), (1, 1), (7, 6), (13, 25), (19, 8), (20, 18)] ++
  [(4, 27), (5, 36), (11, 10), (17, 15), (23, 56), (2, 62), (8, 55), (14, 39), (15, 41), (21, 2)]

/-- Steps ρ and π. -/
def Sponge.rhoPi (a : Sponge) : Sponge := spongeMoves.map (fun m => (a.at_ m.1).rotateLeft m.2)

/-- Step χ: the one step that is not linear. -/
def Sponge.chi (a : Sponge) : Sponge :=
  (List.range 25).map (fun i => a.at_ i ^^^ (~~~ a.at_ (i / 5 * 5 + (i + 1) % 5) &&& a.at_ (i / 5 * 5 + (i + 2) % 5)))

/-- Round constants of step ι. -/
def spongeRounds : List (BitVec 64) :=
  [0x0000000000000001, 0x0000000000008082, 0x800000000000808A, 0x8000000080008000, 0x000000000000808B, 0x0000000080000001,
    0x8000000080008081, 0x8000000000008009, 0x000000000000008A, 0x0000000000000088, 0x0000000080008009, 0x000000008000000A] ++
  [0x000000008000808B, 0x800000000000008B, 0x8000000000008089, 0x8000000000008003, 0x8000000000008002, 0x8000000000000080,
    0x000000000000800A, 0x800000008000000A, 0x8000000080008081, 0x8000000000008080, 0x0000000080000001, 0x8000000080008008]

/-- One round. -/
def Sponge.round (a : Sponge) (rc : BitVec 64) : Sponge :=
  match a.theta.rhoPi.chi with
  | x :: t => (x ^^^ rc) :: t
  | [] => []

/-- The permutation Keccak-p[1600, 24]. -/
def Sponge.permute (a : Sponge) : Sponge := spongeRounds.foldl Sponge.round a

/-- Bytes that a block of SHA3-256 takes in. -/
def hashRate : Nat := 136

/-- A block taken in. -/
def Sponge.absorb (a : Sponge) (block : List Byte) : Sponge :=
  Sponge.permute ((List.range 25).map (fun i => a.at_ i ^^^ BitVec.ofNat 64 (ofBytes ((block.drop (8 * i)).take 8))))

/-- The message with its domain bits and its padding: a whole number of blocks. -/
def hashPadded (b : List Byte) : List Byte :=
  let n := hashRate - b.length % hashRate
  b ++ (if n = 1 then [0x86] else 0x06 :: List.replicate (n - 2) 0 ++ [0x80])

/-- Blocks of the message, one after another. -/
def Sponge.absorbAll (a : Sponge) (b : List Byte) : Nat → Sponge
  | 0 => a
  | n + 1 => (a.absorb (b.take hashRate)).absorbAll (b.drop hashRate) n

/-- SHA3-256: 32 bytes. -/
@[irreducible] def sha3 (b : List Byte) : List Byte :=
  let p := hashPadded b
  (((Sponge.absorbAll (List.replicate 25 0) p (p.length / hashRate)).take 4).flatMap (fun l => toBytes 8 l.toNat))

end Sys2Proof.Machine
end

