-- ==== Sys2Proof/Machine/Log.lean ====
section
/-! DEFINITION. The event log of the module (12 R447, 15 R465), and the holds of Fount, which it records (15 R467). -/

namespace Sys2Proof.Machine

/-! The log. -/

/-- Kinds of log entry that the manual does not number (12 R447). -/
inductive LogKind
  | claim | grant | lapse | yield | partition | escalation | update | port | late
deriving DecidableEq, Repr

def LogKind.num (k : LogKind) : Nat :=
  Config.logType (match k with
    | .claim => 0 | .grant => 1 | .lapse => 2 | .yield => 3 | .partition => 4 | .escalation => 5 | .update => 6 | .port => 7 | .late => 8)

/-- Entries of one segment, and segments that the flash holds (12 R447). -/
def segEntries : Nat := 976
def logSegments : Nat := 128

def padTo (n : Nat) (b : List Byte) : List Byte := (b ++ List.replicate n 0).take n

/-- Segment of an entry, counted from the first ever written. -/
def entrySegment (e : List Byte) : Nat := ofBytes (e.take 8) / segEntries

/-- Append an entry, the bytes of its detail after those given being free: the segment that it begins replaces the oldest one
(12 R447). -/
def State.logAdd (s : State) (type : Nat) (master part : Byte) (detail : List Byte) : State :=
  let f := s.fount
  let e := toBytes 8 f.logSeq ++ toBytes 8 f.time ++ toBytes 2 type ++ [master, part] ++
    (detail ++ padTo 28 (Config.logDetail f.logSeq)).take 28 ++ (sha3 ((f.log.getLast?).getD [])).take 16
  { s with fount := { f with
    log := f.log.dropWhile (fun x => decide (entrySegment x + logSegments ≤ f.logSeq / segEntries)) ++ [e]
    logSeq := f.logSeq + 1 } }

def partByte (n : Option (Fin 4)) : Byte :=
  match n with
  | some n => BitVec.ofNat 8 n.val
  | none => 0xFF

/-- Log an event of a kind, by a master, about a partition. -/
def State.logKind (s : State) (k : LogKind) (m : Byte) (n : Option (Fin 4)) : State := s.logAdd k.num m (partByte n) []

/-- The detail of an entry of 15 R465. DESIGN CHOICE (log 106): its items stand in the order of the table, four bytes each. -/
def logItems (l : List Nat) : List Byte := l.flatMap (toBytes 4)

/-- Log a power event of 15 R465, with the items of its detail. -/
def State.logPower (s : State) (type : Nat) (m : Byte) (n : Option (Fin 4)) (items : List Nat) : State :=
  s.logAdd type m (partByte n) (logItems items)

/-! Holds (15 R467). -/

/-- The items of an entry 0x0104: gang address, code, action. DESIGN CHOICE (log 106): a hold that ends without an action of FRESUME shows 0xFF. -/
def State.logHold (s : State) (m : Byte) (c : CoreId) (k : SlotId) (code act : Nat) : State :=
  s.logPower 0x0104 m (s.partOf (dieOf c)) [gangAddr c k, 0, code, act]

/-- Codes of the packets for which a context's gangs and commands are held, each with its slot; t chooses among the slots. -/
def Ctx.heldIn (x : Ctx) (t : SlotId → Bool) : List (SlotId × Nat) :=
  (x.gangs.filter (fun kg => t kg.1)).filterMap (fun kg => kg.2.hold.map (fun c => (kg.1, c))) ++
    (x.copies.filter (fun y => t y.2.slot)).filterMap (fun y => y.2.hold.map (fun c => (y.2.slot, c)))

/-- Log the end of some holds. -/
def State.logEnded (s : State) (c : CoreId) (m : Byte) (act : Nat) (l : List (SlotId × Nat)) : State :=
  l.foldl (fun s x => s.logHold m c x.1 x.2 act) s

/-- What Fount holds of a partition: on cores and in saved contexts. -/
def State.heldOf (s : State) (p : Part) : List (CoreId × SlotId × Nat) :=
  (s.contexts p).flatMap (fun cx => (cx.2.heldIn (fun _ => true)).map (fun h => (cx.1, h)))

/-- Every hold in a partition ends: with its end or with a trip. -/
def State.endHolds (s : State) (n : Fin 4) : State :=
  (s.heldOf s.parts[n]).foldl (fun s x => s.logHold 0xFF x.1 x.2.1 x.2.2 0xFF) s

/-- Gangs and commands held in the module (15 R463). -/
def State.heldCount (s : State) : Nat := (List.finRange 4).foldl (fun t n => t + (s.heldOf s.parts[n]).length) 0

/-- Fount holds the gang in a slot, or a command of it (15 R467). -/
def State.heldBy (s : State) (c : CoreId) (k : SlotId) (n : Option Nat) : Bool :=
  match n with
  | none => (s.gang? c k).any (fun g => g.hold.isSome)
  | some n => (s.copy? c n).any (fun y => y.slot == k && y.hold.isSome)

/-- A gang's hold, or that of a command of it, ends, and the log says so. -/
def State.release (s : State) (c : CoreId) (k : SlotId) (n : Option Nat) (m : Byte) (act : Nat) : State :=
  match n with
  | none =>
    match (s.gang? c k).bind Gang.hold with
    | some code => (s.modGang c k (fun g => { g with hold := none })).logHold m c k code act
    | none => s
  | some n =>
    match (s.copy? c n).bind (fun y => if y.slot = k then y.hold.map (fun h => (y, h)) else none) with
    | some (y, code) => (s.setCopy c n { y with hold := none }).logHold m c k code act
    | none => s

end Sys2Proof.Machine
end

