-- ==== Sys2Proof/Machine/Engines.lean ====
section
/-! DEFINITION. The copy engine (02 R78 to R81, R468; 09 R323 to R332) and the conversion commands PRUNE, PLANE and UNPLANE
(10 R353 to R355). -/

namespace Sys2Proof.Machine

/-- The end of the scratchpad that programs may use (06 R181). -/
def programTop : Nat := 0x37000

def require (b : Bool) (f : Flt) : Except Flt Unit := if b then .ok () else .error f

/-! Fields of a command. -/

def Copy.d (y : Copy) (k : Nat) : Nat := ((y.words[k]?).getD 0).toNat
/-- A 64-bit offset of two descriptor lanes (09 R324). -/
def Copy.off (y : Copy) (k : Nat) : Nat := y.d k + 2 ^ 32 * y.d (k + 1)
/-- First source and destination byte, or flat element. -/
def Copy.srcAt (y : Copy) : Nat := y.src.origin + y.off 0
def Copy.dstAt (y : Copy) : Nat := y.dst.origin + y.off 2
def Copy.ilv (y : Copy) : Bool := (y.d 5).testBit 5

/-- Runs of bytes of one scratchpad: rows of len bytes, pitch bytes apart. -/
structure Ext where
  first : Nat
  rows  : Nat := 1
  pitch : Nat := 0
  len   : Nat
deriving DecidableEq, Repr

def Ext.empty (e : Ext) : Bool := e.rows == 0 || e.len == 0
def Ext.stop (e : Ext) : Nat := e.first + (e.rows - 1) * e.pitch + e.len
def Ext.granules (e : Ext) : List Nat := (List.range e.rows).flatMap (fun r => granulesOf (e.first + r * e.pitch) e.len)

/-- The extent lies in its capability's range and below the reserved ranges (R323 step 3). -/
def Ext.within (e : Ext) (c : Cap) : Bool :=
  e.empty || (decide (c.origin ≤ e.first) && decide (e.stop ≤ c.origin + c.length) && decide (e.stop ≤ programTop))
def Ext.aligned (e : Ext) : Bool := e.first % 16 == 0 && e.len % 16 == 0 && e.pitch % 16 == 0

def Ext.check (e : Ext) (c : Cap) (creg : Nat) : Except Flt Unit :=
  require (e.within c) (offFlt (capFlt .capBounds c creg) e.first)
def Ext.checkAlign (e : Ext) (c : Cap) (creg : Nat) : Except Flt Unit :=
  require e.aligned (offFlt (capFlt .misaligned c creg) e.first)

/-- n flat elements from f lie in the capability's range (R323 step 3). -/
def flatWithin (c : Cap) (creg f n : Nat) : Except Flt Unit :=
  require (n == 0 || (decide (c.origin ≤ f) && decide (f + n ≤ c.origin + c.length))) (offFlt (capFlt .capBounds c creg) f)

/-- R325 for an OBJECT side that moves n bytes. -/
def objectAlign (c : Cap) (creg : Nat) (r : ObjRec) (n : Nat) : Except Flt Unit :=
  require ((r.layout == 0 || r.layout == 1) && fmtBits r.fmt != 0 && n % (fmtBits r.fmt / 8) == 0) (capFlt .misaligned c creg)

/-- A capability of one of the spaces that a command takes on a side (R323 step 2). -/
def State.sideReach (s : State) (core : CoreId) (c : Cap) (creg : Nat) (spaces : List Nat) (am need : Nat) : Except Flt Reach :=
  if c.tag && !spaces.contains c.space then .error (capFlt .capPerm c creg) else s.reach core c creg am need

/-- The overlap test (02 R79): two ranges share a unit. -/
def capsMeet (a b : Cap) : Bool :=
  a.space == b.space && (a.space != 2 || a.id == b.id) && a.length != 0 && b.length != 0 &&
    decide (a.origin < b.origin + b.length) && decide (b.origin < a.origin + a.length)

/-- What an accepted command writes: its destinations and the scratchpad runs there. -/
structure Plan where
  dests : List CopyDest
  exts  : List (CoreId × Ext)
deriving DecidableEq, Repr

/-! CPY. -/

/-- The sites that a NEAR run of n bytes from o touches: half and position, first byte there, bytes (02 R55). -/
def nearRuns (ilv : Bool) (o n : Nat) : List (Nat × Nat × Nat) :=
  (List.range 32).filterMap (fun key =>
    let h := key / 16
    let pos := key % 16
    let lo := max o (h * 2 ^ 22)
    let hi := min (o + n) ((h + 1) * 2 ^ 22)
    if hi ≤ lo then none
    else if ilv then
      let a := lo / 16 - h * 2 ^ 18
      let b := (hi + 15) / 16 - h * 2 ^ 18
      let j0 := (a + 15 - pos) / 16
      let j1 := (b + 15 - pos) / 16
      if j1 ≤ j0 then none else some (key, 16 * j0, 16 * (j1 - j0))
    else
      let l := max lo (h * 2 ^ 22 + pos * 2 ^ 18)
      let u := min hi (h * 2 ^ 22 + (pos + 1) * 2 ^ 18)
      if u ≤ l then none else some (key, l % 2 ^ 18, u - l))

/-- The NEAR offset of byte b of a site (02 R55). -/
def nearOffset (ilv : Bool) (key b : Nat) : Nat :=
  key / 16 * 2 ^ 22 + (if ilv then b / 16 * 256 + key % 16 * 16 + b % 16 else key % 16 * 2 ^ 18 + b)

/-- A NEAR run lies in the capability's range, in each half (02 R55). -/
def nearWithin (c : Cap) (xd o n : Nat) : Bool :=
  n == 0 || (decide (o + n ≤ (if xd = 0 then 2 ^ 22 else 2 ^ 23)) &&
    [0, 1].all (fun h =>
      let lo := max o (h * 2 ^ 22)
      let hi := min (o + n) ((h + 1) * 2 ^ 22)
      decide (hi ≤ lo) || (decide (c.origin ≤ lo - h * 2 ^ 22) && decide (hi - h * 2 ^ 22 ≤ c.origin + c.length))))

def nearSite (home other : CoreId) (key : Nat) : CoreId :=
  let base := if key / 16 = 1 then other else home
  siteAt (dieOf base).val (xOf base + key % 16 % 4) (yOf base + key % 16 / 4)

def State.planCpy (s : State) (core : CoreId) (y : Copy) : Except Flt Plan := do
  let len := y.d 4
  require (!(y.ilv && y.dst.space != 1)) (flt .illegal)
  let rs ← s.sideReach core y.src y.sreg [0, 2] 0 pR
  let rd ← s.sideReach core y.dst y.dreg [0, 1, 2] (if y.dst.space = 1 then (if y.ilv then 2 else 1) else 0) pW
  let se : Ext := { first := y.srcAt, len := len }
  let de : Ext := { first := y.dstAt, len := len }
  match rs with
  | .object r => flatWithin y.src y.sreg y.srcAt (len / max 1 (fmtBits r.fmt / 8))
  | _ => se.check y.src y.sreg
  let runs := nearRuns y.ilv y.dstAt len
  match rd with
  | .object r => flatWithin y.dst y.dreg y.dstAt (len / max 1 (fmtBits r.fmt / 8))
  | .near _ _ xd =>
    require (nearWithin y.dst xd y.dstAt len && runs.all (fun r => decide (r.2.1 + r.2.2 ≤ programTop)))
      (offFlt (capFlt .capBounds y.dst y.dreg) y.dstAt)
  | _ => de.check y.dst y.dreg
  match rs with
  | .object r => objectAlign y.src y.sreg r len
  | _ => se.checkAlign y.src y.sreg
  match rd with
  | .object r => objectAlign y.dst y.dreg r len
  | _ => de.checkAlign y.dst y.dreg
  match rd with
  | .object _ => .ok ⟨[{ core := none, total := len }], []⟩
  | .near home other _ =>
    .ok ⟨runs.map (fun r => { core := some (nearSite home other r.1), key := r.1, first := r.2.1, total := r.2.2 }),
      runs.map (fun r => (nearSite home other r.1, { first := r.2.1, len := r.2.2 }))⟩
  | _ => .ok ⟨[{ core := some core, first := de.first, total := len }], [(core, de)]⟩

/-! CPYM (02 R80, 09 R327). -/

/-- The sites of RECT by number; with SKIPDARK the working ones. -/
def State.rectSites (s : State) (y : Copy) : List CoreId :=
  let r := y.d 7
  let all := (List.range (r / 2 ^ 15 % 32 + 1)).flatMap (fun dy =>
    (List.range (r / 2 ^ 10 % 32 + 1)).map (fun dx => siteAt (r / 2 ^ 20 % 4) (r % 32 + dx) (r / 2 ^ 5 % 32 + dy)))
  if y.skip then all.filter (fun c => !s.noCore c) else all

/-- Rows that site n of N receives. -/
def blockRows (d b n total : Nat) : Nat :=
  if b = d then d
  else
    let k := (d + b - 1) / b
    if n < k then
      let cnt := (k - 1 - n) / total + 1
      (cnt - 1) * b + min b (d - (n + (cnt - 1) * total) * b)
    else 0

/-- The source row of the rr-th row that site n receives. -/
def blockRow (d b n total rr : Nat) : Nat := if b = d then rr else (rr / b * total + n) * b + rr % b

def State.planCpym (s : State) (core : CoreId) (y : Copy) : Except Flt Plan := do
  let rowb := y.d 4
  let r := y.d 7
  let d := y.d 8
  let b := y.d 10
  require (!y.ilv && r / 2 ^ 22 == 0 && decide (r % 32 + r / 2 ^ 10 % 32 ≤ 31) &&
    decide (r / 2 ^ 5 % 32 + r / 2 ^ 15 % 32 ≤ 31) && decide (1 ≤ b) && decide (b ≤ d)) (flt .illegal)
  require ((s.part core).has (BitVec.ofNat 2 (r / 2 ^ 20)).toFin) (flt .notMapped)
  let rs ← s.sideReach core y.src y.sreg [0, 2] 0 pR
  let _ ← s.sideReach core y.dst y.dreg [0] 0 pW
  let se : Ext := { first := y.srcAt, rows := d, pitch := y.d 9, len := rowb }
  let sites := s.rectSites y
  let parts := ((List.range sites.length).zip sites).map (fun x => (x.1, x.2, blockRows d b x.1 sites.length * rowb))
  match rs with
  | .object o => flatWithin y.src y.sreg y.srcAt (if rowb = 0 then 0 else (d - 1) * y.d 9 + rowb / max 1 (fmtBits o.fmt / 8))
  | _ => se.check y.src y.sreg
  require (parts.all (fun x => Ext.within { first := y.dstAt, len := x.2.2 } y.dst))
    (offFlt (capFlt .capBounds y.dst y.dreg) y.dstAt)
  match rs with
  | .object o => objectAlign y.src y.sreg o rowb
  | _ => se.checkAlign y.src y.sreg
  Ext.checkAlign { first := y.dstAt, len := rowb } y.dst y.dreg
  .ok ⟨parts.map (fun x => { core := some x.2.1, key := x.1, first := y.dstAt, total := x.2.2 }),
    parts.map (fun x => (x.2.1, { first := y.dstAt, len := x.2.2 }))⟩

/-! CPYO (09 R328). -/

def Copy.form (y : Copy) : Nat := y.d 7 % 4
def Copy.toObject (y : Copy) : Bool := (y.d 7).testBit 2
def Copy.ncols (y : Copy) : Nat := y.d 4
def Copy.nrows (y : Copy) : Nat := y.d 8

/-- The object side of a CPYO: capability, register, start. -/
def Copy.objSide (y : Copy) : Cap × Nat × Nat :=
  if y.toObject then (y.dst, y.dreg, y.dstAt) else (y.src, y.sreg, y.srcAt)
def Copy.padAt (y : Copy) : Nat := if y.toObject then y.srcAt else y.dstAt

/-- Coordinates of element (k, c) of the window (02 R64). -/
def Copy.winCoords (y : Copy) (r : ObjRec) (k c : Nat) : List Int :=
  addLast2 (decompose r.dims2 y.objSide.2.2) ((y.d 11 + k : Nat) : Int) ((y.d 12 + c : Nat) : Int)

/-- The LOCAL planar image of FORM 1. -/
def Copy.planar (y : Copy) (r : ObjRec) : Planar :=
  { base := y.padAt, rows := y.nrows, planes := fmtBits r.fmt, chunks := (y.ncols + 1023) / 1024, scaled := fmtBni r.fmt }

/-- Bytes of a row of the LOCAL image. -/
def Copy.imgRow (y : Copy) (r : ObjRec) : Nat :=
  if y.form = 1 then (y.planar r).pitch else (y.ncols * fmtBits r.fmt + 7) / 8
def Copy.imgPitch (y : Copy) (r : ObjRec) : Nat := if y.form = 1 then (y.planar r).pitch else y.d 9

/-- Formats each FORM takes (09 R328). -/
def formTakes (form fmt : Nat) : Bool :=
  let n := fmtBits fmt
  n != 0 &&
    (if fmtBni fmt then form == 1
     else if form = 0 then n % 8 == 0
     else if form = 1 then fmtLayout fmt 2
     else decide (n ≤ 8))

/-- Bit address of bit j of element offset e (02 R66). -/
def ObjRec.bitAt (r : ObjRec) (e j : Nat) : Nat :=
  let n := fmtBits r.fmt
  if r.layout = 3 then e * n + j
  else if r.layout = 2 then
    let lp := max 1 (roundUpTo r.inner 1024)
    8 * (e / lp * r.planarF + e % lp / 1024 * n * 128 + (n - 1 - j) * 128 + e % 1024 / 8) + e % 8
  else 8 * r.byteOf e + j

/-- Byte of the scale of element offset e in a PLANAR object, or past the bits of a PACKED one (02 R66). -/
def ObjRec.scaleAt (r : ObjRec) (e : Nat) : Nat :=
  let lp := max 1 (roundUpTo r.inner 1024)
  e / lp * r.planarF + r.planarC * fmtBits r.fmt * 128 + e % lp / 1024 * 32 + e % 1024 / 32

/-- Element offset of window element (k, c). -/
def Copy.winElem (y : Copy) (r : ObjRec) (k c : Nat) : Nat := (elemOffset r.dims2 r.strides2 (y.winCoords r k c)).toNat

/-- Scales go with a bni object that keeps them (02 R66). -/
def ObjRec.hasScales (r : ObjRec) : Bool := fmtBni r.fmt && r.layout == 2

/-- The bits of an object's layout that a window holds: bit address and the image bit (row, column, bit) it goes with. -/
def Copy.winBits (y : Copy) (r : ObjRec) : List (Nat × Nat × Nat × Nat) :=
  (List.range y.nrows).flatMap (fun k => (List.range y.ncols).flatMap (fun c =>
    (List.range (fmtBits r.fmt)).map (fun j => (r.bitAt (y.winElem r k c) j, k, c, j))))

/-- The scale bytes of a window: byte and the image element whose block it is. -/
def Copy.winScales (y : Copy) (r : ObjRec) : List (Nat × Nat × Nat) :=
  if r.hasScales then
    (List.range y.nrows).flatMap (fun k => (List.range ((y.ncols + 31) / 32)).map (fun b =>
      (r.scaleAt (y.winElem r k (32 * b)), k, 32 * b)))
  else []

/-- The layout bytes of the window, ascending. -/
def Copy.winBytes (y : Copy) (r : ObjRec) : List Nat :=
  Granules.put ((y.winBits r).foldl (fun a x => Granules.add a (x.1 / 8)) ((y.winScales r).foldl (fun a x => Granules.add a x.1) []))
    (2 ^ 64) false

def State.planCpyo (s : State) (core : CoreId) (y : Copy) : Except Flt Plan := do
  require (!y.ilv && y.d 7 / 8 == 0 && y.form != 3 && !(y.toObject && y.chan.isSome) && !(y.form == 1 && y.d 12 % 32 != 0))
    (flt .illegal)
  let rs ← s.sideReach core y.src y.sreg [if y.toObject then 0 else 2] 0 pR
  let rd ← s.sideReach core y.dst y.dreg [if y.toObject then 2 else 0] 0 pW
  let (oc, oreg, ostart) := y.objSide
  match (if y.toObject then rd else rs) with
  | .object r =>
    require (formTakes y.form r.fmt && !(fmtBni r.fmt && y.d 12 % 32 != 0) &&
      !(y.toObject && fmtBni r.fmt && y.ncols % 32 != 0)) (flt .illegal)
    let (pc, preg) := if y.toObject then (y.src, y.sreg) else (y.dst, y.dreg)
    let e : Ext := { first := y.padAt, rows := y.nrows, pitch := y.imgPitch r, len := y.imgRow r }
    let none_ := y.nrows == 0 || y.ncols == 0
    e.check pc preg
    let last := y.winCoords r (y.nrows - 1) (y.ncols - 1)
    require (none_ || (decide (oc.origin ≤ ostart) &&
      decide (flatOf r.dims2 last < ((oc.origin + oc.length : Nat) : Int)))) (offFlt (capFlt .capBounds oc oreg) ostart)
    require (if y.form = 1 then y.padAt % 128 == 0 else e.aligned && y.ncols * fmtBits r.fmt % 128 == 0)
      (offFlt (capFlt .misaligned pc preg) y.padAt)
    require (none_ || (inShape r.dims2 (y.winCoords r 0 0) && inShape r.dims2 last))
      { offFlt (capFlt .outOfShape oc oreg) ostart with
        coord0 := BitVec.ofInt 32 ((last.reverse[1]?).getD 0), coord1 := BitVec.ofInt 32 ((last.reverse[0]?).getD 0) }
    if y.toObject then .ok ⟨[{ core := none, total := (y.winBytes r).length }], []⟩
    else .ok ⟨[{ core := some core, first := y.padAt, total := y.nrows * y.imgRow r }], [(core, e)]⟩
  | _ => .error (flt .illegal)

/-! GATHE and SCATE (09 R329). -/

/-- Elements of a slice: the product of the extents but the first. -/
def ObjRec.slice (r : ObjRec) : Nat := (r.dims.drop 1).foldl (· * ·) 1

/-- The slice side and the row side of a GATHE or SCATE. -/
def Copy.sliceSide (y : Copy) : Cap × Nat × Nat :=
  if y.op = .gathe then (y.src, y.sreg, y.srcAt) else (y.dst, y.dreg, y.dstAt)
def Copy.rowSide (y : Copy) : Cap × Nat × Nat :=
  if y.op = .gathe then (y.dst, y.dreg, y.dstAt) else (y.src, y.sreg, y.srcAt)

def State.planList (s : State) (core : CoreId) (y : Copy) : Except Flt Plan := do
  let l := y.d 4
  let n := y.d 8
  require (!y.ilv && !(y.chan.isSome && y.dst.space == 2)) (flt .illegal)
  let rs ← s.sideReach core y.src y.sreg (if y.op = .gathe then [0, 2] else [0]) 0 pR
  let rd ← s.sideReach core y.dst y.dreg (if y.op = .gathe then [0] else [0, 2]) 0 pW
  let _ ← s.sideReach core y.idx y.ireg [0] 0 pR
  let (rc, rreg, rat) := y.rowSide
  let (sc, sreg, sat) := y.sliceSide
  let rows : Ext := { first := rat, rows := n, pitch := y.d 9, len := l }
  let list : Ext := { first := y.idx.origin + y.d 10, len := 4 * n }
  let slice := if y.op = .gathe then rs else rd
  match slice with
  | .object r => require (decide (y.d 12 + l / max 1 (fmtBits r.fmt / 8) ≤ r.slice)) (flt .illegal)
  | _ => .ok ()
  rows.check rc rreg
  list.check y.idx y.ireg
  rows.checkAlign rc rreg
  require (list.first % 16 == 0) (offFlt (capFlt .misaligned y.idx y.ireg) list.first)
  match slice with
  | .object r => objectAlign sc sreg r l
  | _ => require (sat % 16 == 0) (offFlt (capFlt .misaligned sc sreg) sat)
  require (!(capsMeet y.dst y.idx)) (capFlt .copyOverlap y.dst y.dreg)
  match y.op, rd with
  | .gathe, _ => .ok ⟨[{ core := some core, first := rat, total := n * l }], [(core, rows)]⟩
  | _, .object _ => .ok ⟨[{ core := none, total := n * l }], []⟩
  | _, _ => .ok ⟨[{ core := some core, first := sat, total := n * l }],
      [(core, { first := y.dst.origin, len := y.dst.length })]⟩

/-! PRUNE, PLANE, UNPLANE. S[b] stands in words 0 and 1, S[b + 1] in words 2 and 3. -/

def Copy.sb (y : Copy) : Nat := y.d 0 + 2 ^ 32 * y.d 1
/-- A field of S[b]. -/
def Copy.fb (y : Copy) (lo w : Nat) : Nat := y.sb / 2 ^ lo % 2 ^ w

def Copy.pruneArgs (y : Copy) : PruneArgs :=
  { src := { base := y.src.origin + 128 * y.fb 0 16, rows := 32, planes := y.fb 43 4 + 1, chunks := y.fb 47 5 + 1
             scaled := y.fb 42 1 == 1 }
    n := y.fb 32 6 + 1, mcode := y.fb 38 3, trans := y.fb 41 1 == 1, seed := y.seed }
def Copy.pruneBase (y : Copy) : Nat := y.dst.origin + 128 * y.fb 16 16

/-- The planar side of a PLANE or UNPLANE. -/
def Copy.convPlanar (y : Copy) : Planar :=
  { base := if y.op = .plane then y.dst.origin + 16 * y.fb 16 16 else y.src.origin + 16 * y.fb 0 16
    rows := y.fb 37 11 + 1, planes := y.fb 32 4 + 1, chunks := (32 * (y.fb 48 10 + 1) + 1023) / 1024, scaled := y.fb 36 1 == 1 }
def Copy.convCols (y : Copy) : Nat := 32 * (y.fb 48 10 + 1)
/-- The packed side: start and pitch. -/
def Copy.packedBase (y : Copy) : Nat := if y.op = .plane then y.src.origin + 16 * y.fb 0 16 else y.dst.origin + 16 * y.fb 16 16
def Copy.packedPitch (y : Copy) : Nat := 16 * (y.d 3 % 2 ^ 16)
def Copy.packedLen (y : Copy) : Nat := packedRow y.convPlanar.planes y.convPlanar.scaled y.convCols

def State.planConv (s : State) (core : CoreId) (y : Copy) : Except Flt Plan := do
  let p := y.convPlanar
  require (y.fb 58 6 == 0 && decide (y.packedLen ≤ y.packedPitch)) (flt .illegal)
  let _ ← s.sideReach core y.src y.sreg [0] 0 pR
  let _ ← s.sideReach core y.dst y.dreg [0] 0 pW
  let pl : Ext := { first := p.base, len := p.size }
  let pk : Ext := { first := y.packedBase, rows := p.rows, pitch := y.packedPitch, len := y.packedLen }
  let (se, de) := if y.op = .plane then (pk, pl) else (pl, pk)
  se.check y.src y.sreg
  de.check y.dst y.dreg
  require (p.base % 128 == 0) (offFlt (capFlt .misaligned (if y.op = .plane then y.dst else y.src)
    (if y.op = .plane then y.dreg else y.sreg)) p.base)
  require (y.packedBase % 16 == 0) (offFlt (capFlt .misaligned (if y.op = .plane then y.src else y.dst)
    (if y.op = .plane then y.sreg else y.dreg)) y.packedBase)
  .ok ⟨[{ core := some core, first := de.first, total := de.rows * de.len }], [(core, de)]⟩

def State.planPrune (s : State) (core : CoreId) (y : Copy) : Except Flt Plan := do
  let a := y.pruneArgs
  require (y.fb 52 12 == 0 && decide (a.n ≤ a.m) && decide (a.mcode ≤ 4) && !(a.trans && a.m == 64)) (flt .illegal)
  let _ ← s.sideReach core y.src y.sreg [0] 0 pR
  let _ ← s.sideReach core y.dst y.dreg [0] 0 pW
  let se : Ext := { first := a.src.base, len := a.src.size }
  let de : Ext := { first := y.pruneBase, len := a.hdr.size }
  se.check y.src y.sreg
  de.check y.dst y.dreg
  require (se.first % 128 == 0) (offFlt (capFlt .misaligned y.src y.sreg) se.first)
  require (de.first % 128 == 0) (offFlt (capFlt .misaligned y.dst y.dreg) de.first)
  .ok ⟨[{ core := some core, first := de.first, total := de.len - 16 }], [(core, de)]⟩

/-- Bytes of PRUNE's destination run from the header base + 16 to the end and close with the header granule (10 R355). -/
def prunePlace (base size p : Nat) : Nat := if p < size - 16 then base + 16 + p else base + (p - (size - 16))

def State.plan (s : State) (core : CoreId) (y : Copy) : Except Flt Plan :=
  match y.op with
  | .cpy => s.planCpy core y
  | .cpym => s.planCpym core y
  | .cpyo => s.planCpyo core y
  | .gathe | .scate => s.planList core y
  | .prune => (s.planPrune core y).map (fun p => { p with dests := p.dests.map (fun d => { d with total := d.total + 16 }) })
  | .plane | .unplane => s.planConv core y

/-! What a byte of a destination sequence receives. -/

/-- What keeps an engine from an access: a fault, or the relocation of an object (02 R74). -/
inductive Stuck
  | fault (f : Flt)
  | moving (id : Nat)
deriving DecidableEq, Repr

/-- Outcome of translating. -/
abbrev Got (α : Type) := Except Stuck α

/-- A place reached by an engine's translation. -/
def State.engineLoc (s : State) (core : CoreId) (store : Bool) (c : Cap) (creg : Nat) (r : LaneRes) : Got Loc :=
  match s.frameLane core store false 1 c creg r with
  | .at_ l _ => .ok l
  | .two _ _ _ => .error (.fault (capFlt .misaligned c creg))
  | .moving id => .error (.moving id)
  | .zero f => .error (.fault f)
  | .err f => .error (.fault f)

/-- Steps 7 to 11 of 02 R69 for flat element f of an object. -/
def State.flatRes (s : State) (core : CoreId) (c : Cap) (creg : Nat) (r : ObjRec) (f : Int) : LaneRes :=
  s.elemTarget core c creg r (if f < 0 then r.dims2.map (fun _ => -1) else decompose r.dims2 f.toNat) f (fmtBits r.fmt / 8) false

/-- Byte j of flat element f of an object, at its current record (02 R81). -/
def State.flatByte (s : State) (core : CoreId) (store : Bool) (c : Cap) (creg : Nat) (f : Int) (j : Nat) : Got Loc :=
  match s.objectSteps core c creg (if store then pW else pR) with
  | .error e => .error (.fault e)
  | .ok r => (s.engineLoc core store c creg (s.flatRes core c creg r f)).map (fun l => l.add j)

/-- A map entry by its object and sub-tile: what a translation uses (02 R72). -/
abbrev MapUse := Nat × Nat

/-- The map entry that flat element f of an object is translated by. -/
def State.flatUse (s : State) (core : CoreId) (c : Cap) (f : Int) : List MapUse :=
  ((s.flatRes core c 0 (s.record (s.part core) c.id) f).sub?.map (fun n => (c.id, n))).toList

/-- Fill the caches with the records and map entries that translations used (02 R72). -/
def State.cacheUses (s : State) (core : CoreId) (us : List MapUse) : State :=
  us.eraseDups.foldl (fun s u => (s.cacheRec core u.1).cacheMap core u.1 u.2) s

/-- Element size of an object as its record now stands. -/
def State.elemSize (s : State) (core : CoreId) (c : Cap) : Nat :=
  max 1 (fmtBits (s.record (s.part core) c.id).fmt / 8)

/-- A byte of a side: LOCAL bytes and flat elements alike, at byte p past a start. -/
def State.sideLoc (s : State) (core : CoreId) (store : Bool) (c : Cap) (creg start : Nat) (skip p : Int) : Got Loc :=
  if c.space = 2 then
    let z := s.elemSize core c
    s.flatByte core store c creg ((start : Int) + skip + p / (z : Int)) (p % (z : Int)).toNat
  else
    s.engineLoc core store c creg (s.byteTarget core c creg 0 .other .local_ ((start : Int) + skip + p) 1 1)

/-- The map entries of a byte of a side. -/
def State.sideUse (s : State) (core : CoreId) (c : Cap) (start : Nat) (skip p : Int) : List MapUse :=
  if c.space = 2 then s.flatUse core c ((start : Int) + skip + p / ((s.elemSize core c : Nat) : Int)) else []

def State.readByte (s : State) (l : Loc) : Byte := (s.homeRead l 1).getD 0 0

/-- Entry j of the index list (09 R329). -/
def State.listEntry (s : State) (core : CoreId) (y : Copy) (j : Nat) : Int :=
  signed 32 (ofBytes (s.homeRead (.pad core (y.idx.origin + y.d 10 + 4 * j)) 4))

/-- How far slice r starts from the start of its side (09 R329). -/
def State.sliceSkip (s : State) (core : CoreId) (y : Copy) (r : Int) : Int :=
  let c := y.sliceSide.1
  if c.space = 2 then r * ((s.record (s.part core) c.id).slice : Int) + (y.d 12 : Int) else r * (y.d 9 : Int)

/-- A slice's byte q (09 R329). -/
def State.sliceLoc (s : State) (core : CoreId) (store : Bool) (y : Copy) (r : Int) (q : Nat) : Got Loc :=
  let (c, creg, at_) := y.sliceSide
  s.sideLoc core store c creg at_ (s.sliceSkip core y r) q

/-- A layout byte of the object of a CPYO. -/
def State.winLoc (s : State) (core : CoreId) (store : Bool) (y : Copy) (r : ObjRec) (k c b : Nat) : Got Loc :=
  let (oc, oreg, _) := y.objSide
  let co := y.winCoords r k c
  let f := flatOf r.dims2 co
  let bad (code : Code) : Flt :=
    { offFlt (capFlt code oc oreg) f with
      coord0 := BitVec.ofInt 32 ((co.reverse[1]?).getD 0), coord1 := BitVec.ofInt 32 ((co.reverse[0]?).getD 0) }
  if inShape r.dims2 co = false then .error (.fault (bad .outOfShape))
  else if ¬ ((oc.origin : Int) ≤ f ∧ f < (oc.origin + oc.length : Nat)) then .error (.fault (bad .capBounds))
  else s.engineLoc core store oc oreg (s.objectByte core oc oreg r b co)

/-- A bit of an object in a CPYO from the object. -/
def State.winBit (s : State) (core : CoreId) (y : Copy) (r : ObjRec) (k c j : Nat) : Got Bool :=
  let b := r.bitAt (y.winElem r k c) j
  (s.winLoc core false y r k c (b / 8)).map (fun l => bitOf (s.readByte l) (b % 8))

/-- All of a list, or the first failure. -/
def collect {α β : Type} (f : α → Got β) : List α → Got (List β)
  | [] => .ok []
  | x :: xs =>
    match f x with
    | .error e => .error e
    | .ok y => (collect f xs).map (fun ys => y :: ys)

/-- A byte of an image from a way to read its bits and scales. -/
def imgByte (seed p : Nat) (bit : Nat → Nat → Nat → Got Bool) (scale : Nat → Nat → Got Byte) (i : ImgByte) : Got Byte :=
  match i with
  | .bits k cs =>
    (collect (fun o => match o with
      | some cj => bit k cj.1 cj.2
      | none => .ok false) cs).map (fun bs => byteOfBits (fun t => bs.getD t false))
  | .scale k c => scale k c
  | .zero => .ok 0
  | .pad => .ok (BitVec.ofNat 8 (Config.nat2 seed p))

/-- What position p of a CPYO's LOCAL image holds. -/
def Copy.imgAt (y : Copy) (r : ObjRec) (p : Nat) : ImgByte :=
  let row := max 1 (y.imgRow r)
  let n := fmtBits r.fmt
  if y.form = 1 then planarByte n (y.planar r).chunks (fmtBni r.fmt) y.ncols (p / row) (p % row)
  else packedByte n false y.ncols (p / row) (p % row)

/-- The byte at position p of a CPYO's LOCAL image. DESIGN CHOICE (log 81): the spec does not place the scales of a PACKED bni object;
those that a FORM 1 image takes from one are free bytes, and none is written to one. -/
def State.cpyoIn (s : State) (core : CoreId) (y : Copy) (r : ObjRec) (p : Nat) : Got Byte :=
  imgByte y.seed p (fun k c j => s.winBit core y r k c j)
    (fun k c => if r.hasScales then (s.winLoc core false y r k c (r.scaleAt (y.winElem r k c))).map s.readByte
      else .ok (BitVec.ofNat 8 (Config.nat2 y.seed p))) (y.imgAt r p)

/-- The layout bytes of the object that position p of a CPYO's LOCAL image is taken from. -/
def Copy.imgFrom (y : Copy) (r : ObjRec) (p : Nat) : List Nat :=
  match y.imgAt r p with
  | .bits k cs => cs.filterMap (fun o => o.map (fun cj => r.bitAt (y.winElem r k cj.1) cj.2 / 8))
  | .scale k c => if r.hasScales then [r.scaleAt (y.winElem r k c)] else []
  | _ => []

/-- Bit (k, c, j) of a CPYO's LOCAL image. -/
def State.imgBit (s : State) (core : CoreId) (y : Copy) (r : ObjRec) (k c j : Nat) : Bool :=
  let rd : Reader := fun a => s.readByte (.pad core a)
  if y.form = 1 then (y.planar r).bit rd k c (fmtBits r.fmt - 1 - j)
  else
    let x := c * fmtBits r.fmt + j
    bitOf (rd (y.padAt + k * y.imgPitch r + x / 8)) (x % 8)

/-- The p-th byte of an object window of a CPYO to the object: place, value, bits written. -/
def State.cpyoOut (s : State) (core : CoreId) (y : Copy) (r : ObjRec) (b : Nat) : Got (Loc × Byte × Byte) :=
  match (y.winScales r).find? (fun x => x.1 == b) with
  | some (_, k, c) =>
    (s.winLoc core true y r k c b).map (fun l => (l, s.readByte (.pad core ((y.planar r).scaleByte k c)), 0xFF))
  | none =>
    let bs := (y.winBits r).filter (fun x => x.1 / 8 == b)
    match bs with
    | [] => .error (.fault (capFlt .outOfShape y.dst y.dreg))
    | (_, k, c, _) :: _ =>
      (s.winLoc core true y r k c b).map (fun l =>
        (l, byteOfBits (fun t => bs.any (fun x => x.1 % 8 == t && s.imgBit core y r x.2.1 x.2.2.1 x.2.2.2)),
          byteOfBits (fun t => bs.any (fun x => x.1 % 8 == t))))

/-- Byte at position p of the sequence of a destination: place, value, bits written. -/
def State.putAt (s : State) (core : CoreId) (y : Copy) (d : CopyDest) (p : Nat) : Got (Loc × Byte × Byte) :=
  let c := d.core.getD core
  let whole (l : Loc) (src : Got Loc) : Got (Loc × Byte × Byte) := src.map (fun x => (l, s.readByte x, 0xFF))
  match y.op with
  | .cpy =>
    let q := if y.dst.space = 1 then nearOffset y.ilv d.key (d.first + p) - y.dstAt else p
    let src := s.sideLoc core false y.src y.sreg y.srcAt 0 q
    match d.core with
    | some _ => whole (.pad c (d.first + p)) src
    | none =>
      match s.sideLoc core true y.dst y.dreg y.dstAt 0 p with
      | .ok l => whole l src
      | .error e => .error e
  | .cpym =>
    let rowb := max 1 (y.d 4)
    let n := (s.rectSites y).length
    let row := blockRow (y.d 8) (y.d 10) d.key n (p / rowb)
    whole (.pad c (d.first + p)) (s.sideLoc core false y.src y.sreg y.srcAt ((row * y.d 9 : Nat) : Int) ((p % rowb : Nat) : Int))
  | .cpyo =>
    let (oc, oreg, _) := y.objSide
    match s.objectSteps core oc oreg (if y.toObject then pW else pR) with
    | .error e => .error (.fault e)
    | .ok r =>
      if y.toObject then s.cpyoOut core y r ((y.winBytes r).getD p 0)
      else
        let row := max 1 (y.imgRow r)
        (s.cpyoIn core y r p).map (fun b => (.pad core (y.padAt + p / row * y.imgPitch r + p % row), b, 0xFF))
  | .gathe =>
    let l := max 1 (y.d 4)
    whole (.pad core (d.first + p / l * y.d 9 + p % l)) (s.sliceLoc core false y (s.listEntry core y (p / l)) (p % l))
  | .scate =>
    let l := max 1 (y.d 4)
    match s.sliceLoc core true y (s.listEntry core y (p / l)) (p % l) with
    | .ok t => .ok (t, s.readByte (.pad core (y.srcAt + p / l * y.d 9 + p % l)), 0xFF)
    | .error e => .error e
  | .prune =>
    let size := y.pruneArgs.hdr.size
    let a := prunePlace y.pruneBase size p
    .ok (.pad core a, y.image.getD (a - y.pruneBase) 0, 0xFF)
  | .plane =>
    let pl := y.convPlanar
    let i := planarByte pl.planes pl.chunks pl.scaled y.convCols (p / pl.pitch) (p % pl.pitch)
    let row (k : Nat) : Nat := y.packedBase + k * y.packedPitch
    let rd : Reader := fun a => s.readByte (.pad core a)
    (imgByte y.seed p (fun k cc j => .ok (bitOf (rd (row k + (cc * pl.planes + j) / 8)) ((cc * pl.planes + j) % 8)))
      (fun k cc => .ok (rd (row k + roundUpTo ((y.convCols * pl.planes + 7) / 8) 16 + cc / 32))) i).map
      (fun b => (.pad core (pl.base + p), b, 0xFF))
  | .unplane =>
    let pl := y.convPlanar
    let len := max 1 y.packedLen
    let rd : Reader := fun a => s.readByte (.pad core a)
    (imgByte y.seed p (fun k cc j => .ok (pl.bit rd k cc (pl.planes - 1 - j))) (fun k cc => .ok (rd (pl.scaleByte k cc)))
      (packedByte pl.planes pl.scaled y.convCols (p / len) (p % len))).map
      (fun b => (.pad core (y.packedBase + p / len * y.packedPitch + p % len), b, 0xFF))

/-- The map entries that the byte at position p of a destination's sequence is translated by. -/
def State.putUses (s : State) (core : CoreId) (y : Copy) (d : CopyDest) (p : Nat) : List MapUse :=
  match y.op with
  | .cpy =>
    s.sideUse core y.src y.srcAt 0 (if y.dst.space = 1 then nearOffset y.ilv d.key (d.first + p) - y.dstAt else p) ++
      (if d.core.isNone then s.sideUse core y.dst y.dstAt 0 p else [])
  | .cpym =>
    let rowb := max 1 (y.d 4)
    s.sideUse core y.src y.srcAt ((blockRow (y.d 8) (y.d 10) d.key (s.rectSites y).length (p / rowb) * y.d 9 : Nat) : Int)
      ((p % rowb : Nat) : Int)
  | .cpyo =>
    let c := y.objSide.1
    let r := s.record (s.part core) c.id
    (if y.toObject then [(y.winBytes r).getD p 0] else y.imgFrom r p).map (fun b => (c.id, b / 65536))
  | .gathe | .scate =>
    let l := max 1 (y.d 4)
    let (c, _, at_) := y.sliceSide
    s.sideUse core c at_ (s.sliceSkip core y (s.listEntry core y (p / l))) ((p % l : Nat) : Int)
  | .prune | .plane | .unplane => []

/-! Granules that cannot be read (02 R60). -/

/-- The core's scratchpad with one byte value in every granule that cannot be read: what depends on the value has read one. -/
def State.fillLost (s : State) (core : CoreId) (b : Byte) : State :=
  s.modCtx core (fun x => { x with pad :=
    ((x.lost.map (fun a => a / 16)).eraseDups).foldl (fun m g => m.write (16 * g) (List.replicate 16 b)) x.pad })

/-- The same whatever the granules that cannot be read hold; else DATA_ERROR. -/
def State.sure {α : Type} [DecidableEq α] (s : State) (core : CoreId) (y : Copy) (f : State → Got α) : Got α :=
  if (s.ctx core).lost = [] then f s
  else
    match f (s.fillLost core 0), f (s.fillLost core 0xFF) with
    | .ok a, .ok b => if a = b then .ok a else .error (.fault (capFlt .dataError y.src y.sreg))
    | .error e, .error e' => if e = e' then .error e else .error (.fault (capFlt .dataError y.src y.sreg))
    | _, _ => .error (.fault (capFlt .dataError y.src y.sreg))

/-! Chunks (02 R81). -/

def chunkSize : Nat := 4096
def CopyDest.chunks (d : CopyDest) : Nat := (d.total + chunkSize - 1) / chunkSize
def CopyDest.finished (d : CopyDest) : Bool := decide (d.chunks ≤ d.done)
def Copy.chunks (y : Copy) : Nat := y.dests.foldl (fun m d => max m d.chunks) 0

/-- The positions of chunk k at a destination. -/
def CopyDest.span (d : CopyDest) (k : Nat) : List Nat :=
  (List.range (min chunkSize (d.total - k * chunkSize))).map (fun i => k * chunkSize + i)

/-- The bytes of chunk k for every destination that has one. -/
def State.chunkPuts (s : State) (core : CoreId) (y : Copy) (k : Nat) : Got (List Sent) :=
  collect (fun (nd : Nat × CopyDest) =>
    match nd.2.core with
    | some c =>
      if s.unreached core c then .error (.fault { capFlt .notMapped y.dst y.dreg with offset := c.zeroExtend 64 })
      else (collect (fun p => s.sure core y (fun s => s.putAt core y nd.2 p)) (nd.2.span k)).map (fun ps => { dest := nd.1, chunk := k, puts := ps })
    | none => (collect (fun p => s.sure core y (fun s => s.putAt core y nd.2 p)) (nd.2.span k)).map (fun ps => { dest := nd.1, chunk := k, puts := ps }))
    (((List.range y.dests.length).zip y.dests).filter (fun nd => decide (k < nd.2.chunks)))

/-- The map entries that chunk k is translated by. -/
def State.chunkUses (s : State) (core : CoreId) (y : Copy) (k : Nat) : List MapUse :=
  (y.dests.filter (fun d => decide (k < d.chunks))).flatMap (fun d => (d.span k).flatMap (fun p => s.putUses core y d p))

/-- Put a token into Q9, or hold it behind those that wait (09 R330). -/
def Gang.token (g : Gang) (w : Word) : Gang :=
  if g.tokens = [] ∧ g.q[9].length < 32 then { g with q := g.q.set 9 (g.q[9] ++ [Lanes.all w]) }
  else { g with tokens := g.tokens ++ [w] }

/-- Remember a completed command until 06 R200 lets it be reported. -/
def Gang.report (g : Gang) (det : Bool) (d : Past) : Gang := if det then { g with past := g.past ++ [d] } else g

/-- Read claims wait on the granules a command released (04 R133). -/
def State.regrantAll (s : State) (gs : List (CoreId × Nat)) : State :=
  ((gs.map Prod.fst).eraseDups).foldl State.regrant s

/-- A command leaves the engine: its remaining granules are released, and a token of a kind is pushed if CMPL is set (02 R468,
09 R330). -/
def State.endCopy (s : State) (core : CoreId) (n : Nat) (y : Copy) (kind : Nat) : State :=
  let det := (s.part core).det
  let s := s.modCtx core (fun x => { x with copies := Tbl.del x.copies n })
  let s := s.modGang core y.slot (fun g =>
    let g := g.report det { cls := .copy, lt := y.lt, out := if y.cmpl then 1 else 0 }
    if y.cmpl then g.token (BitVec.ofNat 32 (kind * 2 ^ 28 + y.tag.toNat)) else g)
  (s.regrantAll y.cover).wakeHazard core

/-- End a command that has nothing left to do: complete, or dying with no chunk under way. -/
def State.settleCopy (s : State) (core : CoreId) (n : Nat) : State :=
  match s.copy? core n with
  | some y =>
    if y.sent ≠ [] then s
    else if y.dying then s.endCopy core n y 2
    else if y.dests.all CopyDest.finished then s.endCopy core n y 1
    else s
  | none => s

/-- A stopped command: the fault record of 11 R392 with COPY set (02 R81). -/
def State.stopCopy (s : State) (core : CoreId) (n : Nat) (y : Copy) (f : Flt) : State :=
  let s := s.setCopy core n { y with stop := some (f, y.next), begun := true }
  s.raisePacket core y.slot
    { flt := f, copy := true, pc := y.pc, word := y.word, chunk := chunkSize * y.next, cslot := n, tag := y.tag }
    |>.countFault core f

/-- Whether the engine may send the next chunk of a command. -/
def Copy.maySend (y : Copy) : Bool :=
  y.stop.isNone && !y.dying && !y.held && y.walk.isNone && decide (y.next < y.chunks)

/-- The image a PRUNE writes, formed when it is taken up (log 43). -/
def State.formImage (s : State) (core : CoreId) (y : Copy) : Got Copy :=
  if y.op = .prune ∧ y.image = [] then
    (s.sure core y (fun s => .ok (y.pruneArgs.image (fun a => s.readByte (.pad core a))))).map (fun b => { y with image := b })
  else .ok y

/-- Send the next chunk, stop (02 R81), or wait for the invalidation that ends a relocation (02 R74). -/
def State.sendChunk (s : State) (core : CoreId) (n : Nat) : Option State :=
  match s.copy? core n with
  | some y =>
    if (s.core core).stopped ∨ y.maySend = false then none
    else
      let stuck (y : Copy) (e : Stuck) : State :=
        match e with
        | .moving id => s.setCopy core n { y with begun := true, walk := some id }
        | .fault f => s.stopCopy core n y f
      match s.formImage core y with
      | .error e => some (stuck y e)
      | .ok y =>
        match s.chunkPuts core y y.next with
        | .ok ps =>
          let us := s.chunkUses core y y.next
          some (((s.setCopy core n { y with begun := true, next := y.next + 1, sent := y.sent ++ ps }).touch core y.src |>.touch
            core y.dst).cacheUses core us)
        | .error e => some (stuck y e)
  | none => none

/-- COPY_CHUNK (02 R81). -/
def chunkReady (s : State) (core : CoreId) (cslot : Nat) : Bool := (s.sendChunk core cslot).isSome

def execCopyChunk (core : CoreId) (cslot : Nat) (s : State) : Host.Outcome State Fault Refusal :=
  .next ((s.sendChunk core cslot).getD s)

/-- The core that bytes sent to a site reach: a core's own scratchpad is no router away (10 R380). -/
def State.arrives (s : State) (core c : CoreId) : CoreId := if c = core then c else s.route c

/-- Granules of scratchpads that a chunk touches. -/
def State.putGranules (s : State) (core : CoreId) (ps : List (Loc × Byte × Byte)) : List (CoreId × Nat) :=
  (ps.filterMap (fun p => match p.1 with
    | .pad c a => some (s.arrives core c, a / 16)
    | _ => none)).eraseDups

/-- The context's operations hold a granted read claim on a granule. -/
def Ctx.claims (x : Ctx) (g : CoreId × Nat) : Bool :=
  x.ops.any (fun o => o.claims.any (fun c => c.granted && c.core == g.1 && c.granule == g.2))

/-- A granted read claim of some array on a granule (04 R134): a saved leader's on its follower's granule too, but not a saved context's on
the granules that are saved with it. -/
def State.claimed (s : State) (g : CoreId × Nat) : Bool :=
  s.cores.any (fun kv => kv.2.ctx.claims g) || (s.savedContexts (s.part g.1)).any (fun x => x.1 != g.1 && x.2.claims g)

/-- Land one byte. -/
def State.putByte (s : State) (core : CoreId) (p : Loc × Byte × Byte) : State :=
  let l := s.landing core p.1
  let old := s.readByte l
  s.homeWrite core l [(old &&& ~~~ p.2.2) ||| (p.2.1 &&& p.2.2)]

/-- The granules that a chunk completes: those it touches but one that the next chunk goes on in. -/
def State.filledBy (s : State) (core : CoreId) (y : Copy) (x : Sent) : List (CoreId × Nat) :=
  let mine := s.putGranules core x.puts
  match y.op, y.dests[x.dest]? with
  | .unplane, some d =>
    let nextG := s.putGranules core (((d.span (x.chunk + 1)).head?.bind (fun p => (s.putAt core y d p).toOption)).toList)
    mine.filter (fun g => !nextG.contains g)
  | _, _ => mine

/-- A chunk lands: bytes, full bits, covered granules, the watermark, claims (02 R81, R61, R62, R468). -/
def State.landChunk (s : State) (core : CoreId) (n : Nat) (y : Copy) (x : Sent) : State :=
  let filled := s.filledBy core y x
  let s := x.puts.foldl (fun s p => s.putByte core p) s
  let s := filled.foldl (fun s g => s.setFull g.1 g.2 true) s
  let s := match y.chan with
    | some ch => filled.foldl (fun (s : State) (g : CoreId × Nat) => s.modCtx g.1 (fun (c : Ctx) => { c with
        chans := Vector.ofFn (fun (i : Fin 16) =>
          if i.val = ch then (c.chans[i]).map (fun (w : CopyChan) => { w with done := Granules.add w.done g.2 }) else c.chans[i]) })) s
    | none => s
  let s := match s.copy? core n with
    | some y => s.setCopy core n { y with
        cover := y.cover.filter (fun g => !filled.contains g)
        sent := y.sent.filter (fun z => !(z.dest == x.dest && z.chunk == x.chunk))
        dests := ((List.range y.dests.length).zip y.dests).map
          (fun (nd : Nat × CopyDest) => if nd.1 = x.dest then { nd.2 with done := nd.2.done + 1 } else nd.2) }
    | none => s
  (s.regrantAll filled).wakeHazard core

/-- The oldest chunk under way to a destination may land. -/
def State.landable (s : State) (core : CoreId) (cslot dest : Nat) : Option (Copy × Sent) :=
  match s.copy? core cslot with
  | some y =>
    match y.sent.find? (fun x => x.dest == dest) with
    | some x => if (s.putGranules core x.puts).any s.claimed then none else some (y, x)
    | none => none
  | none => none

/-- COPY_CHUNK_COMPLETE (02 R81). -/
def chunkCompleteReady (s : State) (core : CoreId) (cslot dest : Nat) : Bool := (s.landable core cslot dest).isSome

def execCopyChunkComplete (core : CoreId) (cslot : Nat) (dest : Nat) (s : State) : Host.Outcome State Fault Refusal :=
  .next (match s.landable core cslot dest with
    | some (y, x) => (s.landChunk core cslot y x).settleCopy core cslot
    | none => s)

/-! Acceptance (09 R323). -/

/-- The channel holds every destination run of its core. -/
def State.chanHolds (s : State) (core : CoreId) (ch : Nat) (p : Plan) : Bool :=
  p.exts.all (fun ce => ce.2.empty ||
    (match ((s.ctx (s.arrives core ce.1)).chans.toList[ch]?).join with
     | some w => decide (w.base ≤ ce.2.first) && decide (ce.2.stop ≤ w.base + w.len)
     | none => false))

/-- The checks of R323 that follow the plan. -/
def State.acceptable (s : State) (y : Copy) (p : Plan) : Except Flt Unit := do
  require (!(capsMeet y.dst y.src)) (capFlt .copyOverlap y.dst y.dreg)
  require (match y.chan with
    | some ch => s.chanHolds s.cur.core ch p
    | none => true) (capFlt .capBounds y.dst y.dreg)
  match p.dests.find? (fun d => match d.core with
    | some c => s.noCore c
    | none => false) with
  | some d => .error { capFlt .notMapped y.dst y.dreg with offset := ((d.core.getD 0).zeroExtend 64) }
  | none => .ok ()

/-- Room in Q8 and in the engine (02 R78, 06 R179). -/
def State.copyRoom (s : State) (core : CoreId) (slot : SlotId) : Bool :=
  let cs := (s.ctx core).copies
  decide ((cs.filter (fun y => y.2.slot == slot && !y.2.begun)).length < 16) && decide (cs.length < 1024)

/-- Accept a command, wait for room, or fault. -/
def State.acceptCopy (s : State) (y : Copy) : Res :=
  let core := s.cur.core
  match s.plan core y with
  | .error f => .fault f
  | .ok p =>
    match s.acceptable y p with
    | .error f => .fault f
    | .ok _ =>
      if s.copyRoom core s.cur.slot = false then .wait s .copySpace
      else
        let n := Tbl.fresh (s.ctx core).copies 0
        let y := { y with
          dests := p.dests
          cover := p.exts.flatMap (fun ce => if ce.2.empty then [] else ce.2.granules.map (fun g => (s.arrives core ce.1, g))) }
        .done (((s.setCopy core n y).touch core y.src |>.touch core y.dst).settleCopy core n)

/-- Body of CPY, CPYM, CPYO, GATHE and SCATE. -/
def copyBody (op : CopyOp) (r : VReg) (dst src : CReg) (cmpl skip : Bool) (s : State) (g : Gang) : Res :=
  let w := (g.v r).toList
  let d (k : Nat) : Nat := ((w[k]?).getD 0).toNat
  if g.inTx ∨ g.wideE then .fault (flt .illegal)
  else if d 5 / 64 ≠ 0 ∨ d 6 / 2 ^ 16 ≠ 0 ∨ ((op = .gathe ∨ op = .scate) ∧ d 11 / 16 ≠ 0) ∨
      ((d 5).testBit 4 ∧ (g.c dst).space = 2) then .fault (flt .illegal)
  else
    let ir := if op = .gathe ∨ op = .scate then d 11 % 16 else 0
    s.acceptCopy
      { slot := s.cur.slot, op := op, words := w.take 13
        dst := g.c dst, src := g.c src, idx := g.c (BitVec.ofNat 4 ir)
        dreg := dst.toNat, sreg := src.toNat, ireg := ir
        cmpl := cmpl, skip := skip, tag := BitVec.ofNat 16 (d 6)
        chan := if (d 5).testBit 4 then some (d 5 % 16) else none
        pc := g.regs.pc, word := s.cur.word
        dests := [], cover := [], lt := g.cnt.lt, seed := s.clock }

/-- CPY (09 R326). -/
def execCpy (r : VReg) (dst src : CReg) (cmpl : Bool) (s : State) : Host.Outcome State Fault Refusal :=
  runFull .u [r.toNat] false (copyBody .cpy r dst src cmpl false) s
/-- CPYM (09 R327). -/
def execCpym (r : VReg) (dst src : CReg) (cmpl skipdark : Bool) (s : State) : Host.Outcome State Fault Refusal :=
  runFull .u [r.toNat] false (copyBody .cpym r dst src cmpl skipdark) s
/-- CPYO (09 R328). -/
def execCpyo (r : VReg) (dst src : CReg) (cmpl : Bool) (s : State) : Host.Outcome State Fault Refusal :=
  runFull .u [r.toNat] false (copyBody .cpyo r dst src cmpl false) s
/-- GATHE (09 R329). -/
def execGathe (r : VReg) (dst src : CReg) (cmpl : Bool) (s : State) : Host.Outcome State Fault Refusal :=
  runFull .u [r.toNat] false (copyBody .gathe r dst src cmpl false) s
/-- SCATE (09 R329). -/
def execScate (r : VReg) (dst src : CReg) (cmpl : Bool) (s : State) : Host.Outcome State Fault Refusal :=
  runFull .u [r.toNat] false (copyBody .scate r dst src cmpl false) s

/-- Body of PRUNE, PLANE and UNPLANE (10 R353). -/
def convBody (op : CopyOp) (ci co : CReg) (b : SReg) (s : State) (g : Gang) : Res :=
  let hi := (g.s (b + 1)).toNat
  let spare := if op = .prune then hi / 2 ^ 17 else hi / 2 ^ 48 + hi / 2 ^ 17 % 2 ^ 15
  if g.inTx ∨ b = 31 ∨ spare ≠ 0 then .fault (flt .illegal)
  else
    s.acceptCopy
      { slot := s.cur.slot, op := op
        words := [(g.s b).truncate 32, ((g.s b) >>> 32).truncate 32, BitVec.ofNat 32 hi, BitVec.ofNat 32 (hi / 2 ^ 32)]
        dst := g.c co, src := g.c ci, idx := Cap.null, dreg := co.toNat, sreg := ci.toNat
        cmpl := hi.testBit 16, tag := BitVec.ofNat 16 hi
        pc := g.regs.pc, word := s.cur.word
        dests := [], cover := [], lt := g.cnt.lt, seed := s.clock }

/-- PRUNE (10 R355). -/
def execPrune (ci co : CReg) (b : SReg) (s : State) : Host.Outcome State Fault Refusal :=
  runFull .u [] false (convBody .prune ci co b) s
/-- PLANE (10 R354). -/
def execPlane (ci co : CReg) (b : SReg) (s : State) : Host.Outcome State Fault Refusal :=
  runFull .u [] false (convBody .plane ci co b) s
/-- UNPLANE (10 R354). -/
def execUnplane (ci co : CReg) (b : SReg) (s : State) : Host.Outcome State Fault Refusal :=
  runFull .u [] false (convBody .unplane ci co b) s

/-! Cancelling. -/

/-- Cancel a command: chunks under way complete, nothing further is written (09 R331). A hold of it ends with it (log 57). -/
def State.cancelCopy (s : State) (core : CoreId) (n : Nat) : State :=
  match s.copy? core n with
  | some y =>
    let s := s.release core y.slot (some n) 0xFF 0xFF
    (s.setCopy core n { y with dying := true, stop := none, hold := none }).settleCopy core n
  | none => s

/-- Keys of a gang's commands that satisfy a test. -/
def State.copiesOf (s : State) (core : CoreId) (slot : SlotId) (t : Copy → Bool) : List Nat :=
  ((s.ctx core).copies.filter (fun y => y.2.slot == slot && t y.2)).map Prod.fst

/-- Body of CPYCAN. -/
def cpycanBody (a : SReg) (s : State) (g : Gang) : Res :=
  let tag : BitVec 16 := (g.s a).truncate 16
  let core := s.cur.core
  if g.inTx ∨ bits (g.s a) 63 16 ≠ 0 then .fault (flt .illegal)
  else
    let s := (s.copiesOf core s.cur.slot (fun y => y.tag == tag)).foldl (fun s n => s.cancelCopy core n) s
    if s.copiesOf core s.cur.slot (fun y => y.tag == tag) = [] then .done s else .wait s .hazard

/-- CPYCAN (09 R331). -/
def execCpycan (a : SReg) (s : State) : Host.Outcome State Fault Refusal := runFull .u [] false (cpycanBody a) s

/-! The end of a gang (08 R262, 10 R376). -/

/-- Holds of Fount on a gang and its commands end with it (15 R467). -/
def State.dropHolds (s : State) (c : CoreId) (k : SlotId) : State := s.logEnded c 0xFF 0xFF ((s.ctx c).heldIn (fun j => j == k))

/-- A gang's commands are cancelled with no token: chunks being written complete, nothing further is (10 R376). -/
def State.dropCopies (s : State) (core : CoreId) (slot : SlotId) : State :=
  let s := (s.copiesOf core slot (fun _ => true)).foldl (fun s n =>
    match s.copy? core n with
    | some y => y.sent.foldl (fun s x => if (s.putGranules core x.puts).any s.claimed then s else s.landChunk core n y x) s
    | none => s) s
  let cover := (s.copiesOf core slot (fun _ => true)).flatMap (fun n => ((s.copy? core n).map Copy.cover).getD [])
  (s.modCtx core (fun x => { x with copies := x.copies.filter (fun y => y.2.slot != slot) })).regrantAll cover

/-- A gang ends with its commands cancelled. -/
def State.dropGang (s : State) (c : CoreId) (k : SlotId) : State := ((s.dropHolds c k).dropCopies c k).freeSlot c k

/-- End a gang; when a compute gang ends, its shadow ends at once, its commands cancelled as by KILL (06 R178, log 85). -/
def State.endGang (s : State) (c : CoreId) (k : SlotId) : State :=
  match s.gang? c k with
  | none => s
  | some g =>
    let s := s.freeSlot c k
    match g.partner with
    | none => s
    | some j =>
      match s.gang? c j with
      | some h => if !g.shadow && h.shadow && h.partner == some k then s.dropGang c j else s
      | none => s

/-- KILL (10 R376): as EXIT without its wait. -/
def State.killGang (s : State) (c : CoreId) (k : SlotId) : State := ((s.dropHolds c k).dropCopies c k).endGang c k

/-- EXIT (08 R262). -/
def execExit (s : State) : Host.Outcome State Fault Refusal :=
  runFull .u [] false (fun s g =>
    if g.regs.pkm ≠ 0 then
      .gone ((s.publish s.cur.core s.cur.slot s.cur.word false).freezeParked s.cur.core s.cur.slot)
    else if g.stack.any (fun e => e.kind == .tx) then .fault (flt .illegal)
    else if s.engineBusy s.cur.core s.cur.slot then .wait s .exit
    else .gone ((s.publish s.cur.core s.cur.slot s.cur.word false).endGang s.cur.core s.cur.slot)) s

/-- GANG_END (08 R262): a gang that waits at its EXIT ends when its last command has completed. -/
def gangEndReady (s : State) (c : CoreId) (k : SlotId) : Bool :=
  match s.gang? c k with
  | some g => g.why? == some .exit && !s.engineBusy c k
  | none => false

def execGangEnd (core : CoreId) (slot : SlotId) (s : State) : Host.Outcome State Fault Refusal :=
  .next (if gangEndReady s core slot then s.endGang core slot else s)

end Sys2Proof.Machine
end

