-- ==== Sys2Proof/Machine/Planes.lean ====
section
/-! DEFINITION. Blocks of bit planes: QBNI and DQBNI (03 R101 to R104, 10 R352). -/

namespace Sys2Proof.Machine

/-- A block: its elements, its scale code, the rounding states of the lanes, the flags. -/
structure Block where
  q     : List Int
  scale : Nat
  lfsr  : Lanes Word
  flags : BitVec 5
deriving DecidableEq, Repr

/-- Largest element magnitude of a P-bit block. -/
def qMax (p : Nat) : Nat := 2 ^ (p - 1) - 1

/-- The exponent of step 4 of 03 R103 for a magnitude m × 2^e, before the clamp. -/
def blockExp (p m : Nat) (e : Int) : Int :=
  let lo := e + (m.log2 : Int) - ((p : Int) - 1) + 1
  let (v, _, _) := roundInt 0 false m (e - lo) ⟨0, 0⟩
  if v ≤ (qMax p : Int) then lo else lo + 1

/-- Magnitude order of two finite values: the first exceeds the second. -/
def magLess (a b : Nat × Int) : Bool :=
  let e := min a.2 b.2
  decide (a.1 * 2 ^ (a.2 - e).toNat < b.1 * 2 ^ (b.2 - e).toNat)

/-- QBNI's conversion (03 R103): lane i of an active mask. -/
def quantise (c : FpCfg) (p : Nat) (act : Mask) (v : Lanes Word) (lfsr : Lanes Word) : Block :=
  let vals : Lanes FVal := Lanes.of (fun i => if Mask.has act i then f32.decode c.ftz (v[i]).toNat else .fin false 0 0)
  let special := vals.toList.any (fun x => match x with | .fin .. => false | _ => true)
  let bad := vals.toList.any (fun x => match x with | .inf _ => true | .nan s => s | _ => false)
  let zeros := List.replicate 32 (0 : Int)
  if special then ⟨zeros, 255, lfsr, if bad then flagNV else 0⟩
  else
    let mag (x : FVal) : Nat × Int := match x with
      | .fin _ m e => (m, e)
      | _ => (0, 0)
    let top := vals.toList.foldl (fun t x => if magLess t (mag x) then mag x else t) (0, 0)
    if top.1 = 0 then ⟨zeros, 0, lfsr, 0⟩
    else
      let e := blockExp p top.1 top.2
      let over_ := decide (127 < e)
      let e := max (-126) (min 127 e)
      let r : Lanes (Int × Bool × Word) := Lanes.of (fun i =>
        match vals[i] with
        | .fin n m x =>
          if Mask.has act i then
            let (q, inexact, t) := roundInt c.rnd n m (x - e) ⟨lfsr[i], 0⟩
            let q' := max (-(qMax p : Int)) (min (qMax p : Int) q)
            (q', inexact || q' != q, t.lfsr)
          else (0, false, lfsr[i])
        | _ => (0, false, lfsr[i]))
      let qs := r.toList.map Prod.fst
      ⟨qs, if qs.all (· == 0) then 0 else (e + 127).toNat, r.map (fun x => x.2.2),
        (if over_ then flagOF else 0) ||| (if r.toList.any (fun x => x.2.1) then flagNX else 0)⟩

/-- Bit of plane m (0 the most significant) of a P-bit element. -/
def planeBit (p m : Nat) (q : Int) : Bool := ((q % (2 ^ p : Nat)).toNat).testBit (p - 1 - m)

/-- The block register of 07 R229. -/
def blockReg (p : Nat) (b : Block) : Lanes Word :=
  Lanes.of (fun i =>
    if i.val < p then maskOf (fun k => planeBit p i.val (b.q.getD k.val 0))
    else if i.val = 16 then BitVec.ofNat 32 b.scale
    else if i.val = 17 then BitVec.ofNat 32 p
    else 0)

/-- QBNI (10 R352). -/
def execQbni (d a : VReg) (p : BitVec 6) (s : State) : Host.Outcome State Fault Refusal :=
  runGang [d, a] (fun g =>
    if g.wideE then .fault (flt .illegal)
    else
      let b := quantise g.fpCfg p.toNat g.active (g.v a) g.regs.lfsr
      let g := (g.setVAll d (blockReg p.toNat b)).raise b.flags
      .done { g with regs := { g.regs with lfsr := b.lfsr } }) s

/-- Element k of a block register read at its first n planes (03 R102). -/
def blockElem (r : Lanes Word) (n : Nat) (k : Fin 32) : Int :=
  signed n (natOfBits n (fun j => (r.toList.getD (n - 1 - j) 0).getLsbD k.val))

/-- DQBNI (10 R352, 03 R104). -/
def execDqbni (d a : VReg) (p : BitVec 6) (s : State) : Host.Outcome State Fault Refusal :=
  runGang [d, a] (fun g =>
    let r := g.v a
    let pp := (r[17]).toNat
    let sc := (r[16]).toNat % 256
    let n := p.toNat
    if g.wideE ∨ pp < 2 ∨ 16 < pp ∨ pp < n then .fault (flt .illegal)
    else
      .done (g.setFp d (fun i t =>
        if sc = 0 then (0, t)
        else if sc = 255 then (BitVec.ofNat 32 f32.nan, t)
        else
          let q := blockElem r n i
          let (x, t) := roundTo f32 g.fpCfg (decide (q < 0)) q.natAbs ((sc : Int) - 127 + pp - n) false t
          (BitVec.ofNat 32 x, t)))) s

end Sys2Proof.Machine
end

