-- ==== Sys2Proof/Machine/Matrix.lean ====
section
/-! DEFINITION. The matrix array: MMA, MMA.S, MZERO, MLOAD, MDRAIN, MSTAT, MWAIT, SPHDR and the array's events (04 R109 to R139,
10 R338 to R351, R356). -/

namespace Sys2Proof.Machine

/-! The format word (04 R113). -/

def fwPA (w : Word) : Nat := bits w 3 0 + 1
def fwAS (w : Word) : Nat := bits w 7 4 + 1
def fwPB (w : Word) : Nat := bits w 11 8 + 1
def fwBS (w : Word) : Nat := bits w 15 12 + 1
def fwAsgn (w : Word) : Bool := w.getLsbD 16
def fwBsgn (w : Word) : Bool := w.getLsbD 17
def fwSparse (w : Word) : Bool := w.getLsbD 18
def fwAccum (w : Word) : Bool := w.getLsbD 19
def fwPair (w : Word) : Bool := w.getLsbD 20
def fwRed (w : Word) : Bool := w.getLsbD 21
def fwStrm (w : Word) : Bool := w.getLsbD 22
def fwArnd (w : Word) : Nat := bits w 25 23
def fwEvt (w : Word) : Bool := w.getLsbD 26
def fwAsc (w : Word) : Bool := w.getLsbD 27
def fwBsc (w : Word) : Bool := w.getLsbD 28
def fwIgfe (w : Word) : Bool := w.getLsbD 29

/-- Elements of K that a step covers (04 R110). -/
def kStep (pA : Nat) : Nat := 32 * (32 / pA)

/-- A tile's twin (04 R130). -/
def twin (t : TileNo) : TileNo := t ^^^ 4

/-! An operation's images. -/

def TileOp.d (o : TileOp) (k : Nat) : Nat := ((o.desc[k]?).getD 0).toNat
def TileOp.kstep (o : TileOp) : Nat := kStep (fwPA o.fmt)
def TileOp.sp? (o : TileOp) : Option SpHdr := o.hdr.map SpHdr.parse
def TileOp.baseA (o : TileOp) : Nat := o.capA.origin + o.d 0
def TileOp.imgA (o : TileOp) : Planar :=
  { base := o.baseA, rows := 32, planes := fwAS o.fmt, chunks := o.d 2 + 1, scaled := fwAsc o.fmt }
def TileOp.imgB (o : TileOp) : Planar :=
  { base := o.capB.origin + o.d 1, rows := 16, planes := fwBS o.fmt, chunks := o.d 3 + 1, scaled := fwBsc o.fmt }
/-- Offset of a tile transfer (10 R345, R346). -/
def TileOp.xferAt (o : TileOp) : Nat := o.capA.origin + o.d 0
/-- MODE.RND and MODE.FTZ at acceptance (08 R264). -/
def TileOp.fpCfg (o : TileOp) : FpCfg := ⟨o.rnd, o.ftz⟩
def TileOp.mma (o : TileOp) : Bool := o.kind == .mma || o.kind == .mmaS
/-- Tiles of its core that an operation names (10 R351). -/
def TileOp.tiles (o : TileOp) : List TileNo := if o.mma && fwRed o.fmt then [o.tile, twin o.tile] else [o.tile]
def TileOp.tileMask (o : TileOp) : BitVec 8 := o.tiles.foldl (fun m t => m ||| BitVec.twoPow 8 t.toNat) 0
/-- Accepted and incomplete: neither held for a replay nor a drain that only writes on. -/
def TileOp.live (o : TileOp) : Bool := !o.held && o.puts == []

/-- Granules of a dense image that step st reads at p planes; the block at element k of row i is a zero block where zero i k holds, and
its element bits are not read (03 R101). -/
def Planar.stepGranules (p : Planar) (planes kstep st : Nat) (zero : Nat → Nat → Bool) : Granules :=
  (List.range p.rows).foldl (fun g i =>
    (List.range (kstep / 32)).foldl (fun g b =>
      let k := st * kstep + 32 * b
      let g := if zero i k then g else (List.range planes).foldl (fun g m =>
        Granules.add g ((p.base + i * p.pitch + k / 1024 * p.planes * 128 + m * 128 + k % 1024 / 8) / 16)) g
      if p.scaled then Granules.add g (p.scaleByte i k / 16) else g) g) []

/-- Granules of values and scales of a sparse image that step st reads; a group's values are not read where each block it reaches is a
zero block. -/
def SpHdr.stepGranules (h : SpHdr) (base planes kstep st : Nat) (zero : Nat → Nat → Bool) : Granules :=
  (List.range 32).foldl (fun g i =>
    let g := (List.range (kstep / h.m * h.n)).foldl (fun g e =>
      let j := st * (kstep / h.m) * h.n + e
      let k := j / max 1 h.n * h.m
      if zero i k && zero i (k + h.m - 1) then g else (List.range planes).foldl (fun g m =>
        Granules.add g ((base + h.va + i * h.fv + j / 1024 * (h.pln + 1) * 128 + m * 128 + j % 1024 / 8) / 16)) g) g
    if h.scaled then (List.range (kstep / 32)).foldl (fun g b =>
      Granules.add g ((base + h.sa + i * h.fs + (st * kstep / 32 + b)) / 16)) g
    else g) []

/-- Granules that step st of an operation reads, by core, given which blocks of A, and of B at each core, are zero blocks. -/
def TileOp.readsBut (o : TileOp) (core : CoreId) (st : Nat) (za : Nat → Nat → Bool) (zb : CoreId → Nat → Nat → Bool) :
    List (CoreId × Nat) :=
  let a := match o.sp? with
    | some h => h.stepGranules o.baseA (fwPA o.fmt) o.kstep st za
    | none => o.imgA.stepGranules (fwPA o.fmt) o.kstep st za
  let b (c : CoreId) : Granules := if fwStrm o.fmt then [] else o.imgB.stepGranules (fwPB o.fmt) o.kstep st (zb c)
  a.map (fun g => (core, g)) ++ (core :: o.mate.toList).flatMap (fun c => (b c).map (fun g => (c, g)))

/-- Granules that step st of an operation may read, by core. -/
def TileOp.stepReads (o : TileOp) (core : CoreId) (st : Nat) : List (CoreId × Nat) :=
  o.readsBut core st (fun _ _ => false) (fun _ _ _ => false)

/-- The granules of the index area. -/
def TileOp.indexReads (o : TileOp) (core : CoreId) : List (CoreId × Nat) :=
  match o.sp? with
  | some h => (granulesOf (o.baseA + h.ia) (32 * h.fi)).map (fun g => (core, g))
  | none => []

/-- Every granule an operation may read, and whether IGFE grants its claim at once (04 R133). DEDUCED (log 82): at acceptance the scale
codes may not stand there yet, so the elements of blocks that turn out to be zero blocks are claimed too. -/
def TileOp.reads (o : TileOp) (core : CoreId) : List (CoreId × Nat × Bool) :=
  let all := ((List.range o.n).filter (fun st => decide (o.k0 ≤ st))).flatMap (o.stepReads core)
  let sparse : List (CoreId × Nat) :=
    match o.sp? with
    | some h => (granulesOf o.baseA 16).map (fun g => (core, g)) ++ o.indexReads core ++
        ((List.range o.n).filter (fun st => decide (o.k0 ≤ st))).flatMap
          (fun st => (h.stepGranules o.baseA (fwPA o.fmt) o.kstep st (fun _ _ => false)).map (fun g => (core, g)))
    | none => []
  ((all ++ sparse).eraseDups).map (fun g => (g.1, g.2, fwIgfe o.fmt && !sparse.contains g))

/-- Place the claims of an operation; those held for a replay stay granted (04 R133, R137). -/
def State.placeClaims (s : State) (rs : List (CoreId × Nat × Bool)) (kept : List Claim) : List Claim :=
  rs.map (fun r => ⟨r.1, r.2.1, r.2.2 || s.isFull r.1 r.2.1 ||
    kept.any (fun c => c.granted && c.core == r.1 && c.granule == r.2.1)⟩)

/-- Claims on some granules are all granted. -/
def TileOp.granted (o : TileOp) (gs : List (CoreId × Nat)) : Bool :=
  o.claims.all (fun c => c.granted || !gs.contains (c.core, c.granule))

/-! Operands of a step. -/

/-- One block of 32 elements of a row: its scale code and elements. -/
abbrev Blk := Nat × List Int

def State.padReader (s : State) (core : CoreId) : Reader := fun a => s.readByte (.pad core a)

/-- Row i of A over step st, block by block. -/
def State.rowA (s : State) (core : CoreId) (o : TileOp) (st i : Nat) : List Blk :=
  let rd := s.padReader core
  (List.range (o.kstep / 32)).map (fun b =>
    let k := st * o.kstep + 32 * b
    match o.sp? with
    | some h => (h.scale o.baseA rd i k, (List.range 32).map (fun x => h.elem o.baseA rd (fwAsgn o.fmt) (fwPA o.fmt) i (k + x)))
    | none => (o.imgA.scale rd i k, (List.range 32).map (fun x => o.imgA.elem rd (fwAsgn o.fmt) (fwPA o.fmt) i (k + x))))

/-- The scale code of A's block at element k of row i. -/
def State.codeA (s : State) (core : CoreId) (o : TileOp) (i k : Nat) : Nat :=
  match o.sp? with
  | some h => h.scale o.baseA (s.padReader core) i k
  | none => o.imgA.scale (s.padReader core) i k

/-- Granules that step st of an operation reads: the element bits of a zero block are not read (03 R101). -/
def State.stepNeeds (s : State) (core : CoreId) (o : TileOp) (st : Nat) : List (CoreId × Nat) :=
  o.readsBut core st (fun i k => s.codeA core o i k == 0) (fun c j k => o.imgB.scale (s.padReader c) j k == 0)

/-- Stored planes of the two operands. -/
def State.planesA (o : TileOp) : Nat :=
  match o.sp? with
  | some h => h.pln + 1
  | none => fwAS o.fmt
def State.planesB (s : State) (core : CoreId) (o : TileOp) : Nat :=
  if fwStrm o.fmt then fmtBits (s.record (s.part core) o.capB.id).fmt else fwBS o.fmt

/-- A byte of the streamed object for element (row, k), translated by steps 7 to 11 of 02 R69. -/
def State.streamByte (s : State) (core : CoreId) (o : TileOp) (r : ObjRec) (co : List Int) (b : Nat) : Got Byte :=
  let f := flatOf r.dims2 co
  let bad (code : Code) : Flt :=
    { offFlt (capFlt code o.capB o.cregB) f with
      coord0 := BitVec.ofInt 32 ((co.reverse[1]?).getD 0), coord1 := BitVec.ofInt 32 ((co.reverse[0]?).getD 0), kdone := o.step }
  if inShape r.dims2 co = false then .error (.fault (bad .outOfShape))
  else if ¬ ((o.capB.origin : Int) ≤ f ∧ f < (o.capB.origin + o.capB.length : Nat)) then .error (.fault (bad .capBounds))
  else
    match s.engineLoc core false o.capB o.cregB (s.objectByte core o.capB o.cregB r b co) with
    | .ok l => .ok (s.readByte l)
    | .error (.moving id) => .error (.moving id)
    | .error (.fault f) => .error (.fault { f with kdone := o.step })

/-- A block that a streamed row holds, with the layout bytes it was read from. -/
abbrev SBlk := Blk × List Nat

/-- The elements of a block of a streamed row, n planes stored, from column k on. -/
def State.blockStream (s : State) (core : CoreId) (o : TileOp) (r : ObjRec) (at_ : Nat → List Int) (k : Nat) : Got (List Int × List Nat) :=
  let n := fmtBits r.fmt
  let off (k : Nat) : Nat := (elemOffset r.dims2 r.strides2 (at_ k)).toNat
  let bit (x m : Nat) : Nat := r.bitAt (off (k + x)) (n - 1 - m)
  match collect (fun x =>
    match collect (fun m => (s.streamByte core o r (at_ (k + x)) (bit x m / 8)).map (fun y => bitOf y (bit x m % 8))) (List.range (fwPB o.fmt)) with
    | .error e => .error e
    | .ok bs =>
      let v := natOfBits (fwPB o.fmt) (fun q => bs.getD (fwPB o.fmt - 1 - q) false)
      .ok (if fwBsgn o.fmt then signed (fwPB o.fmt) v else (v : Int))) (List.range 32) with
  | .error e => .error e
  | .ok xs => .ok (xs, (List.range 32).flatMap (fun x => (List.range (fwPB o.fmt)).map (fun m => bit x m / 8)))

/-- Row j of a streamed B over step st (04 R120, R121): in row n0 + j + shift from column k0 on. DESIGN CHOICE (log 82): of several
elements that fail, the first is the one met first in this order: the leader's rows before the follower's, row by row, block by
block, a block's scale before its elements; the elements of a zero block are not read (03 R101). -/
def State.rowStream (s : State) (core : CoreId) (o : TileOp) (st j : Nat) : Got (List SBlk) :=
  match s.objectSteps core o.capB o.cregB (pM + pR) with
  | .error f => .error (.fault { f with kdone := o.step })
  | .ok r =>
    let at_ (k : Nat) : List Int := addLast2 (decompose r.dims2 o.capB.origin) (j : Int) (k : Int)
    collect (fun b =>
      let k := st * o.kstep + 32 * b
      let sb := r.scaleAt (elemOffset r.dims2 r.strides2 (at_ k)).toNat
      match (if r.hasScales then (s.streamByte core o r (at_ k) sb).map (fun c => (c.toNat, [sb])) else .ok (127, [])) with
      | .error e => .error e
      | .ok (0, us) => .ok ((0, List.replicate 32 0), us)
      | .ok (c, us) => (s.blockStream core o r at_ k).map (fun x => ((c, x.1), us ++ x.2))) (List.range (o.kstep / 32))

/-- Row j of B over step st, at one core; shift is 16 for the follower's rows of a streamed operand. -/
def State.rowB (s : State) (core : CoreId) (o : TileOp) (st shift j : Nat) : Got (List SBlk) :=
  if fwStrm o.fmt then s.rowStream core o st (shift + j)
  else
    let rd := s.padReader core
    .ok ((List.range (o.kstep / 32)).map (fun b =>
      let k := st * o.kstep + 32 * b
      ((o.imgB.scale rd j k, (List.range 32).map (fun x => o.imgB.elem rd (fwBsgn o.fmt) (fwPB o.fmt) j (k + x))), [])))

/-! Matrix sums (03 R105, R106). -/

/-- An accumulator with the sticky bits raised: NV, OF, NX. -/
structure Acc where
  x  : Word
  nv : Bool := false
  ov : Bool := false
  nx : Bool := false
deriving DecidableEq, Repr

/-- One block's contribution to a cell. ea and eb are the exponents that the unread planes add (03 R102). -/
def accBlock (rnd ea eb : Nat) (acc : Acc) (a b : Blk) : Acc :=
  if a.1 = 255 ∨ b.1 = 255 then { acc with x := BitVec.ofNat 32 f32.nan }
  else
    let d := ((a.2.zip b.2).map (fun p => p.1 * p.2)).foldl (· + ·) 0
    if a.1 = 0 ∨ b.1 = 0 ∨ d = 0 then acc
    else
      match f32.decode false acc.x.toNat with
      | .nan _ => { acc with x := BitVec.ofNat 32 f32.nan }
      | v =>
        let (r, t) := addVals f32 ⟨rnd, false⟩ v
          (.fin (decide (d < 0)) d.natAbs ((a.1 : Int) - 127 + ea + ((b.1 : Int) - 127 + eb))) ⟨0, 0⟩
        { x := BitVec.ofNat 32 r, nv := acc.nv || (t.flags &&& flagNV) != 0, ov := acc.ov || (t.flags &&& flagOF) != 0
          nx := acc.nx || (t.flags &&& flagNX) != 0 }

/-- A cell over a step. -/
def accCell (rnd ea eb : Nat) (x : Word) (a b : List Blk) : Acc :=
  (a.zip b).foldl (fun acc ab => accBlock rnd ea eb acc ab.1 ab.2) { x := x }

/-- Every scale code of a side is zero. -/
def zeroSide (rows : List (List Blk)) : Bool := rows.all (fun r => r.all (fun b => b.1 == 0))

/-- A step is skipped when every scale code of one side is zero and none of either side is 0xFF (04 R118). -/
def skipStep (a b : List (List Blk)) : Bool := (zeroSide a || zeroSide b) && (a ++ b).all (fun r => r.all (fun x => x.1 != 255))

/-- A tile after a step on rows of A and B. -/
def Tile.accumulate (t : Tile) (rnd ea eb : Nat) (a b : List (List Blk)) : Tile :=
  let cell (i j : Nat) : Acc := accCell rnd ea eb ((t.cells.toList.getD i (Vector.replicate 16 0)).toList.getD j 0) (a.getD i []) (b.getD j [])
  let accs : Vector (Vector Acc 16) 32 := Vector.ofFn (fun i => Vector.ofFn (fun j => cell i.val j.val))
  let any_ (f : Acc → Bool) : Bool := accs.toList.any (fun r => r.toList.any f)
  { t with cells := accs.map (fun r => r.map Acc.x), nv := t.nv || any_ Acc.nv, ov := t.ov || any_ Acc.ov, nx := t.nx || any_ Acc.nx }

/-- What the first step of an operation does to a tile: overwrite (04 R111) and the REDUN bit (04 R130). DESIGN CHOICE (log 96): an
operation sets the bit of the twin of a redundant one too, and MZERO and MLOAD of a tile leave its twin's. -/
def Tile.open_ (t : Tile) (o : TileOp) : Tile :=
  let t := { t with redun := fwRed o.fmt }
  if o.step = 0 ∧ fwAccum o.fmt = false then { t with cells := Vector.replicate 32 (Vector.replicate 16 0) } else t

def Ctx.modTile (x : Ctx) (t : TileNo) (f : Tile → Tile) : Ctx :=
  { x with tiles := x.tiles.set t.toNat (f (x.tiles[t.toNat]'t.isLt)) t.isLt }

def Ctx.tile (x : Ctx) (t : TileNo) : Tile := x.tiles[t.toNat]'t.isLt

/-! The array. -/

def State.op? (s : State) (core : CoreId) (seq : Nat) : Option TileOp := (s.ctx core).ops.find? (fun o => o.seq == seq)
def State.modOp (s : State) (core : CoreId) (seq : Nat) (f : TileOp → TileOp) : State :=
  s.modCtx core (fun x => { x with ops := x.ops.map (fun o => if o.seq = seq then f o else o) })

/-- The pair operations that name a core as the follower, those of saved leaders too, and whether each runs (04 R119). -/
def State.lentOps (s : State) (core : CoreId) : List (TileOp × Bool) :=
  (s.contexts (s.part core)).flatMap (fun x =>
    (x.2.ops.filter (fun o => o.live && o.mate == some core)).map (fun o => (o, x.2.running == some o.seq)))

/-- A pair operation of another core runs on this core's array, which it occupies until it ends (04 R119). -/
def State.lentArray (s : State) (core : CoreId) : Bool := (s.lentOps core).any Prod.snd

def State.arrayFree (s : State) (core : CoreId) : Bool := (s.ctx core).running.isNone && !s.lentArray core

/-- The granules that must be granted for an operation's next step. -/
def State.nextReads (s : State) (core : CoreId) (o : TileOp) : List (CoreId × Nat) :=
  match o.kind with
  | .mma | .mmaS => s.stepNeeds core o o.step
  | .mload => o.claims.map (fun c => (c.core, c.granule))
  | _ => []

/-- The head of a gang's Q10: its oldest operation that is neither held nor only writing on. -/
def Ctx.headOp (x : Ctx) (k : SlotId) : Option TileOp := x.ops.find? (fun o => o.slot == k && o.live)

/-- Whether a drain to Q11 must wait for an earlier one's entries (10 R349). -/
def TileOp.queueClear (o : TileOp) (g : Gang) : Bool := o.kind != .mdrainQ || g.drainOut == []

/-- The operation the array would start, of those that no earlier drain to Q11 holds back (10 R349): the oldest head of the highest-priority gang, or the next slot in the rotation of a
deterministic partition (04 R116, 06 R198). -/
def State.nextOp (s : State) (core : CoreId) : Option TileOp :=
  let x := s.ctx core
  let heads := x.gangs.filterMap (fun kg => ((x.headOp kg.1).filter (fun o => o.queueClear kg.2)).map (fun o => (kg.1, kg.2, o)))
  if (s.part core).det then
    let from_ := match x.arrSlot with
      | some k => k.val + 1
      | none => 0
    ((List.range 8).findSome? (fun i => (heads.find? (fun h => h.1.val == (from_ + i) % 8)))).map (fun h => h.2.2)
  else
    let eff (g : Gang) : Nat := min 31 (g.hdr.prio + g.cnt.wt / 2048)
    (heads.foldl (fun best h =>
      match best with
      | none => some h
      | some b => if eff b.2.1 < eff h.2.1 ∨ (eff b.2.1 = eff h.2.1 ∧ h.2.2.seq < b.2.2.seq) then some h else some b) none).map
      (fun h => h.2.2)

/-- The chosen operation could start but for the arrays being free. -/
def State.startable (s : State) (core : CoreId) : Option TileOp :=
  match s.nextOp core with
  | some o => if (s.core core).stopped ∨ o.pass ∨ o.granted (s.nextReads core o) = false then none else some o
  | none => none

/-- A pair operation that waits only for this core's array goes ahead of its own (04 R116, R119). -/
def State.awaited (s : State) (core : CoreId) : Bool :=
  s.cores.any (fun kv =>
    let c : CoreId := BitVec.ofNat 12 kv.1
    (match s.startable c with
     | some o => o.mate == some core && s.arrayFree c
     | none => false))

/-- MATRIX_OP_START (04 R116). -/
def State.opToStart (s : State) (core : CoreId) : Option TileOp :=
  match s.startable core with
  | some o =>
    let free := s.arrayFree core && !s.awaited core &&
      (match o.mate with
       | some m => s.arrayFree m && !(s.core m).stopped
       | none => true)
    if free then some o else none
  | none => none

def matrixStartReady (s : State) (core : CoreId) : Bool := (s.opToStart core).isSome

def execMatrixOpStart (core : CoreId) (s : State) : Host.Outcome State Fault Refusal :=
  .next (match s.opToStart core with
    | some o => (s.modOp core o.seq (fun o => { o with started := true })).modCtx core
        (fun x => { x with running := some o.seq, arrSlot := some o.slot })
    | none => s)

/-! The end of an operation. -/

/-- No live operation of the gang names the tile (10 R351). -/
def Ctx.tileDone (x : Ctx) (k : SlotId) (t : TileNo) : Bool :=
  x.ops.all (fun o => o.slot != k || !o.live || !o.tiles.contains t)

/-- A gang at MWAIT goes on (10 R351). -/
def State.wakeMwait (s : State) (core : CoreId) (k : SlotId) : State :=
  match (s.gang? core k).bind Gang.why? with
  | some (.mwait t) =>
    if (s.ctx core).tileDone k (BitVec.ofNat 3 t) then s.asGang core k (fun s => s.retire none) else s
  | _ => s

/-- The cores whose granules an operation claims. -/
def TileOp.claimCores (o : TileOp) : List CoreId := (o.claims.map Claim.core).eraseDups

/-- What 06 R200 keeps of a completed operation. -/
def TileOp.past (o : TileOp) : Past := { cls := .matrix, lt := o.lt, tiles := o.tileMask }

/-- Remember a completed operation for its gang, and for those with the follower's tiles (06 R200). -/
def State.reportOp (s : State) (core : CoreId) (o : TileOp) : State :=
  let det := (s.part core).det
  let s := s.modGang core o.slot (fun g => g.report det
    { o.past with out := if o.kind = .mdrainQ then g.drainOut.length else 0 })
  match o.mate with
  | some m => ((o.tiles.filterMap (fun t => ((s.ctx m).tile t).owner)).eraseDups).foldl
      (fun (s : State) k => s.modGang m k (fun g => g.report det { o.past with cls := .lent })) s
  | none => s

/-- Those that wait at the follower's core look again. -/
def State.wakeMate (s : State) (o : TileOp) : State := o.mate.elim s s.wakeHazard

/-- An operation leaves the array and Q10 (04 R117). -/
def State.endOp (s : State) (core : CoreId) (o : TileOp) : State :=
  let s := s.modCtx core (fun x => { x with
    ops := x.ops.filter (fun p => p.seq != o.seq)
    running := if x.running = some o.seq then none else x.running })
  (((s.reportOp core o).wakeMwait core o.slot).wakeHazard core).wakeMate o

/-- The tiles an operation writes: its own, the twin's, the follower's. -/
def State.writeTiles (s : State) (core : CoreId) (o : TileOp) (f : CoreId → Tile → Tile) : State :=
  let s := o.tiles.foldl (fun (s : State) t => s.modCtx core (fun x => x.modTile t (f core))) s
  match o.mate with
  | some m => o.tiles.foldl (fun (s : State) t => s.modCtx m (fun x => x.modTile t (f m))) s
  | none => s

/-- The B rows of a step: the leader's, then the follower's. -/
def State.stepB (s : State) (core : CoreId) (o : TileOp) : Got (List (List SBlk) × List (List SBlk)) :=
  match collect (s.rowB core o o.step 0) (List.range 16) with
  | .error e => .error e
  | .ok b =>
    match o.mate with
    | none => .ok (b, [])
    | some m => (collect (s.rowB m o o.step 16) (List.range 16)).map (fun b2 => (b, b2))

/-- A stream-mode stop before the next step (04 R137). -/
def State.stopStream (s : State) (core : CoreId) (o : TileOp) (f : Flt) : State :=
  let s := s.modCtx core (fun x => { x with running := if x.running = some o.seq then none else x.running })
  let s := s.modOp core o.seq (fun o => { o with held := true, started := false })
  let s := s.writeTiles core o (fun _ t => { t with kdone := o.step })
  let s := s.modGang core o.slot (fun g => { g with heldClaims := some o.pc })
  (s.asGang core o.slot (fun s => s.settle (.fault { f with kdone := o.step }))).wakeMwait core o.slot

/-- A poisoning of a tile is reported: DATA_ERROR at an instruction that names the tile, once (10 R339, 04 R139). -/
def State.reportPoison (s : State) (g : Gang) (t kdone : Nat) : State :=
  ((s.setMe { g with poisoned := g.poisoned.filter (fun q => q.1 != t) }).publishFault).freeze
    s.cur.core s.cur.slot { flt .dataError with kdone := kdone } g.active s.cur.word

/-- The operations that go when an operand of one stays uncorrectable: itself and its gang's later ones on the tile (04 R139). -/
def Ctx.discards (x : Ctx) (o : TileOp) : List TileOp :=
  x.ops.filter (fun p => p.seq == o.seq ||
    (p.slot == o.slot && decide (o.seq < p.seq) && p.tiles.any (fun t => o.tiles.contains t)))

/-- A gang waits at an instruction that names a poisoned tile, or whose operation is discarded. -/
def Why.names (w : Why) (o : TileOp) (gone : List TileOp) : Bool :=
  match w with
  | .drain n | .stream n | .indexPass n => gone.any (fun p => p.seq == n)
  | .mwait t => o.tiles.any (fun u => u.toNat == t)
  | _ => false

/-- The gang that a poisoned tile is allotted to owes its report. -/
def State.owePoison (s : State) (core : CoreId) (o : TileOp) : State :=
  o.tiles.foldl (fun (s : State) t =>
    match ((s.ctx core).tile t).owner with
    | some k => s.modGang core k (fun g => { g with poisoned := g.poisoned.filter (fun q => q.1 != t.toNat) ++ [(t.toNat, o.step)] })
    | none => s) s

/-- An operand of the next step cannot be read (04 R139): the tile keeps its completed steps, POISON and KDONE are set, the later
operations on the tile are discarded, and DATA_ERROR is owed, at once where the gang stands at an instruction that names it. -/
def State.poisonOp (s : State) (core : CoreId) (o : TileOp) : State :=
  let gone := (s.ctx core).discards o
  let s := s.writeTiles core o (fun _ t => { t with poison := true, kdone := o.step })
  let s := s.modCtx core (fun x => { x with
    ops := x.ops.filter (fun p => !gone.any (fun q => q.seq == p.seq))
    running := if x.running.any (fun n => gone.any (fun q => q.seq == n)) then none else x.running })
  let s := gone.foldl (fun (s : State) p => s.reportOp core p) s
  let s := s.owePoison core o
  let s := match o.mate with
    | some m => s.owePoison m o
    | none => s
  let s := match s.gang? core o.slot with
    | some g =>
      match g.why? with
      | some w =>
        if w.names o gone then
          s.asGang core o.slot (fun s => match s.me? with
            | some g => s.reportPoison g (match w with
                | .mwait t => t
                | _ => o.tile.toNat) o.step
            | none => s)
        else s
      | none => s
    | none => s
  (s.wakeHazard core).wakeMate o

/-- Some granules of an operation's reads cannot be read (02 R60). -/
def State.lostReads (s : State) (gs : List (CoreId × Nat)) : Bool := gs.any (fun g => s.lostAt (.pad g.1 (16 * g.2)) 16)

/-- The reads of an operation are finished: its claims go, EVT pushes its token, a waiting gang retires (04 R134, R135, 10 R343). -/
def State.readsOver (s : State) (core : CoreId) (o : TileOp) : State :=
  let s := s.modOp core o.seq (fun o => { o with claims := [] })
  let s := if o.mma && fwEvt o.fmt then
      s.modGang core o.slot (fun g => g.token (BitVec.ofNat 32 (0xE0000000 + 256 * o.tile.toNat + o.num.toNat)))
    else s
  if (s.gang? core o.slot).bind Gang.why? = some (.stream o.seq) then s.asGang core o.slot (fun s => s.retire none) else s

/-- The blocks of streamed rows. -/
def blocksOf (rows : List (List SBlk)) : List (List Blk) := rows.map (fun r => r.map Prod.fst)

/-- The map entries that streamed rows were translated by. -/
def TileOp.uses (o : TileOp) (rows : List (List SBlk)) : List MapUse :=
  rows.flatMap (fun r => r.flatMap (fun b => b.2.map (fun x => (o.capB.id, x / 65536))))

/-- One step of the running operation (10 R344). None: a read waits for a claim, or for the invalidation that ends a relocation. -/
def State.runStep (s : State) (core : CoreId) : Option State :=
  match (s.ctx core).running.bind (s.op? core) with
  | some o =>
    if o.mma = false ∨ (s.core core).stopped ∨ o.mate.any (fun m => (s.core m).stopped) ∨ o.walk.isSome ∨
        o.granted (s.nextReads core o) = false then none
    else if s.lostReads (s.nextReads core o) then some (s.poisonOp core o)
    else
      match s.stepB core o with
      | .error (.moving id) => some (s.modOp core o.seq (fun o => { o with walk := some id }))
      | .error (.fault f) => some (s.stopStream core o f)
      | .ok (rows, rows2) =>
        let b := blocksOf rows
        let b2 := blocksOf rows2
        let s := s.cacheUses core (o.uses (rows ++ rows2))
        let a := (List.range 32).map (s.rowA core o o.step)
        let ea := State.planesA o - fwPA o.fmt
        let eb := s.planesB core o - fwPB o.fmt
        let skip := skipStep a (b ++ b2)
        let s := s.writeTiles core o (fun c t =>
          let t := if o.step = o.k0 then t.open_ o else t
          if skip then t else t.accumulate (fwArnd o.fmt) ea eb a (if c = core then b else b2))
        let s := s.modOp core o.seq (fun o => { o with step := o.step + 1 })
        if o.n ≤ o.step + 1 then
          let s := s.readsOver core o
          some (s.endOp core o)
        else some s
  | none => none

/-- MATRIX_STEP (10 R344). -/
def matrixStepReady (s : State) (core : CoreId) : Bool := (s.runStep core).isSome

def execMatrixStep (core : CoreId) (s : State) : Host.Outcome State Fault Refusal :=
  .next ((s.runStep core).getD s)

/-! Drains (10 R346 to R349). -/

/-- Type and block of a drain. -/
def TileOp.drainTy (o : TileOp) : Nat := o.d 1 % 256
def TileOp.drainH (o : TileOp) : Nat := o.d 1 / 256 % 32

def Tile.cell (t : Tile) (i j : Nat) : Word := (t.cells.toList.getD i (Vector.replicate 16 0)).toList.getD j 0

/-- A tile in bf16: patterns by row and column, LFSRs and flags (10 R348). -/
def Tile.toBf16 (t : Tile) (c : FpCfg) (lfsr : Lanes Word) : List (List Nat) × Lanes Word × BitVec 5 :=
  let rows : Lanes (List Nat × FpSt) := Lanes.of (fun i =>
    (List.range 16).foldl (fun acc j =>
      let (x, st) := cvtFF bf16 f32 c (t.cell i.val j).toNat acc.2
      (acc.1 ++ [x], st)) ([], ⟨lfsr[i], 0⟩))
  (rows.toList.map Prod.fst, rows.map (fun r => r.2.lfsr), rows.toList.foldl (fun k r => k ||| r.2.flags) 0)

/-- A tile's columns as blocks, one after the other (10 R348). -/
def Tile.toBlocks (t : Tile) (c : FpCfg) (p : Nat) (lfsr : Lanes Word) : List Block × Lanes Word × BitVec 5 :=
  (List.range 16).foldl (fun (acc : List Block × Lanes Word × BitVec 5) j =>
    let b := quantise c p (BitVec.allOnes 32) (Lanes.of (fun i => t.cell i.val j)) acc.2.1
    (acc.1 ++ [b], b.lfsr, acc.2.2 ||| b.flags)) ([], lfsr, 0)

/-- Bytes a drain writes: address and bytes. -/
def TileOp.drainPuts (o : TileOp) (t : Tile) (bf : List (List Nat)) (bl : List Block) : List (Nat × List Byte) :=
  let base := o.xferAt
  if o.drainTy = 6 then
    (List.range 128).map (fun g => (base + 16 * g, (List.range 4).flatMap (fun x => toBytes 4 (t.cell (g / 4) (g % 4 * 4 + x)).toNat)))
  else if o.drainTy = 8 then
    (List.range 64).map (fun g => (base + 16 * g, (List.range 8).flatMap (fun x => toBytes 2 ((bf.getD (g / 2) []).getD (g % 2 * 8 + x) 0))))
  else
    let p := o.drainTy - 14
    let f := roundUpTo (p * 128 + 32) 128
    (List.range 16).flatMap (fun j =>
      let b := bl.getD j ⟨[], 0, Lanes.all 0, 0⟩
      (List.range p).map (fun m =>
        (base + j * f + m * 128 + 4 * o.drainH, toBytes 4 (maskOf (fun k => planeBit p m (b.q.getD k.val 0))).toNat)) ++
      [(base + j * f + p * 128 + o.drainH, [BitVec.ofNat 8 b.scale])])

/-- Entries a drain to Q11 yields (10 R349). -/
def TileOp.drainEntries (o : TileOp) (t : Tile) (bf : List (List Nat)) (bl : List Block) : List (Lanes Word) :=
  if o.drainTy = 6 then (List.range 16).map (fun e => Lanes.of (fun i => t.cell i.val e))
  else if o.drainTy = 8 then
    (List.range 8).map (fun e => Lanes.of (fun i =>
      let r := bf.getD i.val []
      BitVec.ofNat 32 (r.getD (2 * e) 0 + 2 ^ 16 * r.getD (2 * e + 1) 0)))
  else bl.map (blockReg (o.drainTy - 14))

/-- The first cell, in row-major order, in which a tile and its twin differ (04 R131). -/
def firstDiff (a b : Tile) : Option Nat := (List.range 512).find? (fun x => a.cell (x / 16) (x % 16) != b.cell (x / 16) (x % 16))

/-- A drain reads the tile, is checked and lets its gang retire (10 R347 stages 2 and 3). -/
def State.drain (s : State) (core : CoreId) (o : TileOp) : State :=
  let x := s.ctx core
  let t := x.tile o.tile
  let clash := if t.redun ∧ o.tile.toNat < 4 then firstDiff t (x.tile (twin o.tile)) else none
  let waits := (s.gang? core o.slot).bind Gang.why? == some (.drain o.seq)
  match clash with
  | some c =>
    let s := s.endOp core o
    if waits then
      s.asGang core o.slot (fun s => s.settle (.fault { flt .arrayMismatch with offset := BitVec.ofNat 64 (o.tile.toNat * 65536 + c) }))
    else s
  | none =>
    match s.gang? core o.slot with
    | none => s
    | some g =>
      let (bf, l1, f1) := if o.drainTy = 8 then t.toBf16 o.fpCfg g.regs.lfsr else ([], g.regs.lfsr, 0)
      let (bl, l2, f2) := if 16 ≤ o.drainTy then t.toBlocks o.fpCfg (o.drainTy - 14) l1 else ([], l1, 0)
      let g := g.raise (f1 ||| f2)
      let g := { g with regs := { g.regs with lfsr := l2 } }
      let s := s.setGang core o.slot (if o.kind = .mdrainQ then { g with drainOut := o.drainEntries t bf bl } else g)
      let s :=
        if o.kind = .mdrainQ then s.endOp core o
        else
          let s := s.modOp core o.seq (fun o => { o with puts := o.drainPuts t bf bl })
          let s := s.modCtx core (fun x => { x with running := if x.running = some o.seq then none else x.running })
          (s.reportOp core o).wakeMwait core o.slot
      if waits then s.asGang core o.slot (fun s => s.retire none) else s

/-- MLOAD's effect (10 R345). -/
def State.loadTile (s : State) (core : CoreId) (o : TileOp) : State :=
  let rd := s.padReader core
  s.modCtx core (fun x => x.modTile o.tile (fun t =>
    { Tile.fresh with
      owner := t.owner
      cells := Vector.ofFn (fun i => Vector.ofFn (fun j =>
        BitVec.ofNat 32 (ofBytes ((List.range 4).map (fun b => rd (o.xferAt + 4 * (16 * i.val + j.val) + b)))))) }))

/-- The running tile operation other than a sum. -/
def State.runningXfer (s : State) (core : CoreId) : Option TileOp :=
  match (s.ctx core).running.bind (s.op? core) with
  | some o => if o.mma then none else some o
  | none => none

/-- The oldest drain whose next granule may be written (10 R347 stage 4, 04 R134). -/
def State.drainToWrite (s : State) (core : CoreId) : Option (TileOp × (Nat × List Byte)) :=
  (s.ctx core).ops.findSome? (fun o =>
    match o.puts with
    | p :: _ => if (granulesOf p.1 p.2.length).any (fun g => s.claimed (core, g)) then none else some (o, p)
    | [] => none)

/-- Write one granule of a drain. -/
def State.writeDrain (s : State) (core : CoreId) (o : TileOp) (p : Nat × List Byte) : State :=
  let s := s.homeWrite core (.pad core p.1) p.2
  if o.puts.length ≤ 1 then
    (s.modCtx core (fun x => { x with ops := x.ops.filter (fun q => q.seq != o.seq) })).wakeHazard core
  else s.modOp core o.seq (fun o => { o with puts := o.puts.tail })

/-- TILE_OPERATION_COMPLETE (10 R347): the running MZERO, MLOAD or MDRAIN ends, or a drain writes its next granule. -/
def tileCompleteReady (s : State) (core : CoreId) : Bool :=
  !(s.core core).stopped && ((s.runningXfer core).isSome || (s.drainToWrite core).isSome)

def State.endXfer (s : State) (core : CoreId) (o : TileOp) : State :=
  match o.kind with
  | .mzero => (s.modCtx core (fun x => x.modTile o.tile (fun t => { Tile.fresh with owner := t.owner }))).endOp core o
  | .mload =>
    if s.lostReads ((granulesOf o.xferAt 2048).map (fun x => (core, x))) then s.poisonOp core o else (s.loadTile core o).endOp core o
  | _ => s.drain core o

def execTileOperationComplete (core : CoreId) (s : State) : Host.Outcome State Fault Refusal :=
  .next (if tileCompleteReady s core then
      match s.runningXfer core, s.drainToWrite core with
      | some o, none => s.endXfer core o
      | some o, some (w, p) => if Config.nat s.clock % 2 = 0 then s.endXfer core o else s.writeDrain core w p
      | none, some (w, p) => s.writeDrain core w p
      | none, none => s
    else s)

/-- DRAIN_Q11_PUSH (10 R349). -/
def drainPushReady (s : State) (core : CoreId) (slot : SlotId) : Bool :=
  match s.gang? core slot with
  | some g => g.drainOut != [] && decide (g.q[11].length < 8) && !(s.core core).stopped
  | none => false

def execDrainQ11Push (core : CoreId) (slot : SlotId) (s : State) : Host.Outcome State Fault Refusal :=
  .next (if drainPushReady s core slot then
      s.modGang core slot (fun g =>
        match g.drainOut with
        | e :: es => { g with drainOut := es, q := g.q.set 11 (g.q[11] ++ [e]) }
        | [] => g)
    else s)

/-! Acceptance. -/

/-- A poisoning not reported yet raises DATA_ERROR once (10 R339). -/
def State.poisonGate (s : State) (g : Gang) (t : TileNo) (k : Unit → Res) : Res :=
  match g.poisoned.find? (fun p => p.1 == t.toNat) with
  | some p => .gone (s.reportPoison g t.toNat p.2)
  | none => k ()

/-- The tile is allotted to the executing gang (10 R338). -/
def State.ownsTile (s : State) (t : TileNo) : Bool := ((s.ctx s.cur.core).tile t).owner == some s.cur.slot

/-- Q10 has space (06 R179). -/
def Ctx.q10 (x : Ctx) (k : SlotId) : Nat := (x.ops.filter (fun o => o.slot == k && o.live && !o.started)).length

/-- Push an operation; claims held for this PC pass to it (04 R137). -/
def State.acceptOp (s : State) (o : TileOp) (reads : List (CoreId × Nat × Bool)) : State × Nat :=
  let core := s.cur.core
  let x := s.ctx core
  let mine (p : TileOp) : Bool := p.slot == o.slot && p.held && p.pc == o.pc
  let kept := (x.ops.filter mine).flatMap TileOp.claims
  let o := { o with seq := x.seq, claims := s.placeClaims reads kept }
  let s := s.modCtx core (fun x => { x with ops := x.ops.filter (fun p => !mine p) ++ [o], seq := x.seq + 1 })
  (s.modGang core o.slot (fun g => if g.heldClaims = some o.pc then { g with heldClaims := none } else g), o.seq)

/-- A capability of LOCAL with needed permissions. -/
def State.localCap (s : State) (c : Cap) (creg need : Nat) : Except Flt Unit :=
  (s.sideReach s.cur.core c creg [0] 0 need).map (fun _ => ())

/-- Bytes lie in the capability's range and in no range that this reader may not reach (06 R181, 05 R163). -/
def padRange (c : Cap) (creg : Nat) (k : Into) (o n : Nat) : Except Flt Unit :=
  require (decide (c.origin ≤ o) && decide (o + n ≤ c.origin + c.length) && decide (o + n ≤ Config.padBytes) && !reserved k o n)
    (offFlt (capFlt .capBounds c creg) o)

def padAlign (c : Cap) (creg : Nat) (o : Nat) : Except Flt Unit :=
  require (o % 128 == 0) (offFlt (capFlt .misaligned c creg) o)

/-- The follower's site and its checks (04 R119). DESIGN CHOICE (log 82): where the context of that site has migrated, the follower is the
core that the site's forwarding entry names. DESIGN CHOICE (log 97): the tile of the operation is checked, and the twin that RED writes on
the follower is not. -/
def State.follower (s : State) (g : Gang) (t : TileNo) : Except Flt CoreId := do
  let c := s.cur.core
  require (xOf c != 31) (flt .illegal)
  let f := siteAt (dieOf c).val (xOf c + 1) (yOf c)
  require (!s.noCore f) { flt .notMapped with offset := f.zeroExtend 64 }
  let m := s.route f
  require (match ((s.ctx m).tile t).owner with
    | some k => (match s.gang? m k with
      | some h => h.ident.crew == g.ident.crew
      | none => false)
    | none => false) (flt .illegal)
  .ok m

/-- Checks of a dense scratchpad image (04 R112). -/
def State.imageCheck (s : State) (c : Cap) (creg : Nat) (p : Planar) (k : Nat) : Except Flt Unit := do
  s.localCap c creg (pM + pR)
  padAlign c creg p.base
  padRange c creg .load p.base p.size
  require (decide (k ≤ 1024 * p.chunks)) (offFlt (capFlt .capBounds c creg) p.base)

/-- Checks of a streamed B (04 R120). -/
def State.streamCheck (s : State) (c : Cap) (creg : Nat) : Except Flt Unit := do
  match ← s.sideReach s.cur.core c creg [2] 0 (pM + pR) with
  | .object r =>
    require (r.rank == 2 && r.layout == 2 && (r.fmt == 4 || r.fmt == 5 || fmtBni r.fmt) &&
      decide (((decompose r.dims2 c.origin).reverse[0]?).getD 0 % 32 = 0)) (capFlt .misaligned c creg)
  | _ => .error (capFlt .capPerm c creg)

/-- The format word of an MMA with REDMX applied, or why it is not legal (04 R114, R115; 10 R342). None: no active lane. -/
def Gang.formatWord (g : Gang) (f : VReg) : Except Flt (Option Word) :=
  match Mask.lowest g.active with
  | none => .ok none
  | some i =>
    let w := (g.v f)[i]
    let diff := maskOf (fun j => Mask.has g.active j && (g.v f)[j] != w)
    if diff ≠ 0 then .error { flt .formatDivergence with offset := diff.zeroExtend 64 }
    else .ok (some (if g.hdr.redmx then w ||| BitVec.twoPow 32 21 else w))

/-- The stored planes of a streamed B: those of its object's FMT (04 R113), when the capability names a record. -/
def State.streamPlanes (s : State) (c : Cap) : Option Nat :=
  let p := s.part s.cur.core
  let r := s.record p c.id
  if c.tag ∧ c.space = 2 ∧ c.id < p.ortSize ∧ (r.state = 1 ∨ r.state = 2) then some (fmtBits r.fmt) else none

/-- Checks of the format word for a tile and the capability of B (04 R115). -/
def State.formatCheck (s : State) (w : Word) (sparse : Bool) (t : TileNo) (cb : Cap) : Except Flt Unit :=
  require (bits w 31 30 == 0 && decide (fwArnd w ≤ 4) && (sparse || decide (fwPA w ≤ fwAS w)) &&
    (if fwStrm w then (s.streamPlanes cb).all (fun n => decide (fwPB w ≤ n)) else decide (fwPB w ≤ fwBS w)) && fwSparse w == sparse &&
    !(fwRed w && (decide (8 < fwPB w) || decide (4 ≤ t.toNat) || !s.ownsTile (twin t)))) (flt .illegal)

/-- Outcome of the checks of an MMA before Q10: nothing to do, a wait for the header, or the operation. -/
inductive MmaPlan
  | idle
  | header
  | op (o : TileOp)

/-- Steps 1 to 8 of 10 R342. -/
def State.planMma (s : State) (g : Gang) (sparse : Bool) (t : TileNo) (n : Nat) (f : VReg) (ca cb : CReg) : Except Flt MmaPlan := do
  match ← g.formatWord f with
  | none => .ok .idle
  | some w =>
    s.formatCheck w sparse t (g.c cb)
    let k0 := modeKresume g.regs.mode
    require (s.ownsTile t && decide (k0 < n)) (flt .illegal)
    let desc := ((g.v (nextV f)).toList.take 4)
    let o : TileOp :=
      { seq := 0, slot := s.cur.slot, kind := if sparse then .mmaS else .mma, tile := t, fmt := w, desc := desc, n := n, k0 := k0
        step := k0, capA := g.c ca, capB := g.c cb, cregA := ca.toNat, cregB := cb.toNat, pc := g.regs.pc, lt := g.cnt.lt
        num := g.cnt.opNum, pass := sparse }
    require ((sparse || decide (o.d 2 < 32)) && (fwStrm w || decide (o.d 3 < 32))) (flt .illegal)
    let mate ← if fwPair w then (s.follower g t).map some else .ok none
    let o := { o with mate := mate }
    if sparse then
      s.localCap o.capA o.cregA (pM + pR)
      padRange o.capA o.cregA .load o.baseA 16
      padAlign o.capA o.cregA o.baseA
      if s.isFull s.cur.core (o.baseA / 16) = false then .ok .header
      else if s.lostAt (.pad s.cur.core o.baseA) 16 then .error (capFlt .dataError o.capA o.cregA)
      else
        let bytes := s.homeRead (.pad s.cur.core o.baseA) 16
        let h := SpHdr.parse bytes
        match h.bad (some (o.kstep, n, fwPA w)) with
        | some _ => .error { capFlt .sparseMalformed o.capA o.cregA with offset := 0xFFFFFFFF }
        | none =>
          padRange o.capA o.cregA .load o.baseA h.size
          let o := { o with hdr := some bytes }
          if fwStrm w then s.streamCheck o.capB o.cregB else s.imageCheck o.capB o.cregB o.imgB (n * o.kstep)
          .ok (.op o)
    else
      s.imageCheck o.capA o.cregA o.imgA (n * o.kstep)
      if fwStrm w then s.streamCheck o.capB o.cregB else s.imageCheck o.capB o.cregB o.imgB (n * o.kstep)
      .ok (.op o)

/-- MODE.KRESUME replaced. -/
def Gang.setKresume (g : Gang) (k : Nat) : Gang :=
  { g with regs := { g.regs with mode := (g.regs.mode &&& ~~~ (0x3E0000 : Word)) ||| BitVec.ofNat 32 (k % 32 * 2 ^ 17) } }

/-- Body of MMA and MMA.S (10 R342, R343). DESIGN CHOICE (log 82): the open transaction and the poisoned tile are tested before the vote, so
that they fault an MMA with no active lane too. -/
def mmaBody (sparse : Bool) (t : TileNo) (n1 : BitVec 5) (f : VReg) (ca cb : CReg) (s : State) (g : Gang) : Res :=
  if g.inTx ∨ g.wideE then .fault (flt .illegal)
  else
    s.poisonGate g t (fun _ =>
      match s.planMma g sparse t (n1.toNat + 1) f ca cb with
      | .error e => .fault e
      | .ok .idle => .done s
      | .ok .header => .wait s .header
      | .ok (.op o) =>
        if 8 ≤ (s.ctx s.cur.core).q10 s.cur.slot then .wait s .tileSpace
        else
          let g := { g.setKresume 0 with cnt := { g.cnt with opNum := g.cnt.opNum + 1 } }
          let (s, seq) := (s.setMe g).acceptOp o (o.reads s.cur.core)
          if sparse then .wait s (.indexPass seq)
          else if fwStrm o.fmt then .wait (s.touch s.cur.core o.capB) (.stream seq)
          else .done s)

/-- MMA (10 R340). -/
def execMma (t : TileNo) (n1 : BitVec 5) (f : VReg) (ca cb : CReg) (s : State) : Host.Outcome State Fault Refusal :=
  runFull .u [f.toNat, f.toNat + 1] false (mmaBody false t n1 f ca cb) s
/-- MMA.S (10 R340). -/
def execMmaS (t : TileNo) (n1 : BitVec 5) (f : VReg) (ca cb : CReg) (s : State) : Host.Outcome State Fault Refusal :=
  runFull .u [f.toNat, f.toNat + 1] false (mmaBody true t n1 f ca cb) s

/-- INDEX_PASS_COMPLETE (10 R343). -/
def State.passOp (s : State) (core : CoreId) (slot : SlotId) : Option TileOp :=
  match (s.gang? core slot).bind Gang.why? with
  | some (.indexPass n) =>
    match s.op? core n with
    | some o => if o.pass && o.granted (o.indexReads core) && !(s.core core).stopped then some o else none
    | none => none
  | _ => none

def indexPassReady (s : State) (core : CoreId) (slot : SlotId) : Bool := (s.passOp core slot).isSome

/-- The offset detail of the failing condition 9 or 10 of 04 R125. -/
def SpHdr.areaBad (h : SpHdr) (base : Nat) (rd : Reader) : Option (Nat × Nat) :=
  if h.sum base rd ≠ h.csum then some (9, 0xFFFFFFFF)
  else (h.badGroup base rd).map (fun x => (10, x))

def execIndexPassComplete (core : CoreId) (slot : SlotId) (s : State) : Host.Outcome State Fault Refusal :=
  .next (match s.passOp core slot with
    | some o =>
      if s.lostReads (o.indexReads core) then s.poisonOp core o else
      match o.sp?.bind (fun h => h.areaBad o.baseA (s.padReader core)) with
      | some e =>
        let s := s.modCtx core (fun x => { x with ops := x.ops.filter (fun p => p.seq != o.seq) })
        let s := s.modGang core slot (fun g => { g.setKresume o.k0 with cnt := { g.cnt with opNum := g.cnt.opNum - 1 } })
        s.asGang core slot (fun s => s.settle (.fault
          { capFlt .sparseMalformed o.capA o.cregA with offset := BitVec.ofNat 64 e.2 }))
      | none =>
        let s := s.modOp core o.seq (fun o => { o with pass := false })
        if fwStrm o.fmt then
          s.modGang core slot (fun g => { g with status := match g.status with
            | .waiting w => .waiting { w with why := .stream o.seq }
            | x => x })
        else s.asGang core slot (fun s => s.retire none)
    | none => s)

/-- A tile transfer: its checks, then Q10 (10 R338). -/
def xferBody (kind : TileKind) (t : TileNo) (c : Option CReg) (b : Option SReg) (check : TileOp → Except Flt Unit)
    (reads : TileOp → List (CoreId × Nat × Bool)) (s : State) (g : Gang) : Res :=
  if g.inTx then .fault (flt .illegal)
  else
    s.poisonGate g t (fun _ =>
      let v : DWord := (b.map g.s).getD 0
      let o : TileOp :=
        { seq := 0, slot := s.cur.slot, kind := kind, tile := t, desc := [v.truncate 32, (v >>> 32).truncate 32]
          capA := (c.map g.c).getD Cap.null, capB := Cap.null, cregA := (c.map BitVec.toNat).getD 0, pc := g.regs.pc, lt := g.cnt.lt
          rnd := g.fpCfg.rnd, ftz := g.fpCfg.ftz }
      if s.ownsTile t = false then .fault (flt .illegal)
      else
        match check o with
        | .error e => .fault e
        | .ok _ =>
          if 8 ≤ (s.ctx s.cur.core).q10 s.cur.slot then .wait s .tileSpace
          else
            let (s, seq) := s.acceptOp o (reads o)
            if kind = .mdrain ∨ kind = .mdrainQ then .wait s (.drain seq) else .done s)

/-- Body of MZERO. -/
def mzeroBody (t : TileNo) : State → Gang → Res := xferBody .mzero t none none (fun _ => .ok ()) (fun _ => [])

/-- MZERO (10 R345). -/
def execMzero (t : TileNo) (s : State) : Host.Outcome State Fault Refusal := runFull .u [] false (mzeroBody t) s

/-- Body of MLOAD: the offset of S[B] is to be a multiple of 128, wherever ORIGIN lies. -/
def mloadBody (t : TileNo) (c : CReg) (b : SReg) (s : State) (g : Gang) : Res :=
  xferBody .mload t (some c) (some b)
    (fun o => do
      require (decide (o.d 1 < 2)) (flt .illegal)
      s.localCap o.capA o.cregA (pM + pR)
      padRange o.capA o.cregA .load o.xferAt 2048
      require (o.d 0 % 128 == 0) (offFlt (capFlt .misaligned o.capA o.cregA) o.xferAt))
    (fun o => (granulesOf o.xferAt 2048).map (fun x => (s.cur.core, x, o.d 1 == 1))) s g

/-- MLOAD (10 R345). -/
def execMload (t : TileNo) (c : CReg) (b : SReg) (s : State) : Host.Outcome State Fault Refusal :=
  runFull .u [] false (mloadBody t c b) s

/-- The fields of S[b] of a drain are legal (10 R346). -/
def TileOp.drainLegal (o : TileOp) : Bool :=
  let ty := o.drainTy
  o.d 1 / 2 ^ 13 == 0 && (ty == 6 || ty == 8 || (decide (16 ≤ ty) && decide (ty ≤ 30))) &&
    (decide (16 ≤ ty) || o.drainH == 0) && (o.kind == .mdrainQ || o.d 0 % 128 == 0)

/-- The written extent of a drain: first byte and bytes, from the first byte that drainPuts writes to the last (log 47). -/
def TileOp.drainExtent (o : TileOp) : Nat × Nat :=
  let p := o.drainTy - 14
  if o.drainTy = 6 then (o.xferAt, 2048)
  else if o.drainTy = 8 then (o.xferAt, 1024)
  else (o.xferAt + 4 * o.drainH, 15 * roundUpTo (p * 128 + 32) 128 + p * 128 + o.drainH + 1 - 4 * o.drainH)

/-- Body of MDRAIN. -/
def mdrainBody (t : TileNo) (c : CReg) (b : SReg) (s : State) (g : Gang) : Res :=
  xferBody .mdrain t (some c) (some b)
    (fun o => do
      require o.drainLegal (flt .illegal)
      s.localCap o.capA o.cregA pW
      padRange o.capA o.cregA .other o.drainExtent.1 o.drainExtent.2) (fun _ => []) s g

/-- MDRAIN (10 R346, R347). -/
def execMdrain (t : TileNo) (c : CReg) (b : SReg) (s : State) : Host.Outcome State Fault Refusal :=
  runFull .u [] false (mdrainBody t c b) s

/-- Body of MDRAIN.Q. -/
def mdrainQBody (t : TileNo) (b : SReg) : State → Gang → Res :=
  xferBody .mdrainQ t none (some b) (fun o => require o.drainLegal (flt .illegal)) (fun _ => [])

/-- MDRAIN.Q (10 R346, R349). -/
def execMdrainQ (t : TileNo) (b : SReg) (s : State) : Host.Outcome State Fault Refusal := runFull .u [] false (mdrainQBody t b) s

/-! Reading completions (06 R200). -/

/-- How many commands of a class a gang is told are incomplete, or none while the read must stall: commands given as the LTs of
the incomplete ones, and the completed ones that 06 R200 still hides. -/
def Gang.pendCount (det : Bool) (dl : Nat) (now : Nat) (open_ : List Nat) (past : List Nat) : Option Nat :=
  if det = false then some open_.length
  else if open_.any (fun t => decide (t + dl ≤ now)) then none
  else some (open_.length + (past.filter (fun t => decide (now < t + dl))).length)

/-- The pair operations of other cores on the follower's tile t of a core (04 R119). -/
def State.lentTile (s : State) (core : CoreId) (t : TileNo) : List (TileOp × Bool) :=
  (s.lentOps core).filter (fun x => x.1.tiles.contains t)

/-- The status word of 04 R132. -/
def State.mstatWord (s : State) (g : Gang) (t : TileNo) : Option Nat :=
  let x := s.ctx s.cur.core
  let k := s.cur.slot
  let ti := x.tile t
  let mine := x.ops.filter (fun o => o.slot == k && o.live && o.tiles.contains t)
  let det := (s.part s.cur.core).det
  let lent := s.lentTile s.cur.core t
  let past (c : EngineClass) := (g.past.filter (fun p => p.cls == c && p.tiles.getLsbD t.toNat)).map Past.lt
  let told (open_ : List TileOp) (c : EngineClass) := Gang.pendCount det (s.part s.cur.core).dlM g.cnt.lt (open_.map TileOp.lt) (past c)
  let b (y : Bool) (n : Nat) : Nat := if y then 2 ^ n else 0
  match told mine .matrix, told (lent.map Prod.fst) .lent with
  | some pend, some others =>
    let busy := if det then pend + others != 0 else mine.any (fun o => x.running == some o.seq) || lent.any Prod.snd
    let held := x.ops.any (fun o => o.slot == k && o.held && o.tiles.contains t)
    some (ti.kdone * 2 ^ 19 + min pend 15 * 2 ^ 15 + b held 14 + b ti.poison 13 + b ti.redun 12 + b busy 11 + b true 10 +
      b ti.nx 2 + b ti.ov 1 + b ti.nv 0)
  | _, _ => none

/-- Body of MSTAT. -/
def mstatBody (t : TileNo) (a : SReg) (s : State) (g : Gang) : Res :=
  s.poisonGate g t (fun _ =>
    if s.ownsTile t = false then .done (s.setMe (g.setS a 0))
    else
      match s.mstatWord g t with
      | some w => .done (s.setMe (g.setS a (BitVec.ofNat 64 w)))
      | none => .wait s .hazard)

/-- MSTAT (10 R350). -/
def execMstat (t : TileNo) (a : SReg) (s : State) : Host.Outcome State Fault Refusal := runFull .u [] false (mstatBody t a) s

/-- Body of MWAIT. -/
def mwaitBody (t : TileNo) (s : State) (g : Gang) : Res :=
  s.poisonGate g t (fun _ =>
    if (s.ctx s.cur.core).tileDone s.cur.slot t then .done s else .wait s (.mwait t.toNat))

/-- MWAIT (10 R351). -/
def execMwait (t : TileNo) (s : State) : Host.Outcome State Fault Refusal := runFull .u [] false (mwaitBody t) s

/-! SPHDR (10 R356). -/

/-- The header of C[b], checked: its place, or a fault. -/
def State.headerAt (s : State) (c : Cap) (creg : Nat) : Except Flt Nat := do
  s.localCap c creg pR
  padAlign c creg c.origin
  padRange c creg .load c.origin 16
  .ok c.origin

/-- Body of SPHDR and SPHDR.CHK: reads as those of a .fk load, which wait for the core's older accesses to the bytes (05 R143). -/
def sphdrBody (check : Bool) (a : SReg) (c : CReg) (s : State) (g : Gang) : Res :=
  let core := s.cur.core
  let cap := g.c c
  let give (s : State) (x : Nat) : Res := .done ((s.setMe (g.setS a (BitVec.ofNat 64 x))).acquire core (modeScope g.regs.mode))
  if g.inTx then .fault (flt .illegal)
  else
    match s.headerAt cap c.toNat with
    | .error e => .fault e
    | .ok base =>
      if s.isFull core (base / 16) = false then .wait s .header
      else if (s.ctx core).busy (.pad core base) 16 then .wait s .hazard
      else if s.lostAt (.pad core base) 16 then .fault (capFlt .dataError cap c.toNat)
      else
        let b := s.homeRead (.pad core base) 16
        if check = false then give s (ofBytes (b.take 8))
        else
          let h := SpHdr.parse b
          match h.bad none with
          | some n => give s (n + 2 ^ 32 * 0xFFFFFFFF)
          | none =>
            match padRange cap c.toNat .load base h.size with
            | .error e => .fault e
            | .ok _ =>
              if (granulesOf (base + h.ia) (32 * h.fi)).all (s.isFull core) = false then .wait s .header
              else if (s.ctx core).busy (.pad core (base + h.ia)) (32 * h.fi) then .wait s .hazard
              else if s.lostAt (.pad core (base + h.ia)) (32 * h.fi) then .fault (capFlt .dataError cap c.toNat)
              else
                match h.areaBad base (s.padReader core) with
                | some e => give s (e.1 + 2 ^ 32 * e.2)
                | none => give s (2 ^ 32 * 0xFFFFFFFF)

/-- SPHDR (10 R356). -/
def execSphdr (a : SReg) (c : CReg) (s : State) : Host.Outcome State Fault Refusal := runFull .u [] false (sphdrBody false a c) s
/-- SPHDR.CHK (10 R356). -/
def execSphdrChk (a : SReg) (c : CReg) (s : State) : Host.Outcome State Fault Refusal := runFull .u [] false (sphdrBody true a c) s

end Sys2Proof.Machine
end

