-- ==== Sys2Proof/Machine/Queues.lean ====
section
/-! DEFINITION. Queue registers and the select unit (06 R179; 09 R333 to R337, 14 R450). -/

namespace Sys2Proof.Machine

/-- Architectural depths (06 R179). -/
def queueDepth (q : Nat) : Nat := [8, 8, 8, 8, 8, 8, 8, 8, 16, 32, 8, 8, 32, 8, 4, 4].getD q 0

/-- The slot in which a pair's window stands: its compute gang's (06 R178). -/
def Gang.windowSlot (g : Gang) (k : SlotId) : SlotId := if g.shadow then g.partner.getD k else k

/-- Contents of a queue 0 to 15 of a gang as a list of entries. -/
def State.queueOf (s : State) (core : CoreId) (k : SlotId) (g : Gang) (n : Fin 16) : List (Lanes Word) :=
  if n.val < 8 then ((s.gang? core (g.windowSlot k)).map (fun h => h.q[n])).getD [] else g.q[n]

def State.setQueue (s : State) (core : CoreId) (k : SlotId) (g : Gang) (n : Fin 16) (l : List (Lanes Word)) : State :=
  s.modGang core (if n.val < 8 then g.windowSlot k else k) (fun h => { h with q := h.q.set n.val l })

/-! The select unit. -/

def selStart (p : DWord) : Bool := p.getLsbD 10
def selFin (p : DWord) : Bool := p.getLsbD 11
def selCol (p : DWord) : Bool := p.getLsbD 9
def selKey (p : DWord) : Nat := bits p 8 7
def selSmall (p : DWord) : Bool := p.getLsbD 6
def selVals (p : DWord) : Bool := p.getLsbD 12
def selK (p : DWord) : Nat := bits p 5 0 + 1
def selBase (p : DWord) : Nat := bits p 63 32

/-- A selection is open to further inputs: the last input pushed, or else the unit's, has no FIN. -/
def Gang.selOpen (g : Gang) : Bool :=
  match g.selIn.getLast? with
  | some i => !selFin i.param
  | none =>
    match g.sel with
    | some x => !x.fin
    | none => false

/-- Results remain to be read. -/
def Gang.selUnread (g : Gang) : Bool :=
  g.q[13] != [] || (match g.sel with | some x => x.out != [] | none => false)

/-- Body of SELK. -/
def selkBody (v : VReg) (t : SReg) (s : State) (g : Gang) : Res :=
  let p := g.s t
  if g.inTx ∨ g.wideE then .fault (flt .illegal)
  else if bits p 31 13 ≠ 0 ∨ selKey p = 3 ∨ (selStart p = false ∧ g.selOpen = false) ∨ (selStart p ∧ g.selUnread) then .fault (flt .illegal)
  else if 32 ≤ g.selIn.length then .wait s (.queue 12)
  else .done (s.setMe { g with selIn := g.selIn ++ [{ vals := g.v v, mask := g.active, param := p, ftz := g.fpCfg.ftz, lt := g.cnt.lt }] })

/-- SELK (09 R333). -/
def execSelk (v : VReg) (t : SReg) (s : State) : Host.Outcome State Fault Refusal := runFull .u [v.toNat] false (selkBody v t) s

/-- Order of an element's key: whether it is a NaN, and its rank, greater first (09 R334; 03 R89, log 92). -/
def SelElem.rank (key : Nat) (small : Bool) (x : SelElem) : Bool × Int :=
  let r : Bool × Int :=
    match key with
    | 0 =>
      let mag : Nat := x.val.toNat % 2 ^ 31
      let mag := if x.ftz && decide (mag < 0x00800000) then 0 else mag
      if 0x7F800000 < mag then (true, 0) else (false, if x.val.getLsbD 31 then -(mag : Int) else (mag : Int))
    | 1 => (false, x.val.toInt)
    | _ => (false, (x.val.toNat : Int))
  (r.1, if small then -r.2 else r.2)

/-- a ranks before b. -/
def ranksBefore (key : Nat) (small : Bool) (a b : SelElem) : Bool :=
  let x := a.rank key small
  let y := b.rank key small
  if x.1 != y.1 then !x.1
  else decide (y.2 < x.2) || (x.2 == y.2 && decide (a.idx < b.idx))

/-- Insert into a list in rank order. -/
def rankInsert (key : Nat) (small : Bool) (a : SelElem) : List SelElem → List SelElem
  | [] => [a]
  | b :: bs => if ranksBefore key small a b then a :: b :: bs else b :: rankInsert key small a bs

/-- The elements of a column in rank order, the best k. -/
def Sel.top (x : Sel) (col : Nat) : List SelElem :=
  ((x.elems.filter (fun e => e.col == col)).foldl
    (fun acc e => rankInsert (selKey x.param) (selSmall x.param) e acc) []).take (selK x.param)

/-- Index and value of a rank, with those of a rank that has no element (09 R335, 14 R450). -/
def Sel.index (x : Sel) (l : List SelElem) (r : Nat) : Word :=
  match l[r]? with
  | some e => BitVec.ofNat 32 (e.idx + selBase x.param)
  | none => 0xFFFFFFFF
def Sel.value (l : List SelElem) (r : Nat) : Word := (l[r]?.map SelElem.val).getD 0

/-- The result entries (09 R335). -/
def Sel.entries (x : Sel) : List (Lanes Word) :=
  let k := selK x.param
  let tops : List (List SelElem) := if selCol x.param then (List.range 32).map x.top else [x.top 0]
  let row (f : List SelElem → Nat → Word) : List (Lanes Word) :=
    (List.range ((k + 31) / 32)).map (fun e => Lanes.of (fun j => f (tops.getD 0 []) (32 * e + j.val)))
  let col (f : List SelElem → Nat → Word) : List (Lanes Word) :=
    (List.range k).map (fun r => Lanes.of (fun i => f (tops.getD i.val []) r))
  let make := if selCol x.param then col else row
  make x.index ++ (if selVals x.param then make Sel.value else [])

/-- One input enters the selection (09 R334). -/
def Sel.enter (x : Sel) (i : SelIn) : Sel :=
  let es := (Mask.lanes i.mask).map (fun l =>
    let (col, idx) := if selCol x.param then (l.val, x.next) else (0, 32 * x.next + l.val)
    ⟨col, idx, i.vals[l], i.ftz⟩)
  { x with next := x.next + 1, elems := x.elems ++ es }

/-- Move result entries into Q13 as space allows. -/
def Gang.fillQ13 (g : Gang) : Gang :=
  match g.sel with
  | some x =>
    let n := 8 - g.q[13].length
    let rest := x.out.drop n
    { g with
      q := g.q.set 13 (g.q[13] ++ x.out.take n)
      sel := if x.fin ∧ rest = [] then none else some { x with out := rest } }
  | none => g

/-- The unit takes its oldest input. -/
def Gang.consume (g : Gang) : Gang :=
  match g.selIn with
  | i :: rest =>
    let x : Option Sel := if selStart i.param then some { param := i.param } else g.sel
    match x with
    | some x =>
      let x := x.enter i
      let x := if selFin i.param then { x with fin := true, out := x.entries, elems := [] } else x
      ({ g with selIn := rest, sel := some x } : Gang).fillQ13
    | none => { g with selIn := rest }
  | [] => g

/-- Result entries of the unit, in Q13 and behind it. -/
def Gang.selOut (g : Gang) : Nat := g.q[13].length + ((g.sel.map Sel.out).getD []).length

/-- The oldest completed command of a class with an entry left has one entry less: results leave in the order of completion. -/
def takeOut (c : EngineClass) : List Past → List Past
  | [] => []
  | p :: t => if p.cls = c ∧ 0 < p.out then { p with out := p.out - 1 } :: t else p :: takeOut c t
def Gang.takeOut (g : Gang) (c : EngineClass) : Gang := { g with past := Sys2Proof.Machine.takeOut c g.past }

/-- SELECT_INPUT_CONSUME (09 R334): a new selection waits until the results of the last have left the unit. -/
def selectReady (s : State) (core : CoreId) (slot : SlotId) : Bool :=
  match s.gang? core slot with
  | some g =>
    !(s.core core).stopped &&
    (match g.selIn with
     | i :: _ => !selStart i.param || (match g.sel with | some x => x.out == [] | none => true)
     | [] => false)
  | none => false

def execSelectInputConsume (core : CoreId) (slot : SlotId) (s : State) : Host.Outcome State Fault Refusal :=
  .next (if selectReady s core slot then
      let det := (s.part core).det
      (s.modGang core slot (fun g => g.consume.report det
        { cls := .select, lt := (g.selIn.head?.map SelIn.lt).getD 0, out := g.consume.selOut - g.selOut })).wakeHazard core
    else s)

/-- Pop an entry into the active lanes of V[d]. -/
def Gang.popInto (g : Gang) (d : VReg) (e : Lanes Word) : Gang := g.setV d (fun i => e[i])

/-- Body of SELRES (09 R335). -/
def selresBody (d : VReg) (s : State) (g : Gang) : Res :=
  if g.wideE then .fault (flt .illegal)
  else
    match g.q[13] with
    | e :: es => .done (s.setMe ((({ g with q := g.q.set 13 es } : Gang).takeOut .select).fillQ13.popInto d e))
    | [] => if g.sel = none ∧ g.selIn = [] then .fault (flt .illegal) else .wait s (.queue 13)

/-- SELRES (09 R335). -/
def execSelres (d : VReg) (s : State) : Host.Outcome State Fault Refusal := runFull .u [d.toNat] false (selresBody d) s

/-! Queue instructions. -/

/-- Q0 to Q7, which only a gang with a shadow may name: step 4 of 07 R211. -/
def windowQueue (q : QReg) : Bool := decide (q.toNat < 8)

/-- Body of QPUSH. -/
def qpushBody (q : QReg) (a : VReg) (s : State) (g : Gang) : Res :=
  let core := s.cur.core
  if g.wideE ∨ 8 ≤ q.toNat ∨ g.partner = none then .fault (flt .illegal)
  else
    let l := s.queueOf core s.cur.slot g q.toFin
    if 8 ≤ l.length then .wait s (.queue q.toNat) else .done (s.setQueue core s.cur.slot g q.toFin (l ++ [g.v a]))

/-- QPUSH (09 R336). -/
def execQpush (q : QReg) (a : VReg) (s : State) : Host.Outcome State Fault Refusal := runFull .u [a.toNat] (windowQueue q) (qpushBody q a) s

/-- Tokens that waited enter Q9. -/
def Gang.fillQ9 (g : Gang) : Gang :=
  let n := 32 - g.q[9].length
  { g with q := g.q.set 9 (g.q[9] ++ (g.tokens.take n).map Lanes.all), tokens := g.tokens.drop n }

/-- A completed wait on the inbox restarts a persistent gang's interval (06 R204). -/
def Gang.progress (g : Gang) : Gang := if g.hdr.persist then { g with cnt := { g.cnt with dog := 0 } } else g

/-- Gangs of a core in line for its inbox (06 R183). -/
def Why.inboxLine (w : Why) : Bool := w == .inbox || w == .q14

/-- The gang may take from the inbox now: a record is there and no other gang of the core waits for it. -/
def State.inboxTurn (s : State) (core : CoreId) (k : SlotId) : Bool :=
  (s.ctx core).inbox != [] &&
    (s.ctx core).gangs.all (fun kg => kg.1 == k || (match kg.2.why? with | some w => !w.inboxLine | none => true))

/-- Records an inbox holds before it is full (06 R182). -/
def inboxDepth : Nat := 64

def isSendTo (c : CoreId) (w : Why) : Bool := w == .send c

/-- Gangs that wait to send to a core. -/
def State.senders (s : State) (c : CoreId) : List (CoreId × SlotId × Gang) :=
  s.waiters (s.coresOf (s.part c)) (isSendTo c)

/-- In a deterministic partition the gang that an ordered event of LT t releases moves its LT on (06 R199). -/
def State.releaseLt (s : State) (core : CoreId) (x : Option (CoreId × SlotId × Gang)) (t : Nat) : State :=
  match x with
  | some (c, k, _) => if (s.part core).det then s.modGang c k (fun g => g.releasedAt t) else s
  | none => s

/-- Records leave an inbox at an event of LT lt; in a deterministic partition the senders for which that makes room move their LT on
(06 R199). -/
def State.takeInbox (s : State) (core : CoreId) (rest : List Rec) (lt : Nat) : State :=
  let before := inboxDepth - (s.ctx core).inbox.length
  let let_ := ((s.senders core).take (inboxDepth - rest.length)).drop before
  let s := let_.foldl (fun (s : State) x => s.releaseLt core (some x) lt) s
  s.modCtx core (fun x => { x with inbox := rest })

/-- A record as an entry of Q14. -/
def recEntry (r : Rec) : Lanes Word := Lanes.of (fun i => if i.val < 16 then r.getD i.val 0 else 0)

/-- Body of a pop of Q14; turn: the gang's place in the line has come (06 R183). -/
def popQ14 (turn : Bool) (d : VReg) (s : State) (g : Gang) : Res :=
  let core := s.cur.core
  match g.q[14] with
  | e :: es => .done (s.setMe (({ g with q := g.q.set 14 es } : Gang).popInto d e).progress)
  | [] =>
    s.ordGate g (fun _ =>
      if (turn && (s.ctx core).inbox != []) || s.inboxTurn core s.cur.slot then
        let x := s.ctx core
        let take_ := (x.inbox.take 4).map recEntry
        let s := s.takeInbox core (x.inbox.drop 4) g.cnt.lt
        match take_ with
        | e :: es => .done (s.setMe (({ g with q := g.q.set 14 es } : Gang).popInto d e).progress)
        | [] => .wait s .q14
      else .wait s .q14)

/-- Body of QPOP. -/
def qpopBody (d : VReg) (q : QReg) (s : State) (g : Gang) : Res :=
  let core := s.cur.core
  let n := q.toNat
  if g.wideE ∨ ¬ (n < 8 ∨ n = 9 ∨ n = 11 ∨ n = 13 ∨ n = 14) ∨ (n < 8 ∧ g.partner = none) then .fault (flt .illegal)
  else if n = 14 then popQ14 false d s g
  else
    match s.queueOf core s.cur.slot g q.toFin with
    | [] => .wait s (.queue n)
    | e :: es =>
      let s := s.setQueue core s.cur.slot g q.toFin es
      let s := s.modGang core s.cur.slot (fun g =>
        let g := g.popInto d e
        if n = 9 then (if bits (e[0]) 31 28 = 14 then g else g.takeOut .copy).fillQ9
        else if n = 13 then (g.takeOut .select).fillQ13
        else if n = 11 then g.takeOut .matrix
        else g)
      .done (if n = 9 ∧ bits (e[0]) 31 28 = 1 then s.acquire core (modeScope g.regs.mode) else s)

/-- QPOP (09 R336). -/
def execQpop (d : VReg) (q : QReg) (s : State) : Host.Outcome State Fault Refusal := runFull .u [d.toNat] (windowQueue q) (qpopBody d q) s

/-- Ring requests of a gang at any controller. -/
def State.ringReqsOf (s : State) (core : CoreId) (k : SlotId) : Nat :=
  s.cores.foldl (fun n kv => n + (kv.2.ctx.ringReqs.filter (fun r => r.core == core && r.slot == k)).length) 0

/-- Entries a queue holds (09 R337). -/
def State.queueCount (s : State) (core : CoreId) (k : SlotId) (g : Gang) (n : Fin 16) : Nat :=
  let x := s.ctx core
  match n.val with
  | 8 => (x.copies.filter (fun y => y.2.slot == k && !y.2.begun)).length
  | 10 => x.q10 k
  | 12 => g.selIn.length
  | 15 => s.ringReqsOf core k
  | _ => (s.queueOf core k g n).length

/-- The class of commands whose completion a queue shows: Q8 and Q9, Q10 and Q11, Q12 and Q13 (06 R179, R200). -/
def queueClass (n : Nat) : Option EngineClass :=
  match n with
  | 8 | 9 => some .copy
  | 10 | 11 => some .matrix
  | 12 | 13 => some .select
  | _ => none

/-- The delay DL of a class (06 R200). -/
def Part.dl (p : Part) : EngineClass → Nat
  | .copy => p.dlC
  | .matrix | .lent => p.dlM
  | .select => p.dlS

/-- LTs of a gang's incomplete commands of a class. -/
def State.openLts (s : State) (core : CoreId) (k : SlotId) (g : Gang) (c : EngineClass) : List Nat :=
  let x := s.ctx core
  match c with
  | .copy => (x.copies.filter (fun y => y.2.slot == k)).map (fun y => y.2.lt)
  | .matrix => (x.ops.filter (fun o => o.slot == k && o.live)).map TileOp.lt
  | .select => g.selIn.map SelIn.lt
  | .lent => []

/-- Results that the engines have for a gang, in the queue or waiting to enter it. -/
def Gang.resultsOf (g : Gang) : EngineClass → Nat
  | .copy => g.q[9].length + g.tokens.length
  | .matrix => g.q[11].length + g.drainOut.length
  | .select => g.selOut
  | .lent => 0

/-- Commands of a class that the gang is told are incomplete, or none while the read must stall (06 R200). -/
def State.pending (s : State) (core : CoreId) (k : SlotId) (g : Gang) (c : EngineClass) : Option Nat :=
  let p := s.part core
  Gang.pendCount p.det (p.dl c) g.cnt.lt (s.openLts core k g c) ((g.past.filter (fun y => y.cls == c)).map Past.lt)

/-- Results of a class that 06 R200 still hides. -/
def Gang.hidden (g : Gang) (dl : Nat) (c : EngineClass) : Nat :=
  (g.past.filter (fun y => y.cls == c && decide (g.cnt.lt < y.lt + dl))).foldl (fun n y => n + y.out) 0

/-- PEND and the entries that a read tells of, or none while it must stall (09 R337). In a deterministic partition a command queue holds
what the gang is told is incomplete, and a result queue the results of what it is told is complete (06 R200, log 84). -/
def State.queueTold (s : State) (core : CoreId) (k : SlotId) (g : Gang) (n : Fin 16) : Option (Nat × Nat) :=
  let p := s.part core
  match queueClass n.val with
  | none => some (0, s.queueCount core k g n)
  | some c =>
    (s.pending core k g c).map (fun m =>
      let input := n.val % 2 == 0
      (if input then m else 0,
        if p.det = false then s.queueCount core k g n
        else min (queueDepth n.val) (if input then m else g.resultsOf c - g.hidden (p.dl c) c)))

/-- Body of QSTAT. -/
def qstatBody (d : SReg) (q : QReg) (s : State) (g : Gang) : Res :=
  let core := s.cur.core
  let n := q.toNat
  if n < 8 ∧ g.partner = none then .fault (flt .illegal)
  else
    match s.queueTold core s.cur.slot g q.toFin with
    | none => .wait s .hazard
    | some (pend, cnt) =>
      let stopd := if n = 8 then (s.copiesOf core s.cur.slot (fun y => y.stop.isSome)).length else 0
      let w := min cnt 63 + queueDepth n * 2 ^ 6 + (if cnt = 0 then 2 ^ 12 else 0) + (if queueDepth n ≤ cnt then 2 ^ 13 else 0) +
        stopd * 2 ^ 16 + pend * 2 ^ 32
      .done (s.setMe (g.setS d (BitVec.ofNat 64 w)))

/-- QSTAT (09 R337). -/
def execQstat (d : SReg) (q : QReg) (s : State) : Host.Outcome State Fault Refusal := runFull .u [] (windowQueue q) (qstatBody d q) s

end Sys2Proof.Machine
end

