-- ==== Sys2Proof/Machine/Records.lean ====
section
/-! DEFINITION. Records: SEND, WAITMSG, rings (06 R180 to R191; 10 R357 to R363). Bins and launches are in Launches. -/

namespace Sys2Proof.Machine

/-! The record (06 R180). -/

/-- Bytes 8 to 15: SENDER, SLOT, HOST, PRIO, KIND, TS. -/
def recInfo (sender slot : Nat) (host : Bool) (prio kind ts : Nat) : Nat :=
  sender + slot * 2 ^ 12 + (if host then 2 ^ 15 else 0) + prio * 2 ^ 16 + kind * 2 ^ 21 + ts % 2 ^ 40 * 2 ^ 24

/-- A record with the fields that the hardware writes (06 R180): SENDER is the origin id (11 R406). -/
def stampRec (r : Rec) (sender slot : Nat) (host : Bool) (kind ts : Nat) : Rec :=
  let i := recInfo sender slot host (recPrio r) kind ts
  (r.take 2) ++ [BitVec.ofNat 32 i, BitVec.ofNat 32 (i / 2 ^ 32)] ++ (r.drop 4)

/-- A record with TS as of its posting (06 R180). -/
def restamp (r : Rec) (ts : Nat) : Rec :=
  let i := (r.getD 2 0).toNat % 2 ^ 24 + ts % 2 ^ 40 * 2 ^ 24
  (r.take 2) ++ [BitVec.ofNat 32 i, BitVec.ofNat 32 (i / 2 ^ 32)] ++ (r.drop 4)

/-- The record of lanes 0 to 15 of a V register (10 R357). -/
def Gang.recOf (g : Gang) (v : VReg) : Rec := (g.v v).toList.take 16

/-- ENTRY of a record. -/
def recEntryAddr (r : Rec) : DWord := BitVec.ofNat 64 ((r.getD 0 0).toNat + 2 ^ 32 * (r.getD 1 0).toNat)
/-- Doubleword k of a record. -/
def recDword (r : Rec) (k : Nat) : DWord := BitVec.ofNat 64 ((r.getD (2 * k) 0).toNat + 2 ^ 32 * (r.getD (2 * k + 1) 0).toNat)
def recBytes (r : Rec) : List Byte := r.flatMap (fun w => toBytes 4 w.toNat)
def recParse (b : List Byte) : Rec := (List.range 16).map (fun k => BitVec.ofNat 32 (field b (4 * k) 4))

/-- A site that a message of this core cannot name: outside the partition, dark, or with no circuit to it (01 R15, 12 R435). -/
def State.siteFault (s : State) (core c : CoreId) : Option Flt :=
  if s.samePart core c = false ∨ s.unreached core c then some { flt .notMapped with offset := c.zeroExtend 64 } else none

/-! Inbox (06 R182, R183). -/

/-- A record enters an inbox (06 R182). -/
def State.postInbox (s : State) (c : CoreId) (r : Rec) (lt : Nat) : State :=
  let n := (s.ctx c).inbox.length
  let s := s.releaseLt c ((s.waiters [c] Why.inboxLine)[n]?) lt
  s.modCtx c (fun x => { x with inbox := inboxInsert false r x.inbox })

/-- Body of SEND; turn: the sender's place in the line has come. -/
def sendBody (turn : Bool) (v : VReg) (t : SReg) (s : State) (g : Gang) : Res :=
  let core := s.cur.core
  let site : CoreId := BitVec.ofNat 12 (bits (g.s t) 11 0)
  if g.inTx ∨ g.wideE ∨ bits (g.s t) 63 12 ≠ 0 then .fault (flt .illegal)
  else
    match s.siteFault core site with
    | some f => .fault f
    | none =>
      s.ordGate g (fun _ => s.relGate g 4 (fun s g =>
        let c := s.route site
        if inboxDepth ≤ (s.ctx c).inbox.length ∨ (turn = false ∧ s.senders c ≠ []) then .wait s (.send c)
        else
          let r := stampRec (g.recOf v) (s.origin core).toNat s.cur.slot.val false 0 (s.now core)
          .done (s.postInbox c r g.cnt.lt)))

/-- SEND (10 R359). -/
def execSend (v : VReg) (t : SReg) (s : State) : Host.Outcome State Fault Refusal :=
  runFull .u [v.toNat] false (sendBody false v t) s

/-- Waiting senders that no STOP halts, oldest first. -/
def State.sendLine (s : State) (core : CoreId) : List (CoreId × SlotId × Gang) :=
  (s.senders core).filter (fun x => s.unstopped x.1 x.2.2)

/-- Take the inbox's first record: S16 to S23, acquire, branch (06 R183, 10 R360). -/
def State.takeMsg (s : State) (g : Gang) : Res :=
  let core := s.cur.core
  match (s.ctx core).inbox with
  | r :: rest =>
    let g := (List.range 8).foldl (fun (g : Gang) k => g.setS (BitVec.ofNat 5 (16 + k)) (recDword r k)) g
    let s := (s.setMe g.progress).takeInbox core rest g.cnt.lt
    .jump (s.acquire core (modeScope g.regs.mode)) (recEntryAddr r)
  | [] => .wait s .inbox

/-- Body of WAITMSG. -/
def waitmsgBody (turn : Bool) (s : State) (g : Gang) : Res :=
  let core := s.cur.core
  if g.inTx then .fault (flt .illegal)
  else if s.subscriber then .done (s.setMe g.progress)
  else
    s.ordGate g (fun _ =>
      if (turn && (s.ctx core).inbox != []) || s.inboxTurn core s.cur.slot then s.takeMsg g else .wait s .inbox)

/-- WAITMSG (10 R360). -/
def execWaitmsg (s : State) : Host.Outcome State Fault Refusal := runFull .u [] false (waitmsgBody false) s

/-- The line for a core's inbox, but for gangs that a STOP halts (06 R183, 11 R403). -/
def State.takeLine (s : State) (core : CoreId) : List (CoreId × SlotId × Gang) :=
  (s.waiters [core] Why.inboxLine).filter (fun x => s.unstopped x.1 x.2.2)

/-! Rings (06 R187 to R191). -/

def Ring.slots (r : Ring) : Nat := 2 ^ r.logn
def Ring.ownCount (r : Ring) : Nat := (r.places.filter (fun p => match p with | .own _ => true | _ => false)).length
def Ring.lentCount (r : Ring) : Nat := (r.places.filter (fun p => match p with | .pool _ _ => true | _ => false)).length

/-- Fields of a handle (06 R187). -/
def handleCore (h : DWord) : CoreId := BitVec.ofNat 12 (bits h 11 0)
def handleNum (h : DWord) : Nat := bits h 17 12
def handleGen (h : DWord) : Nat := bits h 25 18

/-- Places of the 64 bytes of slot k of a ring's backing, in runs (10 R361). -/
def State.ringSlot (s : State) (core : CoreId) (store : Bool) (cap : Cap) (creg boff k : Nat) : Got (List (Loc × Nat)) :=
  if cap.space = 2 then
    collect (fun j => (s.flatByte core store cap creg ((cap.origin + boff + 8 * k + j : Nat) : Int) 0).map (fun l => (l, 8)))
      (List.range 8)
  else .ok [(.pad core (cap.origin + boff + 64 * k), 64)]

/-- The map entries of slot k of a ring's backing (02 R72). -/
def State.ringUses (s : State) (core : CoreId) (cap : Cap) (boff k : Nat) : List MapUse :=
  if cap.space = 2 then (List.range 8).flatMap (fun j => s.flatUse core cap ((cap.origin + boff + 8 * k + j : Nat) : Int)) else []

/-- Body of RINGMK (10 R361): a relocation of the backing holds it (02 R69 step 11, R74). DESIGN CHOICE (log 100): the range and the layout
of an OBJECT backing are checked before the places of its slots are translated, the shape among them. -/
def ringmkBody (cap : CReg) (d t : SReg) (s : State) (g : Gang) : Res :=
  let core := s.cur.core
  let p := g.s t
  let c := g.c cap
  let logn := bits p 3 0
  let lend := bits p 14 4
  let boff := bits p 63 32
  let n := 2 ^ logn
  if bits p 31 15 ≠ 0 ∨ logn = 0 ∨ 12 < logn ∨ 1024 < lend then .fault (flt .illegal)
  else
    let check : Except Flt (Option Nat) := do
      match ← s.sideReach core c cap.toNat [0, 2] 0 (pR + pW) with
      | .object r =>
        flatWithin c cap.toNat (c.origin + boff) (8 * n)
        require (r.layout == 0 && fmtBits r.fmt == 64) (capFlt .misaligned c cap.toNat)
        match collect (fun k => s.ringSlot core true c cap.toNat boff k) (List.range n) with
        | .ok ls =>
          require (match (ls.head?.bind List.head?).map Prod.fst with
            | some (.phys a) => a % 64 == 0
            | _ => true) (capFlt .misaligned c cap.toNat)
          return none
        | .error (.fault f) => .error f
        | .error (.moving id) => return some id
      | _ =>
        padRange c cap.toNat .other (c.origin + boff) (64 * n)
        require ((c.origin + boff) % 64 == 0) (offFlt (capFlt .misaligned c cap.toNat) (c.origin + boff : Nat))
        return none
    match check with
    | .error f => .fault f
    | .ok (some id) => .wait s (.moving id)
    | .ok none =>
      let x := s.ctx core
      let num := Tbl.fresh x.rings 0
      if 64 ≤ x.rings.length then .fault (flt .ringClosed)
      else
        let gen := (match Tbl.get? x.gens num with | some k => k + 1 | none => 1) % 256
        let s := s.modCtx core (fun x => { x with
          rings := Tbl.put x.rings num
            { state := .open_, gen := BitVec.ofNat 8 gen, cap := c, creg := cap.toNat, boff := boff, logn := logn, lend := lend }
          gens := Tbl.put x.gens num gen })
        .done (((s.setMe (g.setS d (BitVec.ofNat 64 (core.toNat + num * 2 ^ 12 + gen * 2 ^ 18)))).touch core c).cacheUses core
          ((List.range n).flatMap (s.ringUses core c boff)))

/-- RINGMK (10 R361). -/
def execRingmk (cap : CReg) (d : SReg) (t : SReg) (s : State) : Host.Outcome State Fault Refusal :=
  runFull .u [] false (ringmkBody cap d t) s

/-- The ring a handle names: its owner's site now, its number and itself; none for a FREE one (06 R188). -/
def State.ringOf (s : State) (h : DWord) : Option (CoreId × Nat × Ring) :=
  let c := s.route (handleCore h)
  match Tbl.get? (s.ctx c).rings (handleNum h) with
  | some r => if r.gen.toNat = handleGen h then some (c, handleNum h, r) else none
  | none => none

def State.setRing (s : State) (c : CoreId) (n : Nat) (r : Option Ring) : State :=
  s.modCtx c (fun x => { x with rings := match r with
    | some r => Tbl.put x.rings n r
    | none => Tbl.del x.rings n })

/-- A request leaves the controller. -/
def State.dropReq (s : State) (c : CoreId) (n : Nat) : State :=
  s.modCtx c (fun x => { x with ringReqs := x.ringReqs.filter (fun q => q.seq != n) })

/-- The controller holds a request back. -/
def State.blockReq (s : State) (c : CoreId) (n : Nat) : State :=
  s.modCtx c (fun x => { x with ringReqs := x.ringReqs.map (fun p => if p.seq = n then { p with blocked := true } else p) })

/-- The controller refuses a request: its gang faults at its instruction. -/
def State.refuseReq (s : State) (c : CoreId) (q : RingReq) (f : Flt) : State :=
  (s.dropReq c q.seq).asGang q.core q.slot (fun s => s.settle (.fault f))

/-- The requests that wait at a ring and satisfy a test are released with a fault, oldest first (06 R189, R191). -/
def State.releaseReqs (s : State) (c : CoreId) (h : DWord) (code : Code) (t : RingReq → Bool) : State :=
  ((s.ctx c).ringReqs.filter (fun q => (q.blocked || q.walk.isSome) && q.handle == h && t q)).foldl (fun (s : State) q => s.refuseReq c q (flt code)) s

/-- Body of RINGDES (06 R189): waiting pushers, and waiting poppers of an empty ring, are released; a ring with nothing left to pop is
free at once. -/
def ringdesBody (a : SReg) (s : State) (g : Gang) : Res :=
  let h := g.s a
  if bits h 63 26 ≠ 0 then .fault (flt .illegal)
  else
    match s.siteFault s.cur.core (handleCore h) with
    | some f => .fault f
    | none =>
      match s.ringOf h with
      | some (c, n, r) =>
        match r.state with
        | .open_ =>
          .done ((s.setRing c n (if r.places = [] then none else some { r with state := .draining })).releaseReqs c h .ringClosed
            (fun q => q.push.isSome || r.places == []))
        | .poisoned => .done (s.setRing c n none)
        | _ => .done s
      | none => .done s

/-- RINGDES (10 R363). -/
def execRingdes (a : SReg) (s : State) : Host.Outcome State Fault Refusal := runFull .u [] false (ringdesBody a) s

/-- Body of RPUSH and RPOP up to the ring controller (10 R362). -/
def ringBody (push : Bool) (v : VReg) (t : SReg) (s : State) (g : Gang) : Res :=
  let core := s.cur.core
  let h := g.s t
  if g.inTx ∨ g.wideE ∨ bits h 63 26 ≠ 0 then .fault (flt .illegal)
  else
    match s.siteFault core (handleCore h) with
    | some f => .fault f
    | none =>
      let send (s : State) (g : Gang) : Res :=
        let c := s.route (handleCore h)
        let r := stampRec (g.recOf v) (s.origin core).toNat s.cur.slot.val false 2 0
        let q : RingReq :=
          { seq := (s.ctx c).seq, since := s.clock, core := core, slot := s.cur.slot, handle := h
            push := if push then some r else none, dst := v, lt := g.cnt.lt }
        .wait (s.modCtx c (fun x => { x with ringReqs := x.ringReqs ++ [q], seq := x.seq + 1 })) .ring
      s.ordGate g (fun _ => if push then s.relGate g (modeScope g.regs.mode) send else send s g)

/-- RPUSH (10 R362). -/
def execRpush (v : VReg) (t : SReg) (s : State) : Host.Outcome State Fault Refusal :=
  runFull .u [v.toNat] false (ringBody true v t) s
/-- RPOP (10 R362). -/
def execRpop (v : VReg) (t : SReg) (s : State) : Host.Outcome State Fault Refusal :=
  runFull .u [v.toNat] false (ringBody false v t) s

/-- Mere pool slots in use by the rings of any context, saved ones among them (06 R190). -/
def State.poolUsed (s : State) (c : CoreId) (off : Nat) : Bool :=
  (s.contexts (s.part c)).any (fun x => x.2.rings.any (fun r => r.2.places.any (fun p => p == .pool c off)))

/-- The free pool slots of a core's cluster, the lowest first: slot k stands in the core at position k mod 16 (06 R190). -/
def State.poolFree (s : State) (core : CoreId) : List (CoreId × Nat) :=
  ((List.range 1024).map (fun k =>
    (siteInCluster (dieOf core).val (clusterOf core) (k % 16), 0x37000 + 64 * (k / 16)))).filter
    (fun p => !s.noCore p.1 && !s.poolUsed p.1 p.2)

/-- What the controller makes of a request. -/
inductive RingAct
  | fault (f : Flt)
  | block
  /-- the relocation of an object holds the backing (02 R74) -/
  | moving (id : Nat)
  | poison
  | push (p : RPlace) (ls : List (Loc × Nat))
  | pop (ls : List (Loc × Nat))

/-- Places of a record of a ring. -/
def State.placeLocs (s : State) (c : CoreId) (r : Ring) (store : Bool) (p : RPlace) : Got (List (Loc × Nat)) :=
  match p with
  | .own k => s.ringSlot c store r.cap r.creg r.boff k
  | .pool d o => .ok [(.pad (s.route d) o, 64)]

/-- A request stands in line: its gang is not halted by a STOP, in which it keeps its place but takes no turn (11 R403, log 78). -/
def State.reqRuns (s : State) (q : RingReq) : Bool := (s.gang? q.core q.slot).any (fun g => s.unstopped q.core g)

/-- A waiting push needs a pool slot: its ring's own slots are full, and the ring may take a lent one. -/
def State.poolWaits (s : State) (p : RingReq) : Bool :=
  p.blocked && s.reqRuns p && p.push.isSome &&
    (match s.ringOf p.handle with
     | some (_, _, r) => r.state == .open_ && decide (r.slots ≤ r.ownCount) && decide (r.lentCount < r.lend)
     | none => false)

/-- An older waiting push of the cluster needs a pool slot (06 R190). -/
def State.olderPool (s : State) (core : CoreId) (q : RingReq) : Bool :=
  (List.range 16).any (fun pos =>
    (s.ctx (siteInCluster (dieOf core).val (clusterOf core) pos)).ringReqs.any (fun p => s.poolWaits p && decide (p.since < q.since)))

/-- The rules of 06 R188 and R190 for one request. -/
def State.ringAct (s : State) (q : RingReq) : RingAct :=
  match s.ringOf q.handle with
  | none => .fault (flt .ringClosed)
  | some (c, _, r) =>
    let ahead := (s.ctx c).ringReqs.any (fun p => p.blocked && s.reqRuns p && decide (p.seq < q.seq) && p.handle == q.handle &&
      p.push.isSome == q.push.isSome)
    let at_ (p : RPlace) (store : Bool) (k : List (Loc × Nat) → RingAct) : RingAct :=
      match s.placeLocs c r store p with
      | .ok ls => if !store && ls.any (fun l => s.lostAt l.1 l.2) then .poison else k ls
      | .error (.moving id) => .moving id
      | .error (.fault _) => .poison
    match r.state, q.push with
    | .poisoned, _ => .fault (flt .poisonedRing)
    | .free, _ => .fault (flt .ringClosed)
    | .draining, some _ => .fault (flt .ringClosed)
    | .open_, some _ =>
      if ahead then .block
      else if r.ownCount < r.slots then at_ (.own r.tail) true (.push (.own r.tail))
      else if r.lentCount < r.lend then
        match (s.poolFree c).head? with
        | some (d, o) => if s.olderPool c q then .block else at_ (.pool d o) true (.push (.pool d o))
        | none => .block
      else .block
    | st, none =>
      match r.places with
      | p :: _ => if ahead then .block else at_ p false .pop
      | [] => if st = .draining then .fault (flt .ringClosed) else .block

/-- The gang of a request. -/
def State.reqGang (s : State) (q : RingReq) : Option (CoreId × SlotId × Gang) := (s.gang? q.core q.slot).map (fun g => (q.core, q.slot, g))

/-- The blocked request of one kind on a ring that has n older ones before it: the one that the event which makes room, or a record, for one
more of them releases. -/
def State.blockedOn (s : State) (c : CoreId) (h : DWord) (push : Bool) (n : Nat) : Option (CoreId × SlotId × Gang) :=
  ((((s.ctx c).ringReqs.filter (fun q => q.blocked && q.handle == h && q.push.isSome == push))[n]?).bind s.reqGang)

/-- The map entries of a record's place in a ring (02 R72). -/
def State.placeUses (s : State) (c : CoreId) (r : Ring) (p : RPlace) : List MapUse :=
  match p with
  | .own k => s.ringUses c r.cap r.boff k
  | .pool _ _ => []

/-- Write bytes over runs. -/
def State.writeRuns (s : State) (by_ : CoreId) (ls : List (Loc × Nat)) (b : List Byte) : State :=
  (ls.foldl (fun (acc : State × List Byte) l => (acc.1.homeWrite by_ l.1 (acc.2.take l.2), acc.2.drop l.2)) (s, b)).1

/-- A gang whose request the controller holds back is blocked in its push or pop (06 R199). -/
def Gang.ringBlocked (g : Gang) : Gang :=
  match g.status with
  | .waiting w => { g with status := .waiting { w with why := .ringBlocked } }
  | _ => g

/-- The request that a pool slot's return releases: of those of the cluster that wait for one, oldest first, the first for which none was
free before (06 R190). -/
def State.nextPool (s : State) (core : CoreId) : Option (CoreId × SlotId × Gang) :=
  let qs := (List.range 16).flatMap (fun pos => (s.ctx (siteInCluster (dieOf core).val (clusterOf core) pos)).ringReqs.filter s.poolWaits)
  ((sortBy RingReq.since qs)[(s.poolFree core).length - 1]?).bind s.reqGang

/-- Apply a request (06 R188); a fault in reaching the backing poisons the ring, and the request whose access it was is released with those
that wait (R191). -/
def State.applyReq (s : State) (c : CoreId) (q : RingReq) : State :=
  match s.ringAct q with
  | .fault f => s.refuseReq c q f
  | .block =>
    (s.blockReq c q.seq).modGang q.core q.slot Gang.ringBlocked
  | .moving id => s.modCtx c (fun x => { x with ringReqs := x.ringReqs.map (fun p => if p.seq = q.seq then { p with walk := some id } else p) })
  | .poison =>
    match s.ringOf q.handle with
    | some (_, n, r) =>
      ((s.setRing c n (some { r with state := .poisoned, places := [] })).blockReq c q.seq).releaseReqs c q.handle .poisonedRing (fun _ => true)
    | none => s
  | .push p ls =>
    match s.ringOf q.handle with
    | some (_, n, r) =>
      let s := s.cacheUses c (s.placeUses c r p)
      let s := s.writeRuns c ls (recBytes (restamp (q.push.getD []) (s.now c)))
      let r := { r with places := r.places ++ [p], tail := match p with
        | .own _ => (r.tail + 1) % r.slots
        | _ => r.tail }
      let s := (s.setRing c n (some r)).releaseLt c (s.blockedOn c q.handle false (r.places.length - 1)) q.lt
      (s.dropReq c q.seq).asGang q.core q.slot (fun s => s.retire none)
    | none => s
  | .pop ls =>
    match s.ringOf q.handle with
    | some (_, n, r) =>
      let b := ls.flatMap (fun l => s.homeRead l.1 l.2)
      let s := s.cacheUses c ((r.places.head?.map (s.placeUses c r)).getD [])
      let rest := r.places.tail
      let s := s.setRing c n (if rest = [] ∧ r.state = .draining then none else some { r with places := rest })
      let s := s.releaseLt c (match r.places.head? with
        | some (.pool _ _) => s.nextPool c
        | _ => s.blockedOn c q.handle true (r.slots - r.ownCount)) q.lt
      (s.dropReq c q.seq).asGang q.core q.slot (fun s =>
        match s.me? with
        | some g =>
          let g := (g.setVAll q.dst (recEntry (recParse b))).progress
          ((s.setMe g).acquire q.core (modeScope g.regs.mode)).retire none
        | none => s)
    | none => s

end Sys2Proof.Machine
end

