-- ==== Sys2Proof/Machine/Launches.lean ====
section
/-! DEFINITION. Launches, placement and bins: LAUNCH, SPAWN, BINCFG and their events (06 R173 to R178, R184 to R186; 10 R364
to R366). -/

namespace Sys2Proof.Machine

/-! The launch header (06 R174). -/

structure Hdr where
  entry : Nat
  shadow : Nat
  /-- widths of fields 1 to 5 -/
  w : List Nat
  /-- EXT1 to EXT5, each its extent less one -/
  ext : List Nat
  lanes : Nat
  regs : Nat
  prio : Nat
  tmask : Nat
  ncap : Nat
  persist : Bool
  det : Bool
  redmx : Bool
  pint : Nat
  winb : Nat
  wins : Nat
  capb : Nat
  diemask : Nat
  exact : Bool
  core : CoreId
  /-- a reserved field is nonzero -/
  rsv : Bool
deriving DecidableEq, Repr

def Hdr.parse (b : List Byte) : Hdr :=
  let w := field b 16 4
  let g := field b 40 4
  let n := field b 48 4
  let c := field b 52 4
  let d := field b 56 8
  { entry := field b 0 8, shadow := field b 8 8
    w := (List.range 5).map (fun k => w / 2 ^ (6 * k) % 64)
    ext := (List.range 5).map (fun k => field b (20 + 4 * k) 4)
    lanes := g % 32, regs := g / 32 % 8, prio := g / 256 % 32, tmask := g / 2 ^ 13 % 256, ncap := g / 2 ^ 21 % 32
    persist := g / 2 ^ 26 % 2 == 1, det := g / 2 ^ 27 % 2 == 1, redmx := g / 2 ^ 28 % 2 == 1
    pint := field b 44 4, winb := n % 2 ^ 14, wins := n / 2 ^ 14 % 2 ^ 15, capb := c % 2 ^ 18
    diemask := d % 16, exact := d / 16 % 2 == 1, core := BitVec.ofNat 12 (d / 32)
    rsv := w / 2 ^ 30 != 0 || g / 2 ^ 29 != 0 || n / 2 ^ 29 != 0 || c / 2 ^ 18 != 0 || d / 2 ^ 17 != 0 }

def Hdr.allot (h : Hdr) : Nat := 16 + 8 * h.regs
/-- Gangs of a crew. -/
def Hdr.crew (h : Hdr) : Nat := h.ext.getD 0 0 + 1
/-- Crews of a level-3 unit. -/
def Hdr.unit (h : Hdr) : Nat := h.ext.getD 1 0 + 1
/-- Crews of the launch. -/
def Hdr.crews (h : Hdr) : Nat := (h.ext.drop 1).foldl (fun n e => n * (e + 1)) 1
/-- Slots that one gang takes, its shadow's among them. -/
def Hdr.slots (h : Hdr) : Nat := if h.shadow = 0 then 1 else 2
/-- Tiles allotted: with REDMX the twin tiles too (06 R176). -/
def Hdr.tiles (h : Hdr) : BitVec 8 := BitVec.ofNat 8 (if h.redmx then h.tmask + 16 * (h.tmask % 16) else h.tmask)
/-- Gangs that one empty core can take (06 R177). -/
def Hdr.perCore (h : Hdr) : Nat :=
  let n := min (8 / h.slots) (512 / (h.allot * h.slots))
  if h.tiles = 0 then n else min n 1

/-- An entry address is valid, or the fault it gives (06 R173, R175). -/
def State.entryFault (s : State) (core : CoreId) (e : Nat) : Option Flt :=
  let p := s.part core
  let id := e / 2 ^ 40
  let off := e % 2 ^ 40
  let r := s.record p id
  let f (c : Code) : Flt := { code := c, id := id, offset := BitVec.ofNat 64 off }
  if off % 4 ≠ 0 ∨ p.ortSize ≤ id ∨ ¬ (r.state = 1 ∨ r.state = 2) then some (f .notMapped)
  else if holds r.perm pX = false then some (f .capPerm)
  else if r.shape.getD 0 0 ≤ off / 4 then some (f .notMapped)
  else none

/-- Dies that a launch may use. -/
def Hdr.dies (h : Hdr) (p : Part) : List (Fin 4) :=
  p.dieList.filter (fun d => h.diemask == 0 || (h.diemask / 2 ^ d.val) % 2 == 1)

/-- The sites of a cluster in ascending position. -/
def clusterSites (d cl : Nat) : List CoreId := (List.range 16).map (siteInCluster d cl)

/-- Gangs that a cluster of empty cores can take: its dark sites take none (06 R175). -/
def State.clusterRoom (s : State) (h : Hdr) (d : Fin 4) (cl : Nat) : Nat :=
  ((clusterSites d.val cl).filter (fun c => !s.isDark c)).length * h.perCore

/-- One crew could be placed with every working core of the allowed dies empty (06 R175). -/
def State.crewFits (s : State) (h : Hdr) (p : Part) : Bool :=
  let ds := h.dies p
  (List.range 64).any (fun cl =>
    ds.any (fun d => decide (h.crew ≤ s.clusterRoom h d cl)) ||
    ds.any (fun d => ds.any (fun e => e.val == d.val + 1 &&
      decide (h.crew ≤ s.clusterRoom h d cl + s.clusterRoom h e cl))))

/-- The checks of 06 R175 in order. A width above 32 is refused with the first (log 12). -/
def State.headerFault (s : State) (core : CoreId) (h : Hdr) : Option Flt :=
  let p := s.part core
  let ill := some (flt .illegal)
  if h.rsv ∨ h.regs = 7 ∨ 16 < h.ncap ∨ 6 < h.w.getD 0 0 ∨ h.capb % 16 ≠ 0 ∨ h.w.any (fun w => decide (32 < w)) then ill
  else if 59 < h.w.foldl (· + ·) 0 ∨ (h.w.zip h.ext).any (fun x => decide (2 ^ x.1 ≤ x.2)) then ill
  else if h.pint ≠ 0 ∧ h.persist = false then ill
  else if h.shadow ≠ 0 ∧ h.allot < 48 then ill
  else if h.redmx ∧ 16 ≤ h.tmask then ill
  else if 14 < h.ncap ∧ h.wins ≠ 0 then ill
  else if 16384 < h.winb + h.wins ∨ (h.wins ≠ 0 ∧ 0x3700 < h.winb + h.wins) then
    some { flt .capBounds with offset := BitVec.ofNat 64 (16 * h.winb) }
  else if p.det ∧ h.det = false then ill
  else
    match s.entryFault core h.entry with
    | some f => some f
    | none =>
      match if h.shadow = 0 then none else s.entryFault core h.shadow with
      | some f => some f
      | none =>
        if s.crewFits h p = false ∨ (h.exact = true ∧ h.perCore < h.crew) then ill
        else if h.exact ∧ ((h.dies p).contains (dieOf h.core) = false ∨ s.noCore h.core) then
          some { flt .notMapped with offset := h.core.zeroExtend 64 }
        else none

/-- Scratchpad that programs may use ends here (06 R181). -/
def padEnd : Nat := 0x37000

/-- The header at a LOCAL offset, or its fault (10 R366, 06 R175). -/
def State.readHeader (s : State) (core : CoreId) (off : DWord) : Except Flt (Hdr × List Byte × List Cap) :=
  let o := off.toNat
  let at_ (f : Code) : Flt := { flt f with offset := off }
  if o % 64 ≠ 0 then .error (at_ .misaligned)
  else if padEnd < o + 64 then .error (at_ .capBounds)
  else if s.lostAt (.pad core o) 64 then .error (at_ .dataError)
  else
    let b := s.homeRead (.pad core o) 64
    let h := Hdr.parse b
    if h.ncap ≠ 0 ∧ padEnd < h.capb + 16 * h.ncap then .error { flt .capBounds with offset := BitVec.ofNat 64 h.capb }
    else
      match s.headerFault core h with
      | some f => .error f
      | none =>
        if s.lostAt (.pad core h.capb) (16 * h.ncap) then .error { flt .dataError with offset := BitVec.ofNat 64 h.capb }
        else .ok (h, b, (List.range h.ncap).map (fun k =>
          ⟨BitVec.ofNat 128 (ofBytes (s.homeRead (.pad core (h.capb + 16 * k)) 16)), s.getTag (.pad core (h.capb + 16 * k))⟩))

/-- The core's own buffered writes meet the header or the block that it names. -/
def State.headerBusy (s : State) (core : CoreId) (off : DWord) : Bool :=
  let o := off.toNat
  let h := Hdr.parse (s.homeRead (.pad core o) 64)
  (s.ctx core).busy (.pad core o) 64 || (h.ncap != 0 && (s.ctx core).busy (.pad core h.capb) (16 * h.ncap))

/-! Identity (01 R33) and seeds (03 R93). -/

/-- The work identifier of a lane. -/
def Ident.wid (i : Ident) (lane : Nat) : Nat :=
  ((i.widths.zip i.fields).foldl (fun (a : Nat × Nat) x => (a.1 + x.2 * 2 ^ a.2, a.2 + x.1)) (lane, 5)).1 % 2 ^ 64

/-- The seed of a lane's LFSR. -/
def seedOf (wid : Nat) : Word :=
  let x : Word := BitVec.ofNat 32 wid ^^^ BitVec.ofNat 32 (wid / 2 ^ 32) ^^^ 0x9E3779B9
  if x = 0 then 1 else x

/-! Placement (06 R177). -/

/-- What a placement puts on a core. -/
structure Plc where
  hdr    : Hdr
  caps   : List Cap
  fields : List Nat
  exm    : Mask
  crew   : Nat
  dies   : BitVec 4
  size   : Nat
  lt     : Nat
  win    : Cap
  /-- records of a firing with the bin, and the TICK of the firing -/
  recs   : Option (Nat × List Rec × Nat) := none

/-- V registers of the pool that are taken. -/
def Ctx.poolUsed (x : Ctx) : Nat := x.gangs.foldl (fun n kg => n + kg.2.allot) 0
def Ctx.occupied (x : Ctx) : Nat := x.gangs.length

/-- A gang's place in the order of R177: priority, then age. -/
def servedFirst (a b : Nat × Nat) : Bool := decide (b.1 < a.1) || (a.1 == b.1 && decide (a.2 < b.2))

/-- The waiting GROW requests of a core, head first (06 R196). -/
def Ctx.grows (x : Ctx) : List (SlotId × Gang × Nat × (Nat × Nat)) :=
  let l := x.gangs.filterMap (fun kg =>
    match kg.2.status with
    | .waiting ⟨.grow a, t, _⟩ => some (kg.1, kg.2, a, (kg.2.hdr.prio, t))
    | _ => none)
  l.foldl (fun acc x => acc.takeWhile (fun y => servedFirst y.2.2.2 x.2.2.2) ++ x :: acc.dropWhile (fun y => servedFirst y.2.2.2 x.2.2.2)) []

/-- The core can take a gang of this header now; rank is the placement's priority and age (06 R177, R197). -/
def State.canTake (s : State) (h : Hdr) (rank : Nat × Nat) (c : CoreId) : Bool :=
  let x := s.ctx c
  !s.noCore c && decide (x.occupied + h.slots ≤ 8) && decide (x.poolUsed + h.allot * h.slots ≤ 512) &&
    (List.finRange 8).all (fun t => !h.tiles.getLsbD t.val || (x.tiles[t]).owner.isNone) &&
    (match x.grows with
     | [] => true
     | y :: _ => decide (y.2.2.2.1 < rank.1) || (y.2.2.2.1 == rank.1 && decide (rank.2 < y.2.2.2.2)))

/-- The lowest free slot of a context. -/
def Ctx.freeSlot (x : Ctx) : Option SlotId := slotList.find? (fun k => (x.slots[k.val]).isNone)

/-- The gang that a placement makes (01 R21, R26; 03 R93; 06 R176, R185). -/
def mkGang (p : Plc) (entry : Nat) (slot : SlotId) (dog : Nat) : Gang :=
  let h := p.hdr
  let id : Ident := { widths := h.w, fields := p.fields, crew := p.crew, dies := p.dies, size := p.size }
  let area := 0x38000 + 2048 * slot.val
  let c0 := (List.range h.ncap).foldl (fun (c : Vector Cap 16) k => c.set (k % 16) (p.caps.getD k Cap.null) (Nat.mod_lt _ (by decide)))
    (Vector.replicate 16 Cap.null)
  let c1 := if h.wins = 0 then c0 else c0.set 14 p.win
  let c2 := if p.recs.isNone then c1 else c1.set 15 (Cap.mk' 0 pR 0 area 2048 true)
  let g : Gang := { Gang.fresh with
    regs := { Regs.fresh with c := c2, exm := p.exm, pc := BitVec.ofNat 64 entry
                              lfsr := Lanes.of (fun i => seedOf (id.wid i.val)) }
    allot := h.allot
    ident := id
    hdr := { prio := h.prio, persist := h.persist, redmx := h.redmx, tmask := h.tiles, pint := h.pint, bin := p.recs.isSome }
    cnt := { lt := p.lt, dogLog := dog } }
  match p.recs with
    | none => g
    | some (bin, rs, t) =>
      ((((g.setS 16 (BitVec.ofNat 64 area)).setS 17 (p.exm.zeroExtend 64)).setS 18 (BitVec.ofNat 64 bin)).setS 19
        (BitVec.ofNat 64 rs.length)).setS 20 (BitVec.ofNat 64 t)

/-- Empty a slot's record area (11 R390); a firing's records are written there without changing the bits. -/
def State.openArea (s : State) (c : CoreId) (k : SlotId) (rs : List Rec) : State :=
  let base := 0x38000 + 2048 * k.val
  let s := s.modCtx c (fun x => { x with
    full := x.full.filter (fun g => decide (g < base / 16) || decide (base / 16 + 128 ≤ g)) })
  rs.zipIdx.foldl (fun (s : State) r => s.homeWrite c (.pad c (base + 64 * r.2)) (recBytes r.1)) s

/-- Place one gang, with its shadow, on a core that can take it (06 R177, R178; acquire of 10 R357). -/
def State.placeGang (s : State) (c : CoreId) (p : Plc) : State :=
  match (s.ctx c).freeSlot with
  | none => s
  | some k =>
    let dog := (s.part c).wdog
    let rs := match p.recs with
      | some (_, rs, _) => rs
      | none => []
    let s := ((s.dropCache c).modCore c (fun q => { q with left := false })).openArea c k rs
    let s := s.setGang c k (mkGang p p.hdr.entry k dog)
    let s := s.modCtx c (fun x => { x with
      tiles := Vector.ofFn (fun t => if p.hdr.tiles.getLsbD t.val then { x.tiles[t] with owner := some k } else x.tiles[t]) })
    if p.hdr.shadow = 0 then s
    else
      match (s.ctx c).freeSlot with
      | none => s
      | some j =>
        let s := s.openArea c j []
        let g := mkGang p p.hdr.entry k dog
        let s := s.setGang c k { g with partner := some j }
        s.setGang c j { g with
          regs := { g.regs with pc := BitVec.ofNat 64 p.hdr.shadow }, partner := some k, shadow := true }

/-- The least-loaded of some cores that can take a gang; ties go to the first (06 R177). -/
def State.leastLoaded (s : State) (h : Hdr) (rank : Nat × Nat) (cs : List CoreId) : Option CoreId :=
  (cs.filter (s.canTake h rank)).foldl (fun best c =>
    match best with
    | none => some c
    | some b => if (s.ctx c).occupied < (s.ctx b).occupied then some c else some b) none

/-- Place the gangs of a crew one at a time in ascending field 1; none when some gang finds no core. -/
def State.placeAll (s : State) (rank : Nat × Nat) (cs : List CoreId) (p : Nat → Plc) : List Nat → Option State
  | [] => some s
  | k :: ks =>
    match s.leastLoaded (p k).hdr rank cs with
    | some c => (s.placeGang c (p k)).placeAll rank cs p ks
    | none => none

/-- The pooled-window capability of a crew (02 R57). -/
def windowCap (h : Hdr) (site : CoreId) (xd : Nat) : Cap :=
  Cap.mk' 1 (pR + pW) (site.toNat * 2 ^ 12 + xd) (256 * h.winb) (256 * h.wins) true

/-- The north-west site of a cluster. -/
def clusterHome (d cl : Nat) : CoreId := siteInCluster d cl 0

/-- Place one crew on the cores of some clusters: home and XD are those of its window. -/
def State.placeCrew (s : State) (rank : Nat × Nat) (cs : List CoreId) (home : CoreId) (xd : Nat) (dies : BitVec 4) (h : Hdr)
    (caps : List Cap) (lt : Nat) (exm : Mask) (rest : List Nat) (recs : Option (Nat × List Rec × Nat)) : Option State :=
  let crew := s.launches
  let p (k : Nat) : Plc :=
    { hdr := h, caps := caps, fields := k :: rest, exm := exm, crew := crew, dies := dies, size := h.crew, lt := lt
      win := windowCap h home xd, recs := recs }
  if 128 < h.crew then none
  else ({ s with launches := s.launches + 1 }).placeAll rank cs p (List.range h.crew)

def dieBit (d : Nat) : BitVec 4 := BitVec.twoPow 4 d

/-- Occupied slots of some cores. -/
def State.load (s : State) (cs : List CoreId) : Nat := cs.foldl (fun n c => n + (s.ctx c).occupied) 0

/-- The first candidate of least load that answers a state. -/
def leastOf (l : List (Nat × State)) : Option State :=
  (l.foldl (fun (best : Option (Nat × State)) x =>
    match best with
    | none => some x
    | some b => if x.1 < b.1 then some x else some b) none).map (fun x => x.2)

/-- The crews' fields 2 to 5, from the crew's number in ascending order of fields 5 to 2 (06 R176). -/
def crewFields (h : Hdr) (n : Nat) : List Nat :=
  ((h.ext.drop 1).foldl (fun (a : List Nat × Nat) e => (a.1 ++ [a.2 % (e + 1)], a.2 / (e + 1))) ([], n)).1

/-- One crew of a launch or a firing, in one cluster of a list of dies (06 R177, step 2). -/
def State.inCluster (s : State) (ds : List (Fin 4))
    (place : State → List CoreId → CoreId → Nat → BitVec 4 → Option State) : Option State :=
  leastOf (ds.flatMap (fun d => (List.range 64).filterMap (fun cl =>
    let cs := clusterSites d.val cl
    (place s cs (clusterHome d.val cl) 0 (dieBit d.val)).map (fun t => (s.load cs, t)))))

/-- A crew across two dies (06 R177, step 3). -/
def State.straddle (s : State) (ds : List (Fin 4))
    (place : State → List CoreId → CoreId → Nat → BitVec 4 → Option State) : Option State :=
  leastOf (ds.flatMap (fun d => (ds.filter (fun e => e.val == d.val + 1)).flatMap (fun e =>
    (List.range 64).filterMap (fun cl =>
      let cs := clusterSites d.val cl ++ clusterSites e.val cl
      (place s cs (clusterHome d.val cl) 1 (dieBit d.val ||| dieBit e.val)).map (fun t => (s.load cs, t))))))

/-- The lanes that exist in a launched gang (01 R26). -/
def laneExm (n : Nat) : Mask := BitVec.ofNat 32 (2 ^ n - 1)

/-- Place n crews from crew k on, each in the least-loaded cluster of one die (06 R177, step 1). -/
def State.placeUnit (s : State) (d : Fin 4)
    (place : Nat → State → List CoreId → CoreId → Nat → BitVec 4 → Option State) : List Nat → Option State
  | [] => some s
  | k :: ks =>
    match s.inCluster [d] (place k) with
    | some t => t.placeUnit d place ks
    | none => none

/-- Place the next crew or unit of a launch; how many crews were placed (06 R177). -/
def State.placeLaunch (s : State) (p : Part) (l : Launch) : Option (State × Nat) :=
  let h := Hdr.parse l.header
  let rank := (h.prio, l.since)
  let ds := (h.dies p).filter (fun d => !s.isParked d)
  let place (k : Nat) (s : State) (cs : List CoreId) (home : CoreId) (xd : Nat) (m : BitVec 4) : Option State :=
    s.placeCrew rank cs home xd m h l.caps (l.lt + 1) (laneExm (h.lanes + 1)) (crewFields h k) none
  if h.exact then
    let c := h.core
    (place l.placed s [c] (clusterHome (dieOf c).val (clusterOf c)) 0 (dieBit (dieOf c).val)).map (fun t => (t, 1))
  else
    let whole : Option State :=
      if l.placed % h.unit = 0 ∧ h.unit * h.crew ≤ 8192 then
        leastOf (ds.filterMap (fun d =>
          (s.placeUnit d place ((List.range h.unit).map (fun k => l.placed + k))).map (fun t =>
            (s.load ((List.range 1024).map (fun k => BitVec.ofNat 12 (d.val * 1024 + k))), t))))
      else none
    match whole with
    | some t => some (t, h.unit)
    | none =>
      match s.inCluster ds (place l.placed) with
      | some t => some (t, 1)
      | none => (s.straddle ds (place l.placed)).map (fun t => (t, 1))

/-- Place a waiting firing on its bin's die (06 R185). -/
def State.placeFiring (s : State) (d : Fin 4) (n : Nat) (b : Bin) (f : Firing) : Option State :=
  let h := Hdr.parse b.launch.header
  let rank := (h.prio, f.since)
  let lt := f.recs.foldl (fun m r => max m r.lt) 0
  let place (s : State) (cs : List CoreId) (home : CoreId) (xd : Nat) (m : BitVec 4) : Option State :=
    s.placeCrew rank (if h.exact then cs.filter (fun c => c == h.core) else cs) home xd m h b.launch.caps (lt + 1)
      (laneExm f.recs.length) [f.num % 2 ^ h.w.getD 1 0, 0, 0, 0] (some (n, f.recs.map Pend.rec_, f.tick))
  if s.isParked d then none else s.inCluster [d] place

/-! The bins (06 R184, R185). -/

def binDepth : Nat := 64

/-- Records of a bin that no gang has received yet. -/
def Bin.held (b : Bin) : Nat := b.waiting.foldl (fun n f => n + f.recs.length) b.pending.length

/-- Fire a bin once. -/
def Bin.fire (b : Bin) (tick since : Nat) : Bin :=
  let n := min b.c b.pending.length
  { b with
    pending := b.pending.drop n
    fired := b.fired + 1
    waiting := b.waiting ++ [⟨b.fired, b.pending.take n, tick, since⟩] }

def State.setBin (s : State) (d : Fin 4) (n : Nat) (b : Bin) : State := s.modDie d (fun x => { x with bins := Tbl.put x.bins n b })

/-- TICK on a die. -/
def State.dieTick (s : State) (d : Fin 4) : Nat := s.now (siteAt d.val 0 0)

/-- A bin fires as soon as it holds c records. -/
def State.fireOnCount (s : State) (d : Fin 4) (n : Nat) : State :=
  match Tbl.get? (s.dies[d]).bins n with
  | some b => if b.c ≤ b.pending.length then ({ s with clock := s.clock + 1 }).setBin d n (b.fire (s.dieTick d) s.clock) else s
  | none => s

/-- The bin of a die whose key is an entry address. -/
def State.binOf (s : State) (d : Fin 4) (entry : Nat) : Option (Nat × Bin) :=
  (s.dies[d]).bins.find? (fun b => field b.2.launch.header 0 8 == entry)

/-- Body of SPAWN; turn: the gang is the oldest waiter of its bin. -/
def spawnBody (turn : Bool) (v : VReg) (s : State) (g : Gang) : Res :=
  let core := s.cur.core
  let d := dieOf core
  if g.inTx ∨ g.wideE then .fault (flt .illegal)
  else
    let r := g.recOf v
    match s.binOf d (recEntryAddr r).toNat with
    | none => .fault { flt .notMapped with offset := recEntryAddr r }
    | some (n, _) =>
      s.ordGate g (fun _ => s.relGate g 4 (fun s g =>
        match Tbl.get? (s.dies[d]).bins n with
        | none => .fault { flt .notMapped with offset := recEntryAddr r }
        | some b =>
          let mine (x : CoreId × SlotId × Gang) : Bool :=
            match decode x.2.2.waitWord with
            | some (.spawn w) => recEntryAddr (x.2.2.recOf w) == recEntryAddr r
            | _ => false
          let line := (s.waiters ((s.coresOf (s.part core)).filter (fun c => dieOf c == d)) (fun w => w == .binFull)).filter mine
          if binDepth ≤ b.held ∨ (turn = false ∧ line ≠ []) then .wait s .binFull
          else
            let e := stampRec r (s.origin core).toNat s.cur.slot.val false 1 (s.now core)
            .done ((s.setBin d n { b with pending := b.pending ++ [⟨s.now core, g.cnt.lt, e⟩] }).fireOnCount d n)))

/-- SPAWN (10 R364). -/
def execSpawn (v : VReg) (s : State) : Host.Outcome State Fault Refusal :=
  runFull .u [v.toNat] false (spawnBody false v) s

/-! LAUNCH (06 R176, 10 R366). -/

def launchDepth : Nat := 64

/-- Body of LAUNCH; turn: the gang is the oldest that waits for its die's queue. -/
def launchBody (turn : Bool) (a : SReg) (s : State) (g : Gang) : Res :=
  let core := s.cur.core
  let d := dieOf core
  if g.inTx then .fault (flt .illegal)
  else
    s.ordGate g (fun _ => s.relGate g 4 (fun s g =>
      if s.headerBusy core (g.s a) then .wait s .hazard
      else
        match s.readHeader core (g.s a) with
        | .error f => .fault f
        | .ok (_, b, caps) =>
          let line := s.waiters ((s.coresOf (s.part core)).filter (fun c => dieOf c == d)) (fun w => w == .launchQ)
          if launchDepth ≤ (s.dies[d]).launch.length ∨ (turn = false ∧ line ≠ []) then .wait s .launchQ
          else .done (({ s with clock := s.clock + 1 }).modDie d (fun (x : Die) => { x with
            launch := x.launch ++ [({ header := b, caps := caps, lt := g.cnt.lt, since := s.clock } : Launch)] }))))

/-- LAUNCH. -/
def execLaunch (a : SReg) (s : State) : Host.Outcome State Fault Refusal := runFull .u [] false (launchBody false a) s

/-- Body of BINCFG (06 R184, 10 R365). -/
def bincfgBody (a b : SReg) (s : State) (g : Gang) : Res :=
  let core := s.cur.core
  let d := dieOf core
  let w := (g.s a).toNat
  let n := w % 256
  let c := w / 256 % 64
  let t := w / 2 ^ 16 % 2 ^ 16
  let old := Tbl.get? (s.dies[d]).bins n
  let held := match old with
    | some x => x.held
    | none => 0
  if 32 < c ∨ w / 2 ^ 14 % 4 ≠ 0 ∨ w / 2 ^ 32 ≠ 0 ∨ (c ≠ 0 ∧ t = 0) then .fault (flt .illegal)
  else if c = 0 then
    if held ≠ 0 then .wait s .binDrain else .done (s.modDie d (fun x => { x with bins := Tbl.del x.bins n }))
  else if s.headerBusy core (g.s b) then .wait s .hazard
  else
    match s.readHeader core (g.s b) with
    | .error f => .fault f
    | .ok (h, bytes, caps) =>
      if h.w.getD 0 0 ≠ 0 ∨ h.lanes + 1 < c ∨ 15 < h.ncap
          ∨ (s.dies[d]).bins.any (fun x => x.1 != n && field x.2.launch.header 0 8 == h.entry) then .fault (flt .illegal)
      else if held ≠ 0 then .wait s .binDrain
      else .done (s.setBin d n { launch := { header := bytes, caps := caps, lt := g.cnt.lt, since := 0 }, c := c, t := t })

/-- BINCFG. -/
def execBincfg (a b : SReg) (s : State) : Host.Outcome State Fault Refusal := runFull .u [] false (bincfgBody a b) s

/-! GANG_PLACEMENT (06 R176, R177, R186). -/

/-- The launches of a queue that precedence does not hold back: each of higher priority than all before it (06 R177, log 83). -/
def leaders (least : Nat) : List Launch → List Launch
  | [] => []
  | l :: t =>
    let pr := (Hdr.parse l.header).prio
    if least ≤ pr then l :: leaders (pr + 1) t else leaders least t

/-- What waits for placement: a launch of a die's queue, or a waiting firing of a bin. -/
inductive Cand
  | launch (d : Fin 4) (l : Launch)
  | firing (d : Fin 4) (n : Nat) (b : Bin) (f : Firing)

def Cand.die : Cand → Fin 4
  | .launch d _ => d
  | .firing d _ _ _ => d

def Cand.hdr : Cand → Hdr
  | .launch _ l => Hdr.parse l.header
  | .firing _ _ b _ => Hdr.parse b.launch.header

/-- Priority and age. -/
def Cand.rank : Cand → Nat × Nat
  | .launch _ l => ((Hdr.parse l.header).prio, l.since)
  | .firing _ _ b f => ((Hdr.parse b.launch.header).prio, f.since)

/-- The candidates of a partition. -/
def State.cands (s : State) (p : Part) : List Cand :=
  p.dieList.flatMap (fun d =>
    (leaders 0 (s.dies[d]).launch).map (Cand.launch d) ++
    (s.dies[d]).bins.filterMap (fun nb =>
      match nb.2.waiting with
      | f :: _ => some (Cand.firing d nb.1 nb.2 f)
      | [] => none))

/-- The state after the placement of a candidate, when it can be placed. -/
def State.tryCand (s : State) (p : Part) : Cand → Option State
  | .launch d l =>
    (s.placeLaunch p l).map (fun (tn : State × Nat) =>
      let l' : Launch := { l with placed := l.placed + tn.2 }
      tn.1.modDie d (fun (x : Die) => { x with
        launch := x.launch.flatMap (fun m =>
          if m.since ≠ l.since then [m] else if (Hdr.parse l.header).crews ≤ l'.placed then [] else [l']) }))
  | .firing d n b f => (s.placeFiring d n b f).map (fun t => t.setBin d n { b with waiting := b.waiting.tail })

/-- The placeable candidate served first: highest priority, then oldest (06 R177). -/
def State.bestCand (s : State) (p : Part) : Option (Cand × State) :=
  (s.cands p).foldl (fun best c =>
    match best with
    | some b =>
      if servedFirst c.rank b.1.rank then
        match s.tryCand p c with
        | some t => some (c, t)
        | none => best
      else best
    | none => (s.tryCand p c).map (fun t => (c, t))) none

/-- The word of a gang that waits for a launch queue, a bin's room or a bin's end. -/
def launchWaitOf (i : Instr) : Option (State → Gang → Res) :=
  match i with
  | .launch a => some (launchBody true a)
  | .spawn v => some (spawnBody true v)
  | .bincfg a b => some (bincfgBody a b)
  | _ => none

def isLaunchWait (w : Why) : Bool :=
  match w with
  | .launchQ | .binFull | .binDrain => true
  | _ => false

def Cand.lt : Cand → Nat
  | .launch _ l => l.lt
  | .firing _ _ _ f => f.recs.foldl (fun m r => max m r.lt) 0

end Sys2Proof.Machine
end

