-- ==== Sys2Proof/Machine/Wakes.lean ====
section
/-! DEFINITION. The wakes of gangs that wait for a queue, for room of an engine, or for a full granule: QUEUE_WAKE and
QUALIFIED_LOAD_COMPLETE. -/

namespace Sys2Proof.Machine

/-- The body of a word that waits for a queue or for an engine's room (06 R179, 04 R116, 09 R328). -/
def queueOf? (i : Instr) : Option (State → Gang → Res) :=
  match i with
  | .qpush q a => some (qpushBody q a)
  | .qpop d q => some (qpopBody d q)
  | .selk v t => some (selkBody v t)
  | .selres d => some (selresBody d)
  | .cpy r dst src cmpl => some (copyBody .cpy r dst src cmpl false)
  | .cpym r dst src cmpl skip => some (copyBody .cpym r dst src cmpl skip)
  | .cpyo r dst src cmpl => some (copyBody .cpyo r dst src cmpl false)
  | .gathe r dst src cmpl => some (copyBody .gathe r dst src cmpl false)
  | .scate r dst src cmpl => some (copyBody .scate r dst src cmpl false)
  | .prune ci co b => some (convBody .prune ci co b)
  | .plane ci co b => some (convBody .plane ci co b)
  | .unplane ci co b => some (convBody .unplane ci co b)
  | .mma t n1 f ca cb => some (mmaBody false t n1 f ca cb)
  | .mmaS t n1 f ca cb => some (mmaBody true t n1 f ca cb)
  | .mzero t => some (mzeroBody t)
  | .mload t c b => some (mloadBody t c b)
  | .mdrain t c b => some (mdrainBody t c b)
  | .mdrainQ t b => some (mdrainQBody t b)
  | _ => none

/-- The wait is one for a queue or for an engine's room. -/
def Why.forQueue (w : Why) : Bool :=
  match w with
  | .queue _ | .copySpace | .tileSpace => true
  | _ => false

/-- QUEUE_WAKE (06 R179, R192): what the gang waits for has come, and the gang is ready at its word again. -/
def queueWakeReady (s : State) (core : CoreId) (slot : SlotId) : Bool :=
  (match (s.gang? core slot).bind Gang.why? with
   | some w => w.forQueue
   | none => false) && movedOn s (s.resync core slot queueOf?) core slot

def execQueueWake (core : CoreId) (slot : SlotId) (s : State) : Host.Outcome State Fault Refusal :=
  .next (if queueWakeReady s core slot then s.wake core slot else s)

/-- The body of a word that waits for a full header granule (10 R343, R356). -/
def headerOf (i : Instr) : Option (State → Gang → Res) :=
  match i with
  | .mmaS t n1 f ca cb => some (mmaBody true t n1 f ca cb)
  | .sphdr a c => some (sphdrBody false a c)
  | .sphdrChk a c => some (sphdrBody true a c)
  | _ => none

/-- The state after a wait for a full granule is tried again. -/
def State.qualified (s : State) (core : CoreId) (slot : SlotId) : State :=
  if s.waits core slot .full then s.reload core slot .full
  else if s.waits core slot .header then s.resync core slot headerOf
  else s

/-- QUALIFIED_LOAD_COMPLETE (09 R300): the granules that a .fe, .fk or header load waits for are full. -/
def qualifiedReady (s : State) (core : CoreId) (slot : SlotId) : Bool := movedOn s (s.qualified core slot) core slot

def execQualifiedLoadComplete (core : CoreId) (slot : SlotId) (s : State) : Host.Outcome State Fault Refusal :=
  .next (if qualifiedReady s core slot then s.qualified core slot else s)

end Sys2Proof.Machine
end

