-- ==== Sys2Proof/Machine/Identity.lean ====
section
/-! DEFINITION. Register allotment, identity, counters, traps and illegal words (06 R195 to R197; 10 R367 to R371; 07 R211). -/

namespace Sys2Proof.Machine

/-! GROW and SHRINK (06 R195 to R197). -/

/-- The least allotment of a gang: 16, and 48 in a shadow pair (10 R368). -/
def Gang.allotMin (g : Gang) : Nat := if g.partner.isSome then 48 else 16

/-- Set a gang's allotment; registers that are no longer or newly named hold zero. -/
def Gang.setAllot (g : Gang) (a : Nat) : Gang :=
  let g' := { g with allot := a }
  let keep := min g.vLimit g'.vLimit
  { g' with regs := { g'.regs with
    v := Vector.ofFn (fun k => if k.val < keep then g.regs.v[k] else Lanes.all 0) } }

/-- GROW can never be granted (06 R196). -/
def Ctx.growImpossible (x : Ctx) (k : SlotId) (g : Gang) (a : Nat) : Bool :=
  let others := (x.gangs.filter (fun y => y.1 != k)).length
  let windows := (x.gangs.filter (fun y => y.2.partner.isSome && !y.2.shadow)).length
  decide (512 < (a - g.allot) + 16 * others + 64 * windows)

/-- A placement served before a request waits for this core's resources (06 R177). -/
def State.outranked (s : State) (core : CoreId) (rank : Nat × Nat) : Bool :=
  match s.bestCand (s.part core) with
  | some (c, _) => servedFirst c.rank rank && s.canTake c.hdr c.rank core
  | none => false

/-- The pool covers a request (06 R196). -/
def Ctx.poolCovers (x : Ctx) (g : Gang) (a : Nat) : Bool := decide (x.poolUsed - g.allot + a ≤ 512)

/-- Body of GROW; granted: the request is the head of its core. -/
def growBody (granted : Bool) (a : BitVec 12) (s : State) (g : Gang) : Res :=
  let n := a.toNat
  let core := s.cur.core
  let x := s.ctx core
  if g.inTx ∨ n < g.allot ∨ n % 8 ≠ 0 ∨ 64 < n ∨ n < 16 ∨ n < g.allotMin then .fault (flt .illegal)
  else if n = g.allot then .done s
  else if x.growImpossible s.cur.slot g n then .fault (flt .growImpossible)
  else if granted ∨ (x.grows = [] ∧ x.poolCovers g n ∧ s.outranked core (g.hdr.prio, s.clock) = false) then
    .done (s.setMe (g.setAllot n))
  else .wait s (.grow n)

/-- GROW (10 R368). -/
def execGrow (a : BitVec 12) (s : State) : Host.Outcome State Fault Refusal := runFull .u [] false (growBody false a) s

/-- GROW_GRANT (06 R196): the head request of those that no STOP halts, when the free pool covers it. -/
def growHead (s : State) (core : CoreId) : Option (SlotId × BitVec 12) :=
  match (s.ctx core).grows.filter (fun x => s.unstopped core x.2.1) with
  | (k, g, a, rank) :: _ =>
    if (s.ctx core).poolCovers g a && !s.outranked core rank then some (k, BitVec.ofNat 12 a) else none
  | [] => none

def execGrowGrant (core : CoreId) (s : State) : Host.Outcome State Fault Refusal :=
  .next (match growHead s core with
    | some (k, a) => s.asGang core k (fun s => s.runBody (growBody true a))
    | none => s)

/-- SHRINK (10 R368). -/
def execShrink (a : BitVec 12) (s : State) : Host.Outcome State Fault Refusal :=
  runFull .u [] false (fun s g =>
    let n := a.toNat
    if g.inTx ∨ g.allot < n ∨ n % 8 ≠ 0 ∨ n < g.allotMin then .fault (flt .illegal)
    else .done (s.setMe (g.setAllot n))) s

/-! Identity and counters. -/

/-- WID (10 R369). -/
def execWid (d : VReg) (s : State) : Host.Outcome State Fault Refusal :=
  runFull .u [d.toNat, d.toNat + 1] false (fun s g =>
    if g.wideE then .fault (flt .illegal)
    else
      .done (s.setMe ((g.setV d (fun i => BitVec.ofNat 32 (g.ident.wid i.val))).setV (nextV d)
        (fun i => BitVec.ofNat 32 (g.ident.wid i.val / 2 ^ 32))))) s

/-- Field k of a lane: field 0 is the lane; a field of width 0 reads 0 (01 R33). -/
def Ident.fieldOf (i : Ident) (k lane : Nat) : Nat :=
  match k with
  | 0 => lane
  | k + 1 => if i.widths.getD k 0 = 0 then 0 else i.fields.getD k 0

/-- WIDF (10 R369). -/
def execWidf (d : VReg) (k : BitVec 3) (s : State) : Host.Outcome State Fault Refusal :=
  runGang [d] (fun g =>
    if g.wideE ∨ 5 < k.toNat then .fault (flt .illegal)
    else .done (g.setV d (fun i => BitVec.ofNat 32 (g.ident.fieldOf k.toNat i.val)))) s

/-- RDCNT (10 R370). -/
def execRdcnt (k : Counter) (d : SReg) (s : State) : Host.Outcome State Fault Refusal :=
  runFull .u [] false (fun s g =>
    let n :=
      match k with
      | .cycle => if (s.part s.cur.core).det then g.cnt.retired else g.cnt.elapsed
      | .retired => g.cnt.retired
      | .tick => s.now s.cur.core
    .done (s.setMe (g.setS d (BitVec.ofNat 64 n)))) s

/-- BEAT (10 R371): a persistent gang starts a new progress interval. -/
def execBeat (s : State) : Host.Outcome State Fault Refusal := runGang [] (fun g => .done g.progress) s

/-- TRAP (10 R371). -/
def execTrap (code : BitVec 12) (s : State) : Host.Outcome State Fault Refusal :=
  runGang [] (fun _ => .fault { flt .trap with offset := code.zeroExtend 64 }) s

/-- BRK (10 R371). -/
def execBrk (code : BitVec 12) (s : State) : Host.Outcome State Fault Refusal :=
  runGang [] (fun _ => .fault { flt .break_ with offset := code.zeroExtend 64 }) s

/-! Words without an instruction (07 R211, R212). -/

/-- The level that an opcode needs (07 R213). -/
def opcodeNeed (op : Nat) : Priv :=
  match op with
  | 0xE1 | 0xE2 | 0xE3 | 0xE8 => .s
  | 0xE0 | 0xE4 | 0xE5 | 0xE6 | 0xE7 | 0xE9 | 0xEA | 0xEB | 0xEC => .p
  | _ => .u

/-- A fetched word that matches no assigned encoding freezes the gang before any effect, unpublished: PRIVILEGE where its
opcode needs a level that the gang does not hold, else ILLEGAL. -/
def execIllegalWord (w : Word) (s : State) : Host.Outcome State Fault Refusal :=
  match s.me? with
  | none => .fault .noGang
  | some g =>
    if g.status ≠ .running then .fault .noGang
    else if (decode w).isSome then .next s
    else
      let c : Code := if (opcodeNeed (bits w 31 24)).le g.priv then .illegal else .privilege
      .next (s.freeze s.cur.core s.cur.slot (flt c) g.active w)

end Sys2Proof.Machine
end

