-- ==== Sys2Proof/Machine/Trans.lean ====
section
/-! DEFINITION. Transactions: opcodes 0xA9 to 0xAC (07 R227, 09 R315 to R317, 05 R163 to R172), and the grants of the log and of
the irrevocable token. -/

namespace Sys2Proof.Machine

/-! TXSTAT (05 R172). -/

def statOpen : Word := BitVec.twoPow 32 15
def statIrrev : Word := BitVec.twoPow 32 14
def statRetry : Word := BitVec.twoPow 32 16

def statTries (w : Word) : Nat := bits w 13 10
def statCause (w : Word) : Nat := bits w 3 0

/-- Change one lane's TXSTAT. -/
def Gang.modStat (g : Gang) (i : Fin 32) (f : Word → Word) : Gang :=
  { g with tx := { g.tx with stat := g.tx.stat.set i.val (f g.tx.stat[i]) } }

/-- Open a lane's transaction with an empty log. -/
def Gang.openLane (g : Gang) (i : Fin 32) : Gang := g.setTx i { isOpen := true }

/-- TXBEGIN (05 R164); granted: the log has just been granted to this waiter. -/
def txbeginBody (granted : Bool) (s : State) (g : Gang) : Res :=
  let core := s.cur.core
  let slot := s.cur.slot
  if g.inTx ∨ g.follows ∨ stackDepth ≤ g.stack.length then .fault (flt .illegal)
  else
    s.relGate g 4 (fun s g =>
      let x := s.ctx core
      let taken := match x.txOwner with
        | some k => k != slot
        | none => !granted && x.gangs.any (fun (kg : SlotId × Gang) => kg.2.why? == some Why.txLog)
      if taken then .wait s .txLog
      else
        let g : Gang := { g with stack := ⟨g.regs.exm, .tx, 0⟩ :: g.stack }
        let g := (Mask.lanes g.regs.exm).foldl (fun g i => (g.openLane i).modStat i (fun _ => statOpen)) g
        let g := { g with tx := { g.tx with begin_ := g.regs.pc, active := true, irrev := none } }
        .done ((s.modCtx core (fun x => { x with txOwner := some slot })).setMe g))

/-- TXBEGIN (09 R315). -/
def execTxbegin (s : State) : Host.Outcome State Fault Refusal := runFull .u [] false (txbeginBody false) s

/-- TX_LOG_GRANT (05 R163): the oldest gang that waits for the core's log, and that no STOP halts, takes it. -/
def State.txLogLine (s : State) (core : CoreId) : List (CoreId × SlotId × Gang) :=
  (s.waiters [core] (fun w => w == .txLog)).filter (fun x => s.unstopped x.1 x.2.2)

def txLogReady (s : State) (core : CoreId) : Bool := (s.ctx core).txOwner.isNone && s.txLogLine core != []

def execTxLogGrant (core : CoreId) (s : State) : Host.Outcome State Fault Refusal :=
  .next (
    if txLogReady s core then
      match s.txLogLine core with
      | (c, k, _) :: _ => s.asGang c k (fun s => s.runBody (txbeginBody true))
      | [] => s
    else s)

/-! TXEND (05 R169, R170). -/

/-- Lanes of EXM with an open transaction; the irrevocable lane first, then ascending (R170). -/
def Gang.committers (g : Gang) : List (Fin 32) :=
  let a := (Mask.lanes g.regs.exm).filter (fun i => (g.tx.lanes[i]).isOpen)
  a.filter g.irrevocable ++ a.filter (fun i => !g.irrevocable i)

/-- CONFLICT (R167). -/
def Gang.conflict (g : Gang) (i : Fin 32) : Gang := g.abortLane i 1 true true 0 0 none

/-- Resolution: a lane whose words meet the write set of the lanes before it aborts. -/
def Gang.resolve (g : Gang) (ls : List (Fin 32)) : Gang × List (Fin 32) :=
  let (g, alive, _) := ls.foldl (fun (acc : Gang × List (Fin 32) × List Loc) i =>
    let t := acc.1.tx.lanes[i]
    let mine := t.reads.map Prod.fst ++ t.writes.map Prod.fst
    if mine.any (fun w => acc.2.2.contains w) && !acc.1.irrevocable i then (acc.1.conflict i, acc.2.1, acc.2.2)
    else (acc.1, acc.2.1 ++ [i], acc.2.2 ++ t.writes.map Prod.fst)) (g, [], [])
  (g, alive)

/-- Validation: a lane with a read entry that differs from its home aborts. -/
def State.validate (s : State) (g : Gang) (ls : List (Fin 32)) : Gang × List (Fin 32) :=
  ls.foldl (fun (acc : Gang × List (Fin 32)) i =>
    if (acc.1.tx.lanes[i]).reads.any (fun r => ofBytes (s.homeRead r.1 8) != r.2.toNat) && !acc.1.irrevocable i then
      (acc.1.conflict i, acc.2)
    else (acc.1, acc.2 ++ [i])) (g, [])

/-- Apply a write entry: the bytes the transaction has written. -/
def State.applyWrite (s : State) (core : CoreId) (w : Loc × DWord × BitVec 8) : State :=
  (List.range 8).foldl (fun s j =>
    if w.2.2.getLsbD j then s.homeWrite core (w.1.add j) [BitVec.ofNat 8 (w.2.1.toNat >>> (8 * j))] else s) s

/-- The commit: resolution, validation, the writes of the survivors in ascending lane order, TXSTAT of those that committed. -/
def State.commitLanes (s : State) (g : Gang) : State × Gang :=
  let core := s.cur.core
  let (g, alive) := g.resolve g.committers
  let (g, alive) := s.validate g alive
  let order := laneList.filter (fun i => alive.contains i)
  let s := order.foldl (fun s i => ((g.tx.lanes[i]).writes).foldl (fun s w => s.applyWrite core w) s) s
  let g := alive.foldl (fun g i =>
    (g.setTx i {}).modStat i (fun w => w &&& ~~~ (statOpen ||| 15#32))) g
  (s, g)

/-- Lanes of the construct that run again. -/
def Gang.retryLanes (g : Gang) : List (Fin 32) := laneList.filter (fun i => (g.tx.stat[i]).getLsbD 16)

/-- The lowest lane that needs the irrevocable token (R170). -/
def Gang.tokenLane (g : Gang) : Option (Fin 32) :=
  g.retryLanes.find? (fun i => decide (8 ≤ statTries g.tx.stat[i]) || statCause g.tx.stat[i] == 2)

/-- Run the lanes Y again from the word after TXBEGIN; tok holds the token. -/
def Gang.retryTx (g : Gang) (tok : Option (Fin 32)) : Gang :=
  let ys := g.retryLanes
  let g := ys.foldl (fun g i => (g.openLane i).modStat i (fun w =>
    let w := (w &&& ~~~ statRetry) ||| statOpen
    if tok = some i then w ||| statIrrev else w)) g
  ({ g with tx := { g.tx with irrev := tok } } : Gang).setExm (laneMask ys)

/-- Lanes whose fault was held until the construct's end (R168). -/
def Gang.heldFaults (g : Gang) : List (Fin 32 × Flt × Word) :=
  laneList.filterMap (fun i => (g.tx.lanes[i]).held.map (fun h => (i, h.1, h.2)))

/-- Park the held faults with the PC and stack of TXBEGIN; none when the records do not suffice. -/
def Gang.parkHeld (g : Gang) (tick : Nat) : Option Gang :=
  g.heldFaults.foldl (fun acc x => acc.bind (fun g =>
    g.park1 g.tx.begin_ x.2.2 g.stack x.2.1 (BitVec.twoPow 32 x.1.val) tick)) (some g)

/-- Close the construct: the log is free, and the oldest waiter for it takes the LT of this event (06 R199). -/
def State.closeTx (s : State) (core : CoreId) (lt : Nat) : State :=
  let s := s.modCtx core (fun x => { x with txOwner := none })
  match s.waiters [core] (fun w => w == .txLog) with
  | (c, k, _) :: _ => s.modGang c k (fun g => g.releasedAt lt)
  | [] => s

/-- The lanes, and the fault of the lowest, whose held faults find no free record when the construct closes: the gang then freezes before
its TXEND has any effect (01 R29, 05 R168). g is the gang after the commit. -/
def Gang.closeFault (g : Gang) (tick : Nat) : Option (Flt × Mask) :=
  if g.retryLanes = [] ∧ (g.parkHeld tick).isNone then
    g.heldFaults.head?.map (fun x => (x.2.1, laneMask (g.heldFaults.map Prod.fst)))
  else none

/-- The rest of a TXEND once its lanes have committed: lanes that run again go on after the TXBEGIN, or else the construct closes. -/
def txendTail (granted : Bool) (off : BitVec 20) (e : Entry) (rest : List Entry) (s : State) (g : Gang) : Res :=
  if g.retryLanes ≠ [] then
    let again (tok : Option (Fin 32)) : Res := .jump ((s.setMe (g.retryTx tok)).acquire s.cur.core 4) (branchTarget g.regs.pc off + 4)
    match g.tokenLane with
    | some i => if granted then again (some i) else .wait s .token
    | none => again none
  else
    let h := ({ g with stack := rest, tx := { g.tx with active := false } } : Gang).setExm e.mask
    let h := (h.parkHeld (s.now s.cur.core)).getD h
    .done (((s.setMe (laneList.foldl (fun g i => g.setTx i {}) h)).closeTx s.cur.core g.cnt.lt).acquire s.cur.core 4)

/-- TXEND; granted: the token has just been granted to this gang. -/
def txendBody (granted : Bool) (off : BitVec 20) (s : State) (g : Gang) : Res :=
  let core := s.cur.core
  let n := s.partNo core
  match g.stack with
  | e :: rest =>
    if e.kind ≠ .tx then .fault (flt .illegal)
    else
      s.ordGate g (fun _ => s.relGate g 4 (fun s g =>
        let words := g.committers.flatMap (fun i => (g.tx.lanes[i]).reads.map Prod.fst ++ (g.tx.lanes[i]).writes.map Prod.fst)
        if (s.parts[n]).token ∧ g.tx.irrev.isNone ∧ granted = false ∧ g.committers ≠ [] then .wait s .commit
        else if words.any (fun w => (s.ctx core).busy w 8) then .wait s .hazard
        else
          let (t, h) := s.commitLanes g
          let h := { h with tx := { h.tx with irrev := none } }
          match (({ h with stack := rest } : Gang).setExm e.mask).closeFault (s.now core) with
          | some (f, l) => .gone ((s.publishFault).freeze core s.cur.slot f l s.cur.word)
          | none =>
            let t := t.setMe h
            txendTail granted off e rest (if g.tx.irrev.isSome then t.releaseToken n else t) h))
  | [] => .fault (flt .illegal)

/-- TXEND (09 R315). -/
def execTxend (off : BitVec 20) (s : State) : Host.Outcome State Fault Refusal := runFull .u [] false (txendBody false off) s

/-- The gangs that wait for the irrevocable token and that no STOP halts (05 R170, 11 R403). -/
def State.tokenLine (s : State) (n : Fin 4) : List (CoreId × SlotId × Gang) :=
  (s.waiters (s.coresOf s.parts[n]) (fun w => w == .token)).filter (fun x => s.unstopped x.1 x.2.2)

/-- IRREVOCABLE_TOKEN_GRANT (05 R170): requests are granted oldest first. -/
def tokenReady (s : State) (n : Fin 4) : Bool := !(s.parts[n]).token && s.tokenLine n != []

def execIrrevocableTokenGrant (part : Fin 4) (s : State) : Host.Outcome State Fault Refusal :=
  .next (
    if tokenReady s part then
      match s.tokenLine part with
      | (c, k, g) :: _ =>
        match decode g.waitWord with
        | some (.txend off) =>
          (s.modPart part (fun p => { p with token := true })).asGang c k (fun s => s.runBody (txendBody true off))
        | _ => s
      | [] => s
    else s)

/-- TXABORT (09 R316). -/
def execTxabort (code : BitVec 8) (s : State) : Host.Outcome State Fault Refusal :=
  runFull .u [] false (fun s g =>
    if g.stack.any (fun e => e.kind == .tx) = false then .fault (flt .illegal)
    else
      .done (s.setMe ((Mask.lanes g.active).foldl (fun g i =>
        if (g.tx.lanes[i]).isOpen && !g.irrevocable i then g.abortLane i 3 false false 0 code.toNat none else g) g))) s

/-- TXSTAT (09 R317). -/
def execTxstat (d : VReg) (s : State) : Host.Outcome State Fault Refusal :=
  runFull .u [d.toNat] false (fun s g =>
    if g.wideE then .fault (flt .illegal) else .done (s.setMe (g.setV d (fun i => g.tx.stat[i])))) s

end Sys2Proof.Machine
end

