-- ==== Sys2Proof/Machine/Order.lean ====
section
/-! DEFINITION. The order of events in deterministic partitions (06 R198, R199), and the events that it holds back: an ordered event of a
running gang, and what ends a wait at an inbox, a ring, a bin or a launch queue. -/

namespace Sys2Proof.Machine

/-! Gangs that wait (06 R199). -/

/-- The ring request of a gang that its controller holds back. -/
def State.heldReq (s : State) (c : CoreId) (k : SlotId) : Option RingReq :=
  (s.coresOf (s.part c)).findSome? (fun d => (s.ctx d).ringReqs.find? (fun q => q.core == c && q.slot == k))

/-- Place of a slot's gang in a line. -/
def placeIn (l : List (CoreId × SlotId × Gang)) (c : CoreId) (k : SlotId) : Nat := (l.takeWhile (fun x => !(x.1 == c && x.2.1 == k))).length

/-- What the gang waits for has come, and its wait is yet to end. -/
def State.wakeDue (s : State) (c : CoreId) (k : SlotId) (g : Gang) : Bool :=
  match g.why? with
  | some .inbox | some .q14 => decide (placeIn (s.waiters [c] Why.inboxLine) c k < (s.ctx c).inbox.length)
  | some (.send d) => decide (placeIn (s.senders d) c k + (s.ctx d).inbox.length < inboxDepth)
  | some .ringBlocked =>
    match (s.heldReq c k).map s.ringAct with
    | some .block | none => false
    | some _ => true
  | some .binFull | some .launchQ | some .binDrain => movedOn s (s.resync c k launchWaitOf) c k
  | some .fewait => fewaitReady s c k
  | some .wmwait => wmwaitReady s c k
  | some .barI | some .barX => barwtReady s c k
  | some .full => qualifiedReady s c k
  | some (.queue _) => queueWakeReady s c k
  | some (.grow _) => (growHead s c).any (fun x => x.1 == k)
  | some .txLog => txLogReady s c && (s.txLogLine c).head?.any (fun x => x.2.1 == k)
  | _ => false

/-- The gang is released from its wait, but for the event that ends it. -/
def State.freed (s : State) (x : CoreId × SlotId × Gang) : Bool := x.2.2.lets && s.wakeDue x.1 x.2.1 x.2.2

/-- The key of a gang's event. -/
def State.keyOf (s : State) (x : CoreId × SlotId × Gang) : Nat × Nat × Nat := (x.2.2.cnt.lt, (s.origin x.1).toNat, x.2.1.val)

/-- Every other gang of the partition has a greater key, or is waiting (06 R199). -/
def State.keyFirst (s : State) (core : CoreId) (slot : SlotId) (g : Gang) : Bool :=
  let me := s.keyOf (core, slot, g)
  let n := s.partNo core
  (s.residents n).all (fun y =>
    let k : Nat × Nat × Nat := (y.2.2.cnt.lt, y.1.toNat, y.2.1.val)
    k == me || keyLess me k || y.2.2.lets) &&
  (s.gangsOf s.parts[n]).all (fun y => s.keyOf y == me || keyLess me (s.keyOf y) || !s.freed y)

/-- A gang's ordered event may take effect: at any time but in a deterministic partition. -/
def State.inTurn (s : State) (core : CoreId) (slot : SlotId) : Bool :=
  (s.part core).det = false || (s.gang? core slot).any (s.keyFirst core slot)

/-- The ordered event of a gang may take effect. -/
def orderedReady (s : State) (core : CoreId) (slot : SlotId) : Bool :=
  match s.gang? core slot with
  | some g => g.why? == some .ordered && s.keyFirst core slot g
  | none => false

/-- ORDERED_EVENT_RELEASE (06 R199): the gang's ordered event takes its turn at its next issue. -/
def execOrderedEventRelease (core : CoreId) (slot : SlotId) (s : State) : Host.Outcome State Fault Refusal :=
  .next (if orderedReady s core slot then
      (s.modGang core slot (fun g => { g with cnt := { g.cnt with ordOk := true } })).wake core slot
    else s)

/-! The inbox (06 R182, R183). -/

/-- INBOX_WAITER_ENTRY (06 R182): waiting senders enter in arrival order. -/
def inboxEntryReady (s : State) (core : CoreId) : Bool :=
  decide ((s.ctx core).inbox.length < inboxDepth) && (s.sendLine core).head?.any (fun x => s.inTurn x.1 x.2.1)

def execInboxWaiterEntry (core : CoreId) (s : State) : Host.Outcome State Fault Refusal :=
  .next (if inboxEntryReady s core then
      match s.sendLine core with
      | (c, k, g) :: _ =>
        match decode g.waitWord with
        | some (.send v t) => s.asGang c k (fun s => s.runBody (sendBody true v t))
        | _ => s
      | [] => s
    else s)

/-- WAITMSG_DELIVERY (06 R183): the oldest gang in line, at WAITMSG or at a pop of Q14. -/
def deliveryReady (s : State) (core : CoreId) : Bool := (s.ctx core).inbox != [] && (s.takeLine core).head?.any (fun x => s.inTurn x.1 x.2.1)

def execWaitmsgDelivery (core : CoreId) (s : State) : Host.Outcome State Fault Refusal :=
  .next (if deliveryReady s core then
      match s.takeLine core with
      | (c, k, g) :: _ =>
        match decode g.waitWord with
        | some .waitmsg => s.asGang c k (fun s => s.runBody (waitmsgBody true))
        | some (.qpop d _) => s.asGang c k (fun s => s.runBody (popQ14 true d))
        | _ => s
      | [] => s
    else s)

/-! Rings (06 R188). -/

/-- RING_REQUEST_APPLY (06 R188): requests in arrival order; a blocked one again when it no longer blocks. -/
def ringReady (s : State) (core : CoreId) (n : Nat) : Bool :=
  match (s.ctx core).ringReqs.find? (fun q => q.seq == n) with
  | some q =>
    !(s.core core).stopped && s.reqRuns q && q.walk.isNone &&
    (s.ctx core).ringReqs.all (fun p => decide (n ≤ p.seq) || p.blocked || !s.reqRuns p) &&
    (match s.ringAct q with
     | .block => !q.blocked
     | _ => !q.blocked || s.inTurn q.core q.slot)
  | none => false

def execRingRequestApply (core : CoreId) (n : Nat) (s : State) : Host.Outcome State Fault Refusal :=
  .next (if ringReady s core n then
      match (s.ctx core).ringReqs.find? (fun q => q.seq == n) with
      | some q => s.applyReq core q
      | none => s
    else s)

/-! Bins and launch queues (06 R176, R177, R185, R186, R198). -/

/-- Every gang of the partition waits, as a deterministic bin asks (06 R198, R199). -/
def State.allWaiting (s : State) (n : Fin 4) : Bool :=
  (s.residents n).all (fun y => y.2.2.lets) && (s.gangsOf s.parts[n]).all (fun y => !s.freed y)

/-- BIN_TIMER_EXPIRY (06 R185, R198). -/
def binTimerReady (s : State) (die : Fin 4) (n : Nat) : Bool :=
  match Tbl.get? (s.dies[die]).bins n, s.partOf die with
  | some b, some p =>
    match b.pending.head? with
    | some r => if (s.parts[p]).det then s.allWaiting p else decide (r.tick + b.t ≤ s.dieTick die)
    | none => false
  | _, _ => false

def execBinTimerExpiry (die : Fin 4) (bin : BitVec 8) (s : State) : Host.Outcome State Fault Refusal :=
  .next (if binTimerReady s die bin.toNat then
      match Tbl.get? (s.dies[die]).bins bin.toNat with
      | some b => ({ s with clock := s.clock + 1 }).setBin die bin.toNat (b.fire (s.dieTick die) s.clock)
      | none => s
    else s)

/-- The gangs of a die that wait for its launch queue, for a bin's room or for a bin's end, oldest first. -/
def State.launchLine (s : State) (d : Fin 4) : List (CoreId × SlotId × Gang) :=
  match s.partOf d with
  | some p => s.waiters ((s.coresOf s.parts[p]).filter (fun c => dieOf c == d)) isLaunchWait
  | none => []

/-- The waiters of a die try again, oldest first, after an event of LT lt that met the module in state s0. One that a STOP halts, or that the
order of events holds back, has its LT moved on and waits (06 R199, 11 R403). -/
def State.admitWaiters (s0 s : State) (d : Fin 4) (lt : Nat) : State :=
  (s.launchLine d).foldl (fun (s : State) (x : CoreId × SlotId × Gang) =>
    let t := if s0.wakeDue x.1 x.2.1 x.2.2 then s else s.releaseLt x.1 (some x) lt
    let u := t.resync x.1 x.2.1 launchWaitOf
    if movedOn s u x.1 x.2.1 = false then s
    else if s.unstopped x.1 x.2.2 && t.inTurn x.1 x.2.1 then u
    else t) s

/-- Such a gang goes on at a later turn: no older one of its die could. -/
def launchWaitReady (s : State) (core : CoreId) (slot : SlotId) : Bool :=
  (s.gang? core slot).any (fun g => g.why?.any isLaunchWait && s.wakeDue core slot g) && s.inTurn core slot &&
    ((s.launchLine (dieOf core)).takeWhile (fun x => !(x.1 == core && x.2.1 == slot))).all (fun x =>
      s.unstopped x.1 x.2.2 = false || !s.wakeDue x.1 x.2.1 x.2.2)

/-- GANG_PLACEMENT: the placement that comes first in the partition, when it is one of this die. -/
def placementReady (s : State) (die : Fin 4) : Bool :=
  match s.partOf die with
  | some p =>
    match s.bestCand s.parts[p] with
    | some (c, _) => c.die == die
    | none => false
  | none => false

def execGangPlacement (die : Fin 4) (s : State) : Host.Outcome State Fault Refusal :=
  .next (
    match s.partOf die with
    | some p =>
      match s.bestCand s.parts[p] with
      | some (c, t) => if c.die = die then s.admitWaiters t die c.lt else s
      | none => s
    | none => s)

end Sys2Proof.Machine
end

