-- ==== Sys2Proof/Machine/Privileged.lean ====
section
/-! DEFINITION. Supervision: SUPSET, FREEZE, RESUME, CPYRES, OBJINV, and the settings of a partition: RTNLD, ORTSET, CHANCTL,
PARTCTL (10 R372 to R378, R382 to R385; 11 R387, R402). -/

namespace Sys2Proof.Machine

/-! Addresses and authority (10 R372). -/

/-- A site that an operation names: in the partition and working. -/
def State.siteOk (s : State) (core c : CoreId) : Except Flt CoreId :=
  if s.samePart core c = false ∨ s.noCore c then .error { flt .notMapped with offset := c.zeroExtend 64 } else .ok c

/-- A core id in an S register. -/
def State.coreArg (s : State) (core : CoreId) (x : DWord) : Except Flt CoreId :=
  if bits x 63 12 ≠ 0 then .error (flt .illegal) else s.siteOk core (BitVec.ofNat 12 (bits x 11 0))

/-- A gang address: the core that holds the gang now, and the slot (10 R372, R380; 11 R402). -/
def State.gangArg (s : State) (core : CoreId) (x : DWord) : Except Flt (CoreId × SlotId) :=
  if bits x 63 15 ≠ 0 then .error (flt .illegal)
  else
    match s.siteOk core (BitVec.ofNat 12 (bits x 11 0)) with
    | .error f => .error f
    | .ok c => if s.gone c then .error { flt .notMapped with offset := c.zeroExtend 64 } else .ok (s.route c, slotOf (bits x 14 12))

/-- The executing gang is the supervisor of the core or of its die, or holds level P. -/
def State.mayControl (s : State) (g : Gang) (c : CoreId) : Bool :=
  g.priv == .p || s.supNames (s.core c).supv s.cur.core s.cur.slot ||
    s.supNames (s.dies[dieOf c]).dsupv s.cur.core s.cur.slot

/-- A gang that an instruction of level S may act on. -/
def State.controlArg (s : State) (g : Gang) (x : DWord) : Except Flt (CoreId × SlotId) :=
  match s.gangArg s.cur.core x with
  | .error f => .error f
  | .ok ck => if s.mayControl g ck.1 then .ok ck else .error (flt .privilege)

/-- Run a body on the value of a check, or fault. -/
def orFault {α : Type} (x : Except Flt α) (k : α → Res) : Res :=
  match x with
  | .error f => .fault f
  | .ok a => k a

/-! SUPSET (10 R375, 11 R387). -/

/-- The register that S[A] selects: SUPV of a core, or DSUPV of a die. -/
def State.supArg (s : State) (core : CoreId) (x : DWord) : Except Flt (CoreId ⊕ Fin 4) :=
  let c : CoreId := BitVec.ofNat 12 (bits x 11 0)
  if bits x 63 13 ≠ 0 ∨ (x.getLsbD 12 ∧ bits x 9 0 ≠ 0) then .error (flt .illegal)
  else if x.getLsbD 12 then
    if s.samePart core c then .ok (.inr (dieOf c)) else .error { flt .notMapped with offset := c.zeroExtend 64 }
  else (s.siteOk core c).map .inl

/-- SUPSET.core. -/
def execSupsetCore (a b : SReg) (s : State) : Host.Outcome State Fault Refusal :=
  runFull .p [] false (fun s g =>
    let v : BitVec 16 := (g.s b).truncate 16
    if bits (g.s b) 63 16 ≠ 0 then .fault (flt .illegal)
    else
      orFault (s.supArg s.cur.core (g.s a)) (fun r =>
        match r with
        | .inl c => .done (s.modCore c (fun k => { k with supv := v }))
        | .inr d => .done (s.modDie d (fun x => { x with dsupv := v })))) s

/-- SUPSET.priv. -/
def execSupsetPriv (a b : SReg) (s : State) : Host.Outcome State Fault Refusal :=
  runFull .p [] false (fun s g =>
    if 2 < (g.s b).toNat then .fault (flt .illegal)
    else
      orFault (s.gangArg s.cur.core (g.s a)) (fun ck =>
        match s.gang? ck.1 ck.2 with
        | none => .fault (flt .illegal)
        | some h =>
          let lv : Priv := if (g.s b).toNat = 0 then .u else if (g.s b).toNat = 1 then .s else .p
          .done (s.setGang ck.1 ck.2 { h with priv := lv }))) s

/-- SUPSET.get. -/
def execSupsetGet (a b : SReg) (s : State) : Host.Outcome State Fault Refusal :=
  runFull .p [] false (fun s g =>
    orFault (s.supArg s.cur.core (g.s a)) (fun r =>
      let v : BitVec 16 :=
        match r with
        | .inl c => (s.core c).supv
        | .inr d => (s.dies[d]).dsupv
      .done (s.setMe (g.setS b (v.zeroExtend 64))))) s

/-! FREEZE (10 R377). -/

/-- The gang's instruction has already had effects that its wait only completes: a freeze comes at the boundary after it. -/
def Why.underWay (w : Why) : Bool :=
  match w with
  | .acquire | .stream _ | .indexPass _ | .drain _ | .sc _ | .sysRead => true
  | _ => false

/-- Gangs that wait for a freeze, a stop, a cancellation or copies of other cores look again. -/
def Why.control (w : Why) : Bool :=
  match w with
  | .freezing | .stopping | .objinv | .wmset => true
  | _ => false

/-- The next instruction boundary of a gang that is to freeze: by FREEZE quietly, when hung with WATCHDOG (10 R377, 11 R407). -/
def State.boundary (s : State) (c : CoreId) (k : SlotId) : State :=
  match s.gang? c k with
  | none => s
  | some g =>
    let s := s.setGang c k { g with freezeReq := false }
    let s := s.dropRing c k
    if g.cnt.hung then s.freeze c k (flt .watchdog) g.active g.waitWord else s.freezeQuiet c k .none

/-- The gang stands at a boundary: it runs, or its wait is one that starts again. -/
def Gang.atBoundary (g : Gang) : Bool :=
  match g.status with
  | .running => true
  | .waiting w => !w.why.underWay
  | .frozen => false

/-- Body of FREEZE; the executing gang freezes itself at the boundary after it. -/
def freezeBody (a : SReg) (s : State) (g : Gang) : Res :=
  orFault (s.controlArg g (g.s a)) (fun ck =>
    if ck = (s.cur.core, s.cur.slot) then .done (s.setMe { g with freezeReq := true })
    else
      match s.gang? ck.1 ck.2 with
      | none => .done s
      | some h =>
        if h.status = .frozen then .done s
        else if h.atBoundary then .done (s.boundary ck.1 ck.2)
        else .wait (s.setGang ck.1 ck.2 { h with freezeReq := true }) .freezing)

/-- FREEZE. -/
def execFreeze (a : SReg) (s : State) : Host.Outcome State Fault Refusal := runFull .s [] false (freezeBody a) s

/-! RESUME (10 R375, R376; 01 R32). -/

/-- A frozen gang runs on at a PC, in a new watchdog window (11 R407). -/
def Gang.thaw (g : Gang) (pc : DWord) : Gang :=
  { g with
    status := .running
    freezeReq := false
    regs := { g.regs with pc := pc }
    cnt := { g.cnt with dog := 0, hung := false } }

/-- CONT: the gang goes on at its PC, in the replay that its freeze interrupted if there is one; a save that no replay has used is given
up (01 R32, log 73). -/
def Gang.cont (g : Gang) (pc : DWord) : Gang :=
  let g := g.thaw pc
  if g.replay then g else g.popReplay

/-- SKIP: the word at the PC, or at the head of the stream buffer when the gang executes from it, is passed over (11 R401). -/
def Gang.skip (g : Gang) : Gang :=
  let g := g.cont (g.regs.pc + 4)
  { g with chan := { g.chan with
    done := none, buf := if g.chan.role = .subscriber ∧ g.replay = false then g.chan.buf.tail else g.chan.buf } }

/-- REPLAY of parked-lane record n (01 R32): none when the record is empty or no convergence save is held. A lane that was given up
has left its record (log 77). -/
def Gang.replayRec (g : Gang) (n : Fin 8) (skip : Bool) : Option Gang :=
  match g.parked[n], g.save with
  | some r, some _ =>
    let g := g.thaw (if skip then r.pc + 4 else r.pc)
    some (({ g with
      parked := g.parked.set n.val none
      stack := r.stack.reverse
      replay := true
      regs := { g.regs with pkm := g.regs.pkm &&& ~~~ r.lanes } } : Gang).setExm r.lanes)
  | _, _ => none

/-- A gang of level P stays frozen while its partition is FAILED (11 R391). -/
def State.failedP (s : State) (c : CoreId) (g : Gang) : Bool := g.priv == .p && (s.part c).state == .failed

/-- RESUME of a frozen gang by an action word: none when it is refused. -/
def State.resume (s : State) (c : CoreId) (k : SlotId) (act : DWord) : Option State :=
  match s.gang? c k with
  | none => none
  | some g =>
    if g.status ≠ .frozen ∨ s.failedP c g ∨ bits act 63 6 ≠ 0 ∨ (bits act 1 0 ≠ 3 ∧ bits act 5 2 ≠ 0) then none
    else
      match bits act 1 0 with
      | 0 => some (s.setGang c k (g.cont g.regs.pc))
      | 1 => some (s.setGang c k g.skip)
      | 2 => some (s.killGang c k)
      | _ => (g.replayRec (slotOf (bits act 4 2)) (act.getLsbD 5)).map (fun g => s.setGang c k g)

/-! CPYRES (10 R378). -/

/-- The stopped command that a gang address and a command slot name. -/
def State.stoppedCopy (s : State) (c : CoreId) (k : SlotId) (n : DWord) : Option (Nat × Copy) :=
  if bits n 63 10 ≠ 0 then none
  else
    match s.copy? c n.toNat with
    | some y => if y.slot = k ∧ y.stop.isSome then some (n.toNat, y) else none
    | none => none

/-- A stopped command runs again from its chunk. -/
def State.resumeCopy (s : State) (c : CoreId) (n : Nat) (y : Copy) : State := s.setCopy c n { y with stop := none, hold := none }

/-- RESUME of a frozen gang (10 R375), but for one that Fount holds, which stays frozen until FRESUME (15 R467, log 57). -/
def execResume (a b : SReg) (s : State) : Host.Outcome State Fault Refusal :=
  runFull .s [] false (fun s g =>
    orFault (s.controlArg g (g.s a)) (fun ck =>
      if s.heldBy ck.1 ck.2 none then .fault (flt .illegal)
      else
        match s.resume ck.1 ck.2 (g.s b) with
        | some t => .done t
        | none => .fault (flt .illegal))) s

/-- CPYRES. -/
def execCpyres (a b : SReg) (s : State) : Host.Outcome State Fault Refusal :=
  runFull .s [] false (fun s g =>
    orFault (s.controlArg g (g.s a)) (fun ck =>
      match s.stoppedCopy ck.1 ck.2 (g.s b) with
      | some (n, y) => if s.heldBy ck.1 ck.2 (some n) then .fault (flt .illegal) else .done (s.resumeCopy ck.1 n y)
      | none => .fault (flt .illegal))) s

/-- Body of CPYRES.can; again: its command was cancelled at an earlier turn. -/
def cpyresCanBody (again : Bool) (a b : SReg) (s : State) (g : Gang) : Res :=
  orFault (s.controlArg g (g.s a)) (fun ck =>
    let n := (g.s b).toNat
    let gone (s : State) : Res := if (s.copy? ck.1 n).any (fun y => y.slot == ck.2 && y.dying) then .wait s .stopping else .done s
    if again then gone s
    else
      match s.stoppedCopy ck.1 ck.2 (g.s b) with
      | some (n, y) =>
        if s.heldBy ck.1 ck.2 (some n) then .fault (flt .illegal) else gone ((s.resumeCopy ck.1 n y).cancelCopy ck.1 n)
      | none => .fault (flt .illegal))

/-- CPYRES.can. -/
def execCpyresCan (a b : SReg) (s : State) : Host.Outcome State Fault Refusal :=
  runFull .s [] false (cpyresCanBody false a b) s

/-! OBJINV (02 R73, R74; 10 R382). -/

/-- Frames of cached map entries that satisfy a test on the object id. -/
def Part.frames (p : Part) (t : Nat → Bool) : List Nat :=
  (p.maps.filter (fun m => t (m.1 / 2 ^ 24))).map (fun m => m.2.toNat % 2 ^ 32)

/-- A place lies in one of some frames. -/
def Loc.inFrames (l : Loc) (fs : List Nat) : Bool :=
  match l with
  | .phys a => fs.contains (a / 65536)
  | _ => false

/-- Accesses of a context under way to some frames: loads, atomics, buffered writes, chunks, and the logs of open transactions, which
reach memory at TXEND. -/
def Ctx.touches (x : Ctx) (fs : List Nat) : Bool :=
  x.gangs.any (fun kg => kg.2.tx.lanes.toList.any (fun t => t.isOpen &&
    (t.reads.any (fun r => r.1.inFrames fs) || t.writes.any (fun w => w.1.inFrames fs)))) ||
  x.flights.any (fun f => f.2.loc.inFrames fs) || x.buf.any (fun b => b.loc.inFrames fs) ||
    x.copies.any (fun y => y.2.sent.any (fun z => z.puts.any (fun p => p.1.inFrames fs)))

/-- Accesses of a partition under way to some frames, saved ones among them. -/
def State.underWay (s : State) (n : Fin 4) (fs : List Nat) : Bool :=
  let p := s.parts[n]
  (s.coresOf p).any (fun c => (s.ctx c).touches fs || (match (s.core c).tarn with
    | some x => x.touches fs
    | none => false)) || (p.spills.filter (fun x => !p.filled.contains x.1)).any (fun x => x.2.touches fs)

/-- The engines' accesses of a context that wait for a relocation of some objects try again (02 R74). -/
def Ctx.rewalk (x : Ctx) (t : Nat → Bool) : Ctx :=
  let again (w : Option Nat) : Option Nat := if w.any t then none else w
  { x with
    copies := x.copies.map (fun y => (y.1, { y.2 with walk := again y.2.walk }))
    ops := x.ops.map (fun o => { o with walk := again o.walk })
    ringReqs := x.ringReqs.map (fun r => { r with walk := again r.walk }) }

/-- Drop the cached records and entries of objects, and let the accesses that wait for them retry (02 R73, R74). -/
def State.invalidate (s : State) (n : Fin 4) (t : Nat → Bool) : State :=
  let s := s.modPart n (fun p => { p with
    recs := p.recs.filter (fun r => !t r.1), maps := p.maps.filter (fun m => !t (m.1 / 2 ^ 24))
    spills := p.spills.map (fun x => (x.1, x.2.rewalk t)) })
  let s := (s.coresOf s.parts[n]).foldl (fun (s : State) c =>
    s.modCore c (fun k => { k with ctx := k.ctx.rewalk t, tarn := k.tarn.map (fun x => x.rewalk t) })) s
  let wakes (w : Why) : Bool :=
    match w with
    | .moving id => t id
    | _ => false
  (s.waiters (s.coresOf s.parts[n]) wakes).foldl (fun (s : State) (x : CoreId × SlotId × Gang) => s.wake x.1 x.2.1) s

/-- Invalidate once nothing that a dropped entry translated is under way. -/
def State.invalidateWhenDone (s : State) (t : Nat → Bool) (k : State → Res) : Res :=
  let n := s.partNo s.cur.core
  if s.underWay n ((s.parts[n]).frames t) then .wait s .objinv else k (s.invalidate n t)

/-- Body of OBJINV. -/
def objinvBody (a : SReg) (s : State) (g : Gang) : Res :=
  if bits (g.s a) 63 24 ≠ 0 then .fault (flt .illegal)
  else s.invalidateWhenDone (fun id => id == (g.s a).toNat) .done

/-- OBJINV. -/
def execObjinv (a : SReg) (s : State) : Host.Outcome State Fault Refusal := runFull .s [] false (objinvBody a) s

/-! RTNLD and RTNCLR (10 R382, 05 R161, R162). -/

/-- n bytes of the gang's scratchpad at a LOCAL offset, a multiple of 64; a wait while a write of the core to them is under way. -/
def State.localBlock (s : State) (off : DWord) (k : List Byte → Res) : Res :=
  let o := off.toNat
  if o % 64 ≠ 0 then .fault { flt .misaligned with offset := off }
  else if padEnd < o + 64 then .fault { flt .capBounds with offset := off }
  else if (s.ctx s.cur.core).busy (.pad s.cur.core o) 64 then .wait s .hazard
  else if s.lostAt (.pad s.cur.core o) 64 then .fault { flt .dataError with offset := off }
  else k (s.homeRead (.pad s.cur.core o) 64)

/-- RTNLD. -/
def execRtnld (a b : SReg) (s : State) : Host.Outcome State Fault Refusal :=
  runFull .p [] false (fun s g =>
    if 63 < (g.s a).toNat then .fault (flt .illegal)
    else s.localBlock (g.s b) (fun bytes =>
      let ws := recParse bytes
      if ws.zipIdx.all (fun w => routineWord w.2 w.1) then
        .done (s.modPart (s.partNo s.cur.core) (fun p => { p with routines := Tbl.put p.routines (g.s a).toNat ws }))
      else .fault (flt .illegal))) s

/-- RTNCLR. -/
def execRtnclr (a : SReg) (s : State) : Host.Outcome State Fault Refusal :=
  runFull .p [] false (fun s g =>
    if 63 < (g.s a).toNat then .fault (flt .illegal)
    else .done (s.modPart (s.partNo s.cur.core) (fun p => { p with routines := Tbl.del p.routines (g.s a).toNat }))) s

/-! ORTSET (10 R383, 02 R67). -/

/-- The layout's byte just past the element of the largest offset in shape (02 R66, R67). -/
def ObjRec.extent (r : ObjRec) : Nat :=
  let n := fmtBits r.fmt
  let outer := ((r.dims.zip r.strides).take (r.rank - 1)).foldl (fun t x => t + (x.1 - 1) * x.2.natAbs) 0
  let inner := (r.dims.getLast?).getD 1 - 1
  let innerStride := ((r.strides.getLast?).getD 1).natAbs
  match r.layout with
  | 0 => (outer + inner * innerStride) * (n / 8) + n / 8
  | 1 =>
    let s := max 1 (n / 8)
    let lb := roundUpTo (r.inner * s) 128
    let row := outer / max 1 (lb / s)
    let q := inner * s
    ((row / 32) * (lb / 128) + q / 128) * 4096 + row % 32 * 128 + q % 128 + s
  | 2 =>
    let row := outer / roundUpTo r.inner 1024
    let h := inner / 1024
    let j := inner % 1024
    row * r.planarF +
      (if fmtBni r.fmt then r.planarC * n * 128 + h * 32 + j / 32 + 1 else h * n * 128 + (n - 1) * 128 + j / 8 + 1)
  | _ => ((outer + inner) * n + n - 1) / 8 + 1

/-- The strides meet the layout (02 R66). -/
def ObjRec.stridesOk (r : ObjRec) : Bool :=
  let n := fmtBits r.fmt
  let outer := r.strides.take (r.rank - 1)
  let last := (r.strides.getLast?).getD 1
  match r.layout with
  | 0 => outer.all (fun t => t.natAbs * (n / 8) % 128 == 0)
  | 1 => last == 1 && outer.all (fun t => t.natAbs % max 1 (roundUpTo (r.inner * (n / 8)) 128 / max 1 (n / 8)) == 0)
  | 2 => last == 1 && outer.all (fun t => t.natAbs % roundUpTo r.inner 1024 == 0)
  | _ => last == 1 && outer.all (fun t => t.natAbs * n % 1024 == 0)

/-- The nested test of 02 R67 over extents and strides, ascending by stride. -/
def nestedFrom (sum : Nat) : List (Nat × Nat) → Bool
  | [] => true
  | (e, t) :: rest => decide (t ≠ 0) && decide (sum < t) && nestedFrom (sum + (e - 1) * t) rest

def ObjRec.nested (r : ObjRec) : Bool :=
  nestedFrom 0 (sortBy (fun x => x.2) ((r.dims.zip (r.strides.map Int.natAbs)).filter (fun x => decide (1 < x.1))))

/-- Why a record is refused for an id, with the code of 10 R383; none when it is admitted. DESIGN CHOICE (log 101): of several codes that
apply, the lowest is given. -/
def recordRefusal (ortSize id : Nat) (r : ObjRec) : Option Nat :=
  if r.rank = 0 ∨ 5 < r.rank ∨ r.rsv ∨ r.state = 3 ∨ r.dims.any (· == 0) ∨ (r.shape.drop r.rank).any (· != 0)
      ∨ (r.stride.drop r.rank).any (· != 0) then some 1
  else if fmtLayout r.fmt r.layout = false ∨ r.stridesOk = false then some 2
  else if r.nsub * 65536 < r.extent then some 3
  else if holds r.perm pW ∧ (r.strides.any (fun t => decide (t < 0)) ∨ r.nested = false) then some 4
  else if holds r.perm pX ∧ holds r.perm pW then some 5
  else if ortSize ≤ id then some 6
  else none

/-- Body of ORTSET.base; the table lies in one stack of the partition (12 R433). -/
def ortsetBaseBody (a b : SReg) (s : State) (g : Gang) : Res :=
  let base := (g.s a).toNat
  let size := (g.s b).toNat
  let p := s.part s.cur.core
  if base % 64 ≠ 0 ∨ 2 ^ 48 ≤ base ∨ size = 0 ∨ 2 ^ 24 < size ∨ p.ownsPa base = false ∨ p.ownsPa (base + 64 * size - 1) = false ∨
      (base + 64 * size - 1) / 2 ^ 36 ≠ base / 2 ^ 36 then .fault (flt .illegal)
  else s.invalidateWhenDone (fun _ => true) (fun s =>
    .done (s.modPart (s.partNo s.cur.core) (fun p => { p with ortBase := base, ortSize := size })))

/-- ORTSET.base. -/
def execOrtsetBase (a b : SReg) (s : State) : Host.Outcome State Fault Refusal := runFull .p [] false (ortsetBaseBody a b) s

/-- Write a record into its slot of the ORT. -/
def State.writeRecord (s : State) (core : CoreId) (id : Nat) (b : List Byte) : State :=
  s.homeWrite core (.phys ((s.part core).ortBase + 64 * id)) b

/-- ORTSET.rec. -/
def execOrtsetRec (a b : SReg) (s : State) : Host.Outcome State Fault Refusal :=
  runFull .p [] false (fun s g =>
    let id := (g.s a).toNat
    if 2 ^ 24 ≤ id then .fault (flt .illegal)
    else s.localBlock (g.s b) (fun bytes =>
      match recordRefusal (s.part s.cur.core).ortSize id (ObjRec.parse bytes) with
      | some k => .fault { flt .illegal with offset := BitVec.ofNat 64 k }
      | none => .done (s.writeRecord s.cur.core id bytes))) s

/-! CHANCTL (10 R384, 12 R435, R436). -/

/-- The die of a table entry, and whether a partition holds it. -/
def Part.hasEntry (p : Part) (e : Nat) : Bool :=
  decide (e < 64) && p.has ⟨e / 16 % 4, Nat.mod_lt _ (by decide)⟩

/-- An endpoint code that a partition may use. -/
def Part.hasEnd (p : Part) (e : Nat) : Bool :=
  if e < 4 then p.has ⟨e % 4, Nat.mod_lt _ (by decide)⟩ else decide (16 ≤ e) && p.ports.getLsbD (e - 16)

/-- Two descriptors share a die side and a wavelength. -/
def wavesMeet (x y : DWord) : Bool :=
  let ends (d : DWord) : List Nat := [bits d 4 0, bits d 9 5].filter (fun e => decide (e < 4))
  let lo (d : DWord) : Nat := bits d 17 12
  let hi (d : DWord) : Nat := bits d 17 12 + bits d 23 18
  (ends x).any (fun e => (ends y).contains e) && decide (lo x ≤ hi y) && decide (lo y ≤ hi x)

/-- CHANCTL.set may write this descriptor into an entry (12 R436). -/
def State.circuitOk (s : State) (n : Fin 4) (e : Nat) (d : DWord) : Bool :=
  let p := s.parts[n]
  let a := bits d 4 0
  let b := bits d 9 5
  let cls := bits d 11 10
  let live := s.circuits.toList.filter (fun c => c.valid)
  p.hasEntry e && bits d 63 24 == 0 && p.hasEnd a && p.hasEnd b && a != b && !(decide (16 ≤ a) && decide (16 ≤ b)) &&
    (cls == 0 || (decide (a < 4) && decide (b < 4) && bits d 23 18 == 0)) &&
    !((cls == 1 || cls == 2) && live.any (fun c => c.part == n && c.cls == cls &&
        ((c.epa == a && c.epb == b) || (c.epa == b && c.epb == a)))) &&
    decide (bits d 17 12 + bits d 23 18 ≤ 63) && !live.any (fun c => wavesMeet c.desc d) &&
    !((s.circuits.toList[e]?).any (fun c => c.valid))

/-- Write a table entry. -/
def State.setCircuit (s : State) (e : Nat) (c : Circuit) : State :=
  { s with circuits := s.circuits.set (e % 64) c (Nat.mod_lt _ (by decide)) }

/-- CHANCTL.set. -/
def execChanctlSet (a b : SReg) (s : State) : Host.Outcome State Fault Refusal :=
  runFull .p [] false (fun s g =>
    let n := s.partNo s.cur.core
    if s.circuitOk n (g.s a).toNat (g.s b) then
      .done (s.setCircuit (g.s a).toNat { valid := true, tuned := true, part := n, desc := g.s b })
    else .fault (flt .illegal)) s

/-- Where the packets of a channel come from: its publisher's present site, or else the site that its number leads to (01 R48). -/
def State.channelSite (s : State) (p : Part) (chan : CoreId) : CoreId :=
  (((s.allGangs p).find? (fun x => x.2.2.chan.role == .publisher && x.2.2.channelAt x.1 == chan)).map Prod.fst).getD (s.route chan)

/-- A teardown that 10 R384 refuses; the subscriptions of saved contexts count. -/
def State.circuitHeld (s : State) (n : Fin 4) (c : Circuit) : Bool :=
  let p := s.parts[n]
  let joins (x y : CoreId) : Bool :=
    ((dieOf x).val == c.epa && (dieOf y).val == c.epb) || ((dieOf x).val == c.epb && (dieOf y).val == c.epa)
  c.valid && (c.cls == 3 ||
    (c.cls == 1 && (s.allGangs p).any (fun x =>
      (x.2.2.chan.role == .waiting || x.2.2.chan.role == .subscriber) && joins x.1 (s.channelSite p x.2.2.chan.chan))) ||
    (c.cls == 2 && (s.gangsOf p).any (fun x => match x.2.2.why? with
      | some (.sc _) => true
      | _ => false)))

/-- CHANCTL.clr. -/
def execChanctlClr (a : SReg) (s : State) : Host.Outcome State Fault Refusal :=
  runFull .p [] false (fun s g =>
    let n := s.partNo s.cur.core
    let e := (g.s a).toNat
    if (s.parts[n]).hasEntry e = false ∨ (s.circuits.toList[e]?).any (fun c => s.circuitHeld n c) then .fault (flt .illegal)
    else .done (s.setCircuit e {})) s

/-! PARTCTL (10 R385). -/

/-- The working sites of a partition. -/
def State.sitesOf (s : State) (p : Part) : List CoreId :=
  (p.dieList.flatMap (fun d => (List.range 1024).map (fun k => BitVec.ofNat 12 (d.val * 1024 + k)))).filter (fun c => !s.noCore c)

/-- Every core of the partition is stopped. -/
def State.allStopped (s : State) (p : Part) : Bool := (s.sitesOf p).all (fun c => (s.core c).stopped)

/-- A setting's value. -/
def Part.setting (p : Part) (k : Nat) : Nat :=
  match k with
  | 0 => if p.det then 1 else 0
  | 1 => p.msg
  | 2 => p.dlC
  | 3 => p.dlM
  | 4 => p.dlS
  | _ => p.wdog

def Part.withSetting (p : Part) (k v : Nat) : Part :=
  match k with
  | 0 => { p with det := v == 1 }
  | 1 => { p with msg := v }
  | 2 => { p with dlC := v }
  | 3 => { p with dlM := v }
  | 4 => { p with dlS := v }
  | _ => { p with wdog := v }

/-- A value that a setting takes. -/
def settingOk (k v : Nat) : Bool :=
  match k with
  | 0 => decide (v ≤ 1)
  | 1 => v == 64 || v == 128 || v == 192 || v == 256
  | 2 | 3 | 4 => decide (1 ≤ v) && decide (v ≤ 2 ^ 20)
  | 5 => decide (16 ≤ v) && decide (v ≤ 32)
  | _ => false

/-- PARTCTL; a change of DET changes PARTSTAT (12 R419, R430). -/
def execPartctl (k : BitVec 3) (a b : SReg) (s : State) : Host.Outcome State Fault Refusal :=
  runFull .p [] false (fun s g =>
    let n := s.partNo s.cur.core
    let p := s.parts[n]
    let v := (g.s a).toNat
    if settingOk k.toNat v = false ∨ (k.toNat = 0 ∧ s.allStopped p = false) then .fault (flt .illegal)
    else
      let q := p.withSetting k.toNat v
      let t := s.setPart n q
      .done ((if q.det = p.det then t else t.cause n 1).setMe (g.setS b (BitVec.ofNat 64 (p.setting k.toNat))))) s

end Sys2Proof.Machine
end

