-- ==== Sys2Proof/Machine/Packets.lean ====
section
/-! DEFINITION. Fault packets on their way: hops, record areas, and which packet may move (11 R388 to R390). -/

namespace Sys2Proof.Machine

/-- The packet as an ESCALATION for Fount (11 R389). -/
def Packet.escalated (p : Packet) : Packet :=
  { target := .fount
    rec_ := { p.rec_ with hop := min 3 p.rec_.hop
                          flt := { p.rec_.flt with code := .escalation, offset := BitVec.ofNat 64 p.rec_.flt.code.num } } }

/-- One hop on. -/
def Packet.pass (p : Packet) (t : Target) : Packet :=
  let q : Packet := { target := t, rec_ := { p.rec_ with hop := p.rec_.hop + 1 } }
  if 3 < q.rec_.hop then q.escalated else q

/-- What becomes of a packet at its sender: it goes on to another target, it enters the entry of a gang, or it enters Fount's
queue. None while it waits. -/
inductive Hop
  | pass (p : Packet)
  | enter (core : CoreId) (slot : SlotId) (n : Nat)
  | fount
  | wait

/-- Granules of entry n of a slot's record area. -/
def areaEntry (k : SlotId) (n : Nat) : Nat := 0x38000 + 2048 * k.val + 64 * (n % 32)

/-- The gang that a packet is bound for. -/
def State.boundFor (s : State) (c : CoreId) (p : Packet) : Option (CoreId × SlotId × Gang) :=
  match p.target with
  | .supv => s.supGang c (s.core c).supv
  | .dsupv => s.supGang c (s.dies[dieOf c]).dsupv
  | .fount => none

/-- Another packet reached a gang before a place in its line (R390 item 3). -/
def State.lineAhead (s : State) (c x : CoreId) (k : SlotId) (place : Nat) : Bool :=
  (s.coresOf (s.part c)).any (fun d => (s.ctx d).packets.any (fun q =>
    q.2.reached.any (fun n => decide (n < place)) && (match s.boundFor d q.2 with
      | some (y, j, _) => y == x && j == k
      | none => false)))

/-- What becomes of a packet now. -/
def State.hopOf (s : State) (c : CoreId) (p : Packet) : Hop :=
  let at_ (r : Option (CoreId × SlotId × Gang)) (next : Target) : Hop :=
    match r with
    | none => .pass (p.pass next)
    | some (x, k, g) =>
      if x == c && k.val == p.rec_.slot then .pass p.escalated
      else if g.status = .frozen then .pass (p.pass next)
      else
        let e := areaEntry k g.cnt.packets
        if (granulesOf e 64).any ((s.ctx x).full.has) || s.lineAhead c x k (p.reached.getD s.clock) then .wait
        else .enter x k g.cnt.packets
  if 3 < p.rec_.hop then .pass p.escalated
  else
    match p.target with
    | .supv => at_ (s.boundFor c p) .dsupv
    | .dsupv => at_ (s.boundFor c p) .fount
    | .fount => .fount

/-- The packet of a core under a key, when it is its gang's oldest. -/
def State.packet? (s : State) (n : Nat) : Option (CoreId × Nat × Packet) :=
  let c : CoreId := BitVec.ofNat 12 (n % 4096)
  let k := n / 4096
  match Tbl.get? (s.ctx c).packets k with
  | some p => if (s.ctx c).packets.any (fun x => decide (x.1 < k) && x.2.rec_.slot == p.rec_.slot) then none else some (c, k, p)
  | none => none

/-- A packet that goes on now: n is the sender's core id plus 4,096 times the packet's key. One that STOP saved does not (R402). -/
def State.deliverable (s : State) (n : Nat) : Bool :=
  match s.packet? n with
  | some (c, _, p) => !p.kept && (match s.hopOf c p with
    | .wait => false
    | _ => true)
  | none => false

/-- FAULT_PACKET_DELIVERY: the packet goes on, or it takes its place in the line for an entry (R390). -/
def deliveryDue (s : State) (n : Nat) : Bool :=
  s.deliverable n || (match s.packet? n with
    | some (_, _, p) => !p.kept && p.reached.isNone
    | none => false)

end Sys2Proof.Machine
end

