-- ==== Sys2Proof/Machine/Contexts.lean ====
section
/-! DEFINITION. STOP and START, contexts and migration (10 R373, R379 to R381; 11 R403 to R406). -/

namespace Sys2Proof.Machine

/-! STOP and START (10 R381, 11 R403). -/

/-- Change some cores, one after another. -/
def State.modCores (s : State) (cs : List CoreId) (f : Core → Core) : State := cs.foldl (fun (s : State) c => s.modCore c f) s

/-- A gang that a STOP halts: its open transactions abort with PREEMPT (05 R171). -/
def Gang.preempt (g : Gang) : Gang := if g.priv = .p ∨ g.tx.active = false then g else g.abortAll 5 0

/-- A core is stopped: it issues nothing more. -/
def Core.stop (k : Core) : Core :=
  { k with stopped := true, ctx := { k.ctx with slots := k.ctx.slots.map (fun g => g.map Gang.preempt) } }

/-- STOP halts what a slot holds: all but a gang of level P (10 R373). -/
def Ctx.halts (x : Ctx) (k : SlotId) : Bool :=
  match x.slots[k.val] with
  | some g => g.priv != .p
  | none => true

/-- Packets of gangs below level P that have not been delivered are saved (R402). -/
def Core.keepPackets (k : Core) : Core :=
  { k with ctx := { k.ctx with packets := k.ctx.packets.map (fun p =>
    (p.1, if k.ctx.halts (slotOf p.2.rec_.slot) then { p.2 with kept := true, reached := none } else p.2)) } }

/-- A core runs again, and its saved packets are sent again (R402). -/
def Core.start (k : Core) : Core :=
  { k with stopped := false, ctx := { k.ctx with packets := k.ctx.packets.map (fun p => (p.1, { p.2 with kept := false })) } }

/-- What a stopped core sent is complete: accesses of its gangs below level P, sequentially consistent operations, chunks that
may land, packets to subscribers of its die (01 R48), and fault packets that can be delivered (11 R402, R403). -/
def State.quiet (s : State) (c : CoreId) : Bool :=
  let x := s.ctx c
  x.flights.all (fun f => !x.halts f.2.slot) &&
    x.gangs.all (fun kg => kg.2.priv == .p || (match kg.2.why? with
      | some (.sc _) | some (.sysRead) => false
      | _ => true)) &&
    x.copies.all (fun y => y.2.sent.all (fun z => (s.landable c y.1 z.dest).isNone)) &&
    (s.core c).inFlight.all (fun p => decide (p.2.tick + 12 ≤ s.now c)) &&
    x.packets.all (fun p => !x.halts (slotOf p.2.rec_.slot) || !s.deliverable (c.toNat + 4096 * p.1))

/-- The core is stopped and has halted. -/
def State.halted (s : State) (c : CoreId) : Bool := (s.core c).stopped && s.quiet c

/-- Body of STOP on some sites. -/
def stopBody (cs : List CoreId) (s : State) : Res :=
  let s := s.modCores (cs.filter (fun c => !(s.core c).stopped)) Core.stop
  if cs.all s.halted then .done (s.modCores cs Core.keepPackets) else .wait s .stopping

/-- STOP.part. -/
def stopPartBody (s : State) (_ : Gang) : Res := stopBody (s.sitesOf (s.part s.cur.core)) s

def execStopPart (s : State) : Host.Outcome State Fault Refusal := runFull .p [] false stopPartBody s

/-- STOP.core. -/
def stopCoreBody (a : SReg) (s : State) (g : Gang) : Res := orFault (s.coreArg s.cur.core (g.s a)) (fun c => stopBody [c] s)

def execStopCore (a : SReg) (s : State) : Host.Outcome State Fault Refusal := runFull .p [] false (stopCoreBody a) s

/-- START of some stopped cores. A FAILED partition does not run again (11 R391). -/
def State.started (s : State) (cs : List CoreId) : State :=
  if (s.part s.cur.core).state = .failed then s else s.modCores cs Core.start

/-- START.part. -/
def execStartPart (s : State) : Host.Outcome State Fault Refusal :=
  runFull .p [] false (fun s _ => .done (s.started ((s.sitesOf (s.part s.cur.core)).filter (fun c => (s.core c).stopped)))) s

/-- START.core. -/
def execStartCore (a : SReg) (s : State) : Host.Outcome State Fault Refusal :=
  runFull .p [] false (fun s g => orFault (s.coreArg s.cur.core (g.s a)) (fun c => .done (s.started [c]))) s

/-! Contexts (10 R379, 11 R405). -/

/-- Waits that what happens elsewhere ends: a gang saved in one looks again. -/
def Why.elsewhere (w : Why) : Bool :=
  match w with
  | .ring | .ringBlocked | .commit | .hazard | .moving _ => true
  | _ => false

/-- A gang saved with its context: held flags are ORed in (03 R108); a gang at a ring makes its request again. -/
def Gang.saved (g : Gang) : Gang :=
  { g.deliverHeld with status := if g.why?.any Why.elsewhere then .running else g.status }

/-- The context of a core as it is saved, with its origin id (11 R406). -/
def State.savedCtx (s : State) (c : CoreId) : Ctx :=
  { s.ctx c with slots := (s.ctx c).slots.map (fun g => g.map Gang.saved), origin := some (s.origin c) }

/-- An empty context over the scratchpad that a core holds (10 R379). -/
def Ctx.emptied (x : Ctx) : Ctx := { Ctx.fresh with pad := x.pad, full := x.full, tags := x.tags, lost := x.lost }

/-- Ring requests of a core's gangs are withdrawn. -/
def State.dropRings (s : State) (c : CoreId) : State := slotList.foldl (fun (s : State) k => s.dropRing c k) s

/-- The core holds a gang of level P (10 R373). -/
def State.hasP (s : State) (c : CoreId) : Bool := (s.ctx c).gangs.any (fun kg => kg.2.priv == .p)

/-- The read claims of a core's operations, and those on its own granules, that can be granted are (04 R133, R138). -/
def State.regrantCtx (s : State) (c : CoreId) : State :=
  ((c :: (s.ctx c).ops.flatMap (fun o => o.claims.map Claim.core)).eraseDups).foldl State.regrant s

/-- Give a core a context; its read cache holds nothing of it. -/
def State.install (s : State) (c : CoreId) (x : Ctx) : State :=
  (s.modCore c (fun k => { k with ctx := x, cache := [], left := false })).regrantCtx c

/-- CTXSAVE. -/
def execCtxsave (a : SReg) (s : State) : Host.Outcome State Fault Refusal :=
  runFull .p [] false (fun s g => orFault (s.coreArg s.cur.core (g.s a)) (fun c =>
    let k := s.core c
    if s.halted c = false ∨ s.hasP c ∨ k.ctx.empty ∨ k.tarn.isSome then .fault (flt .illegal)
    else
      let s := s.dropRings c
      let x := s.savedCtx c
      .done ((s.modCore c (fun k => { k with tarn := some x })).install c k.ctx.emptied))) s

/-- CTXSWAP: what it brings in is brought in as by CTXLOAD (10 R379), and a context whose digest is wrong is not (11 R405). -/
def execCtxswap (a : SReg) (s : State) : Host.Outcome State Fault Refusal :=
  runFull .p [] false (fun s g => orFault (s.coreArg s.cur.core (g.s a)) (fun c =>
    let k := s.core c
    if s.halted c = false ∨ s.hasP c ∨ k.tarn.any Ctx.spoiled then .fault (flt .illegal)
    else
      let s := s.dropRings c
      let out := if k.ctx.empty then none else some (s.savedCtx c)
      .done ((s.modCore c (fun k => { k with tarn := out })).install c ((s.core c).tarn.getD k.ctx.emptied)))) s

/-- CTXLOAD: of a context whose digest is wrong nothing is loaded (11 R405). -/
def execCtxload (a : SReg) (s : State) : Host.Outcome State Fault Refusal :=
  runFull .p [] false (fun s g => orFault (s.coreArg s.cur.core (g.s a)) (fun c =>
    let k := s.core c
    match k.tarn with
    | some x =>
      if s.halted c = false ∨ k.ctx.empty = false ∨ x.spoiled then .fault (flt .illegal)
      else .done ((s.modCore c (fun k => { k with tarn := none })).install c x)
    | none => .fault (flt .illegal))) s

/-! Spilled images (10 R379, 11 R405). -/

def imageBytes : Nat := 458752

/-- The image of spill n: magic, version, origin id, digest of the rest; the rest is free (log 7). -/
def ctxImage (n : Nat) (origin : CoreId) : List Byte :=
  let rest := (List.range (imageBytes - 44)).map (Config.ctxByte n)
  toBytes 4 0x5441524E ++ toBytes 4 Config.ctxVersion ++ toBytes 4 origin.toNat ++ sha3 rest ++ rest

/-- The places of an image in the OBJECT range of C[m]. DESIGN CHOICE (log 102): a range of fewer bytes than an image faults CAP_BOUNDS. -/
def State.imagePlaces (s : State) (core : CoreId) (store : Bool) (c : Cap) (creg : Nat) : Got (List Loc) :=
  match s.reach core c creg 0 (if store then pW else pR) with
  | .error f => .error (.fault f)
  | .ok (.object _) =>
    let z := s.elemSize core c
    if c.length * z < imageBytes then .error (.fault (capFlt .capBounds c creg))
    else collect (fun i => s.flatByte core store c creg ((c.origin + i / z : Nat) : Int) (i % z)) (List.range imageBytes)
  | .ok _ => .error (.fault (capFlt .capPerm c creg))

/-- Go on with the image's places, wait for a relocation, or fault. -/
def State.withImage (s : State) (core : CoreId) (store : Bool) (c : Cap) (creg : Nat) (k : State → List Loc → Res) :
    Res :=
  match s.imagePlaces core store c creg with
  | .ok ls => k (s.cacheUses core ((List.range (imageBytes / s.elemSize core c + 1)).flatMap (fun i => s.flatUse core c ((c.origin + i : Nat) : Int)))) ls
  | .error (.fault f) => .fault f
  | .error (.moving id) => .wait s (.moving id)

/-- A copy whose destinations are sites that it names: CPYM and NEAR. -/
def Copy.toSites (y : Copy) : Bool := y.op == .cpym || y.dst.space == 1

/-- The cores that a copy names are replaced. The sites that a CPYM or a NEAR copy names stay as they are, for traffic to them follows
forwarding entries (10 R380); moved: what stood at a site has moved with it, and the granules covered and the bytes sent there too. -/
def Copy.rename (y : Copy) (f : CoreId → CoreId) (moved : Bool) : Copy :=
  let y := if y.toSites then y else { y with dests := y.dests.map (fun d => { d with core := d.core.map f }) }
  if y.toSites && !moved then y
  else { y with
    cover := y.cover.map (fun g => (f g.1, g.2))
    sent := y.sent.map (fun z => { z with puts := z.puts.map (fun p => (match p.1 with
      | .pad c o => Loc.pad (f c) o
      | l => l, p.2)) }) }

/-- Core ids that a context names are replaced: places that its engines use, the core's own LOCAL bytes among them (log 7). -/
def Ctx.rename (x : Ctx) (f : CoreId → CoreId) (moved : Bool) : Ctx :=
  { x with
    copies := x.copies.map (fun y => (y.1, y.2.rename f moved))
    ops := x.ops.map (fun o => { o with mate := o.mate.map f, claims := o.claims.map (fun c => { c with core := f c.core }) })
    buf := x.buf.map (fun b => { b with loc := match b.loc with
      | .pad c o => .pad (f c) o
      | l => l })
    rings := x.rings.map (fun r => (r.1, { r.2 with places := r.2.places.map (fun p => match p with
      | .pool c o => .pool (f c) o
      | q => q) }))
    ringReqs := x.ringReqs.map (fun r => { r with core := f r.core }) }

def swapId (a b c : CoreId) : CoreId := if c = a then b else c

/-- CTXSAVE.spill. -/
def execCtxsaveSpill (a : SReg) (m : CReg) (s : State) : Host.Outcome State Fault Refusal :=
  runFull .p [] false (fun s g => orFault (s.coreArg s.cur.core (g.s a)) (fun c =>
    match (s.core c).tarn with
    | none => .fault (flt .illegal)
    | some x =>
      s.withImage s.cur.core true (g.c m) m.toNat (fun s ls =>
        let n := s.partNo s.cur.core
        let k := Tbl.fresh (s.parts[n]).spills 0
        let o := x.origin.getD c
        let s := (ls.zip (ctxImage k o)).foldl (fun (s : State) p => s.homeWrite s.cur.core p.1 [p.2]) s
        .done ((s.modPart n (fun p => { p with spills := Tbl.put p.spills k (x.rename (swapId c o) false) })).modCore c
          (fun k => { k with tarn := none }))))) s

/-- The spill whose image stands in some bytes; that of a spoiled context has a wrong digest. -/
def Part.spillOf (p : Part) (b : List Byte) : Option (Nat × Ctx) :=
  p.spills.find? (fun x => !x.2.spoiled && ctxImage x.1 (x.2.origin.getD 0) == b)

/-- CTXLOAD.fill: bytes that are no image of the partition have a wrong magic, version or digest. -/
def execCtxloadFill (a : SReg) (m : CReg) (s : State) : Host.Outcome State Fault Refusal :=
  runFull .p [] false (fun s g => orFault (s.coreArg s.cur.core (g.s a)) (fun c =>
    if (s.core c).tarn.isSome then .fault (flt .illegal)
    else
      s.withImage s.cur.core false (g.c m) m.toNat (fun s ls =>
        let n := s.partNo s.cur.core
        match (s.parts[n]).spillOf (ls.map (fun l => (s.homeRead l 1).getD 0 0)) with
        | none => .fault (flt .illegal)
        | some (k, x) =>
          let s := s.modPart n (fun p => { p with filled := if p.filled.contains k then p.filled else k :: p.filled })
          .done (s.modCore c (fun q => { q with tarn := some (x.rename (swapId (x.origin.getD c) c) false) }))))) s

/-! Migration (10 R380, 11 R406). -/

/-- What the rest of the module holds about a core moves to another; a context that the core's Tarn store holds, or that is spilled from
it, has places of its own. -/
def State.renameCore (s : State) (a b : CoreId) : State :=
  let f := swapId a b
  let s : State := { s with
    cores := s.cores.map (fun kv => (kv.1, { kv.2 with
      ctx := kv.2.ctx.rename f true
      tarn := if kv.1 = a.toNat then kv.2.tarn else kv.2.tarn.map (fun x => x.rename f true) })) }
  s.modPart (s.partNo a) (fun p => { p with
    spills := p.spills.map (fun x => (x.1, if x.2.origin = some a then x.2 else x.2.rename f true)) })

/-- A publisher that migrates keeps the number of its channel until the entry of the site it left is retired (01 R48). -/
def Gang.keepChan (a : CoreId) (g : Gang) : Gang :=
  if g.chan.role = .publisher then { g with chan := { g.chan with kept := some (g.channelAt a) } } else g

/-- The forwarding entry of a site is retired: a channel that bears its number takes that of its publisher's site (01 R48). -/
def Gang.dropChan (a : CoreId) (g : Gang) : Gang :=
  if g.chan.kept = some a then { g with chan := { g.chan with kept := none } } else g

/-- MIGRATE. DESIGN CHOICE (log 103): of a stopped core that holds no context it moves the scratchpad and leaves the forwarding entry. -/
def execMigrate (a b : SReg) (s : State) : Host.Outcome State Fault Refusal :=
  runFull .p [] false (fun s g => orFault (s.coreArg s.cur.core (g.s a)) (fun c => orFault (s.coreArg s.cur.core (g.s b)) (fun d =>
    if s.halted c = false ∨ s.hasP c ∨ (s.core c).fwd.isSome ∨ c = d ∨ s.halted d = false ∨ (s.ctx d).empty = false then
      .fault (flt .illegal)
    else
      let x := ({ s.ctx c with origin := some (s.origin c) } : Ctx).mapGangs (Gang.keepChan c)
      let s := ((s.install d x).install c x.emptied).renameCore c d
      .done ((s.modCore c (fun k => { k with fwd := some d })).regrantCtx d)))) s

/-- MIGRATE.retire. -/
def execMigrateRetire (a : SReg) (s : State) : Host.Outcome State Fault Refusal :=
  runFull .p [] false (fun s g => orFault (s.coreArg s.cur.core (g.s a)) (fun c =>
    .done ((s.modCore c (fun k => { k with fwd := none, left := k.left || k.fwd.isSome })).mapContexts
      (fun x => x.mapGangs (Gang.dropChan c))))) s

/-! Waits that a later turn ends: FREEZE, STOP, CPYRES.can, OBJINV, ORTSET.base, WMSET, and LAUNCH, SPAWN and BINCFG of a gang that was not
let on at once. -/

/-- The body that such a gang's word runs again. -/
def controlOf (i : Instr) : Option (State → Gang → Res) :=
  match i with
  | .freeze a => some (freezeBody a)
  | .stopPart => some stopPartBody
  | .stopCore a => some (stopCoreBody a)
  | .cpyresCan a b => some (cpyresCanBody true a b)
  | .objinv a => some (objinvBody a)
  | .ortsetBase a b => some (ortsetBaseBody a b)
  | .wmset ch a b => some (wmsetBody ch a b)
  | _ => none

/-- The gang's wait is over. -/
def controlReady (s : State) (core : CoreId) (slot : SlotId) : Bool :=
  (match (s.gang? core slot).bind Gang.why? with
   | some w => w.control
   | none => false) && movedOn s (s.resync core slot controlOf) core slot

/-- The body that a gang's word runs again at a turn of its own. -/
def retryOf (i : Instr) : Option (State → Gang → Res) := (controlOf i).orElse (fun _ => launchWaitOf i)

end Sys2Proof.Machine
end

