-- ==== Sys2Proof/Machine/Faults.lean ====
section
/-! DEFINITION. Fault packets on their way, Fount's service of them, and the watchdog (11 R388 to R391, R407; 06 R202 to R204;
15 R464 to R467). -/

namespace Sys2Proof.Machine

/-! FAILED partitions (11 R391). -/

/-- The state of a partition changes: PARTSTAT, its cause and the log. -/
def State.setPartState (s : State) (n : Fin 4) (x : PartState) : State :=
  ((s.modPart n (fun p => { p with state := x })).cause n 1).logKind .partition 0xFF (some n)

/-- STOP as Fount does it: every core is told to stop (11 R391). -/
def State.stopPart (s : State) (n : Fin 4) : State :=
  s.modCores ((s.sitesOf s.parts[n]).filter (fun c => !(s.core c).stopped)) Core.stop

/-- Stop a partition, mark it FAILED and freeze its gangs of level P at their next boundary. -/
def State.failPart (s : State) (n : Fin 4) : State :=
  let s := (s.stopPart n).setPartState n .failed
  ((s.gangsOf s.parts[n]).filter (fun x => x.2.2.priv == .p)).foldl (fun (s : State) x =>
    let (c, k, g) := x
    if g.status = .frozen then s
    else if g.atBoundary then s.boundary c k
    else s.setGang c k { g with freezeReq := true }) s

/-! Delivery (11 R388 to R390). -/

/-- Fount's queue (11 R391). -/
def fountDepth : Nat := 256

/-- A packet enters Fount's queue; a full queue fails the partition (11 R391). -/
def State.toFount (s : State) (c : CoreId) (p : Packet) : State :=
  if fountDepth ≤ s.fount.queue.length then s.failPart (s.partNo c)
  else { s with fount := { s.fount with queue := s.fount.queue ++ [p] } }

/-- Write a packet into a record-area entry and set its granules full (11 R390). -/
def State.enterPacket (s : State) (x : CoreId) (k : SlotId) (n : Nat) (p : Packet) : State :=
  let e := areaEntry k n
  let s := s.homeWrite x (.pad x e) (recordBytes p.rec_)
  let s := (granulesOf e 64).foldl (fun (s : State) g => s.setFull x g true) s
  s.modGang x k (fun g => { g with cnt := { g.cnt with packets := n + 1, hops := Tbl.put g.cnt.hops (n % 32) p.rec_.hop } })

/-- FAULT_PACKET_DELIVERY: a packet that is due goes on, or takes its place in a line. -/
def execFaultPacketDelivery (n : Nat) (s : State) : Host.Outcome State Fault Refusal :=
  .next (if deliveryDue s n = false then s else match s.packet? n with
    | none => s
    | some (c, k, p) =>
      let gone := s.modCtx c (fun x => { x with packets := Tbl.del x.packets k })
      match s.hopOf c p with
      | .wait => s.modCtx c (fun x => { x with packets := Tbl.put x.packets k { p with reached := some s.clock } })
      | .pass q => s.modCtx c (fun x => { x with packets := Tbl.put x.packets k q })
      | .enter x j m => gone.enterPacket x j m p
      | .fount => gone.toFount c p)

/-! Fount's handler (11 R391; 15 R466, R467). -/

/-- Actions of the escalation policy. -/
inductive EscAct
  | kill | cont | skip | hold | fail
deriving DecidableEq, Repr

def EscAct.ofByte (n : Nat) : EscAct :=
  match n with
  | 0 => .kill
  | 1 => .cont
  | 2 => .skip
  | 3 => .hold
  | _ => .fail

/-- The default policy: HOLD for BREAK and TRAP, KILL otherwise. -/
def defaultPolicy : List Byte := (List.range 64).map (fun c => if c = 0x14 ∨ c = 0x15 then 3 else 0)

/-- A hold is counted and logged, and a FLEET event (15 R464, R465, R467). -/
def State.noteHold (s : State) (n : Fin 4) (c : CoreId) (k : SlotId) (code : Nat) : State :=
  ((s.count 13 1).logHold 0xFF c k code 3).fleet (some n)

/-- An action on the gang that a record of a code names. One that is held already stays so until FRESUME (15 R467). -/
def State.actGang (s : State) (n : Fin 4) (c : CoreId) (k : SlotId) (code : Nat) (a : EscAct) : State :=
  let res (w : DWord) : State := if s.heldBy c k none then s else (s.resume c k w).getD s
  match a with
  | .kill => res 2
  | .cont => res 0
  | .skip => res 1
  | .hold =>
    if (s.gang? c k).any (fun g => g.status == .frozen) then (s.modGang c k (fun g => { g with hold := some code })).noteHold n c k code else s
  | .fail => s.failPart n

/-- An action on the stopped command that a record of a code names. -/
def State.actCopy (s : State) (n : Fin 4) (c : CoreId) (k : SlotId) (cslot : Nat) (code : Nat) (a : EscAct) : State :=
  let y := (s.copy? c cslot).filter (fun y => y.slot == k && y.stop.isSome)
  match a, y with
  | .kill, _ => if (s.gang? c k).any (s.failedP c) then s else s.killGang c k
  | .cont, some y => s.resumeCopy c cslot y
  | .skip, some y => (s.resumeCopy c cslot y).cancelCopy c cslot
  | .hold, some y => (s.setCopy c cslot { y with hold := some code }).noteHold n c k code
  | .fail, _ => s.failPart n
  | _, none => s

/-- FOUNT_PACKET_SERVICE: the oldest packet is logged and the owner's policy applied to it. -/
def execFountPacketService (s : State) : Host.Outcome State Fault Refusal :=
  .next (match s.fount.queue with
    | [] => s
    | p :: rest =>
      let s := { s with fount := { s.fount with queue := rest } }
      let r := p.rec_
      let c := s.route r.core
      let k := slotOf r.slot
      let n := s.partNo r.core
      let s := (s.count 12 1).logKind .escalation 0xFF (some n)
      let a := EscAct.ofByte (((s.parts[n]).escpol.getD r.flt.code.num 0).toNat)
      if r.copy then s.actCopy n c k r.cslot r.flt.code.num a else s.actGang n c k r.flt.code.num a)

/-! The watchdog (06 R202 to R204, 11 R407). -/

/-- Quiescent waits, whatever else holds (06 R202, 08 R262, R271, 10 R342, R347, R351). SUBSCRIBE's wait for its registration is one for its
RENDEZ (log 76). -/
def Why.quiescent (w : Why) : Bool :=
  match w with
  | .inbox | .q14 | .ring | .ringBlocked | .fewait | .wmwait | .barI | .barX | .full | .send _ | .binFull | .launchQ | .grow _ | .txLog
  | .freezing | .stopping | .objinv | .registration | .rendez | .xfence _ _ _ | .exit | .drain _ | .mwait _ | .tileSpace => true
  | _ => false

/-- Words whose every wait is quiescent: the privileged words (10 R372) and SPHDR (10 R356). -/
def quietWord (w : Word) : Bool := (decide (0xE0 ≤ bits w 31 24) && decide (bits w 31 24 ≤ 0xEC)) || bits w 31 24 == 0xC8

/-- The other gang of a pair, while it is there (06 R178). -/
def State.partnerOf (s : State) (c : CoreId) (k : SlotId) (g : Gang) : Option Gang :=
  (g.partner.bind (s.gang? c)).filter (fun h => h.partner == some k && h.shadow != g.shadow)

/-- The gang is quiescent: a subscriber with nothing in its stream buffer too (08 R271). One whose shadow has ended has no partner that is
frozen (06 R202). -/
def State.quiescent (s : State) (c : CoreId) (k : SlotId) (g : Gang) : Bool :=
  (match g.status with
   | .waiting ⟨.queue n, _, w⟩ => (decide (n < 8) && (s.partnerOf c k g).all (fun h => h.status != .frozen)) || quietWord w
   | .waiting w => w.why.quiescent || quietWord w.word
   | .running => g.chan.role == .subscriber && !g.replay && g.chan.buf == []
   | .frozen => true) || s.engineBusy c k

/-- The watchdog window or progress interval of a gang, in ac. -/
def Gang.window (g : Gang) : Nat :=
  if g.hdr.persist ∧ g.hdr.pint ≠ 0 then g.hdr.pint * 1024 else 2 ^ g.cnt.dogLog

/-- WATCHDOG_HUNG: a whole window of counted ac has passed. -/
def hungDue (s : State) (core : CoreId) (slot : SlotId) : Bool :=
  match s.gang? core slot with
  | some g => !g.cnt.hung && !s.quiescent core slot g && decide (g.window ≤ g.cnt.dog)
  | none => false

def execWatchdogHung (core : CoreId) (slot : SlotId) (s : State) : Host.Outcome State Fault Refusal :=
  .next (if hungDue s core slot then
      match s.gang? core slot with
      | some g =>
        let s := s.setGang core slot { g with cnt := { g.cnt with hung := true }, freezeReq := true }
        if g.atBoundary then s.boundary core slot else s
      | none => s
    else s)

end Sys2Proof.Machine
end

