-- ==== Sys2Proof/Machine/Transitions.lean ====
section
/-! DEFINITION. Replies of the mailbox (12 R424), and the lines of transitions of partitions and dies (15 R459, R462). -/

namespace Sys2Proof.Machine

/-! Mailboxes. -/

def State.box (s : State) (m : Byte) : Mailbox := (Tbl.get? s.fount.boxes m.toNat).getD {}
def State.setBox (s : State) (m : Byte) (b : Mailbox) : State :=
  { s with fount := { s.fount with boxes := Tbl.put s.fount.boxes m.toNat b } }

/-- Results of a command. -/
inductive Result
  | ok | notOwner | badArg | authFail | lost | notOpen | refused
deriving DecidableEq, Repr

def Result.num : Result → Nat
  | .ok => 0
  | .notOwner => 1
  | .badArg => 2
  | .authFail => 4
  | .lost => 5
  | .notOpen => 6
  | .refused => 7

/-- A command completes: its result, and its response at the start of MBDATA. -/
def State.reply (s : State) (m : Byte) (r : Result) (resp : List Byte) : State :=
  let b := s.box m
  s.setBox m { b with data := resp ++ b.data.drop resp.length, rlen := resp.length, result := r.num, state := 2 }

/-- A command is taken up and completes later. -/
def State.busyBox (s : State) (m : Byte) : State := s.setBox m { s.box m with state := 1 }

/-! Lines of transitions. -/

/-- PARK may proceed (15 R459). -/
def State.mayPark (s : State) (d : Fin 4) : Bool :=
  (s.dies[d]).state == .running &&
    (match s.partOf d with
     | none => true
     | some n =>
       let sites := (List.range 1024).map (fun k => BitVec.ofNat 12 (d.val * 1024 + k))
       (sites.filter (fun c => !s.isDark c)).all (fun c => (s.core c).stopped && (s.ctx c).empty) &&
         (s.dies[d]).bins.all (fun b => b.2.held == 0) && (s.dies[d]).launch.isEmpty &&
         (s.parts[n]).dieList.any (fun e => e != d && !s.isParked e))

/-- The line of transitions of a die: its partition's, or its own. -/
def State.line (s : State) (d : Fin 4) : List Transition :=
  match s.partOf d with
  | some n => (s.parts[n]).trans
  | none => (s.dies[d]).trans

def State.setLine (s : State) (d : Fin 4) (l : List Transition) : State :=
  match s.partOf d with
  | some n => s.modPart n (fun p => { p with trans := l })
  | none => s.modDie d (fun x => { x with trans := l })

/-- Begin the first transition of a line; one that is refused makes way for the next. -/
def State.begin_ (s : State) (d : Fin 4) : List Transition → State
  | [] => s.setLine d []
  | .step t :: rest => s.setLine d (.step t :: rest)
  | .park e m :: rest =>
    if s.mayPark e then (s.setLine d (.park e m :: rest)).modDie e (fun x => { x with state := .parking })
    else ((s.reply m .refused []).logPower 0x0102 m (s.partOf e) [e.val, Result.refused.num]).begin_ d rest
  | .unpark e m :: rest =>
    if (s.dies[e]).state = .parked then (s.setLine d (.unpark e m :: rest)).modDie e (fun x => { x with state := .unparking })
    else ((s.reply m .refused []).logPower 0x0102 m (s.partOf e) [e.val, Result.refused.num]).begin_ d rest

end Sys2Proof.Machine
end

