-- ==== Sys2Proof/Machine/Partitions.lean ====
section
/-! DEFINITION. Partitions and boot: PART_CREATE, PART_DESTROY, PART_RESET, PART_SCRUB_COMPLETE as operations, function level reset
and power-on (12 R413, R429 to R432, R440 to R442; 14 R449). The mailbox commands that call them are in Mailbox. -/

namespace Sys2Proof.Machine

/-! Building (12 R442). -/

/-- A 64-byte object record of rank 1 (02 R63). -/
def recordOf (fmt perm nsub size map : Nat) : List Byte :=
  toBytes 8 (1 + fmt * 2 ^ 3 + perm * 2 ^ 10 + 1 * 2 ^ 16 + nsub * 2 ^ 40) ++ toBytes 4 size ++ List.replicate 16 0 ++
    toBytes 4 1 ++ List.replicate 16 0 ++ toBytes 8 map ++ List.replicate 8 0

/-- A resident map entry (02 R68). -/
def mapWord (pa : Nat) : List Byte := toBytes 8 (pa / 65536 + 2 ^ 32 + pa / 2 ^ 36 * 2 ^ 35)

/-- Write bytes of Fount into device memory. -/
def State.fountWrite (s : State) (pa : Nat) (b : List Byte) : State :=
  { s with dram := s.dram.write pa b, dramTags := clearTags s.dramTags pa b.length }

/-- n bytes of Fount into device memory from pa, the rest of them zero. -/
def State.fountFill (s : State) (pa n : Nat) (b : List Byte) : State :=
  { s with dram := s.dram.fill pa n b, dramTags := s.dramTags.filter (fun g => decide (g < pa / 16) || decide ((pa + n + 15) / 16 ≤ g)) }

/-- The dark-site map of record 2 (13 R448): the mask of each row of each die in an element of 8 bytes, all ones for a die outside. -/
def State.darkMap (s : State) (dies : BitVec 4) : List Byte :=
  (List.range 4).flatMap (fun d => (List.range 32).flatMap (fun y => toBytes 8 (
    if dies.getLsbD d then (List.range 32).foldl (fun m x => if s.isDark (siteAt d x y) then m + 2 ^ x else m) 0 else 2 ^ 32 - 1)))

/-- The ORT, the boot program and record 2, from the start of a stack (12 R442, 13 R448; the places of maps and frames are log 8). -/
def State.writeOrt (s : State) (dies : BitVec 4) (base entries : Nat) (program : List Word) : State :=
  let maps := base + roundUpTo (64 * entries) 65536
  let n1 := roundUpTo (4 * program.length) 65536 / 65536
  let map2 := maps + roundUpTo (8 * n1) 64
  let f1 := maps + roundUpTo (8 * n1 + 64 + 128) 65536
  let f2 := f1 + 65536 * n1
  let s := s.fountFill base (64 * entries) []
  let s := if 1 < entries then s.fountWrite (base + 64) (recordOf 1 (pR + pX) n1 program.length maps) else s
  let s := if 2 < entries then s.fountWrite (base + 128) (recordOf 14 (pR + pW + pK) 16 131072 map2) else s
  let s := (List.range n1).foldl (fun (s : State) k => s.fountWrite (maps + 8 * k) (mapWord (f1 + 65536 * k))) s
  let s := (List.range 16).foldl (fun (s : State) k => s.fountWrite (map2 + 8 * k) (mapWord (f2 + 65536 * k))) s
  let s := s.fountWrite f1 (program.flatMap (fun w => toBytes 4 w.toNat))
  s.fountFill f2 (2 ^ 20) (s.darkMap dies)

/-- The boot gang of a die; len: bytes of the boot program (12 R442, 02 R50). -/
def bootGang (crew dog len : Nat) : Gang :=
  let id : Ident := { widths := [0, 0, 0, 0, 0], fields := [0, 0, 0, 0, 0], crew := crew, dies := 0, size := 1 }
  let c : Vector Cap 16 := (((((Vector.replicate 16 Cap.null).set 0 (Cap.mk' 0 (pR + pW + pK) 0 0 padEnd true)).set 1
    (Cap.mk' 3 (pR + pX) 1 0 len true)).set 2 (Cap.mk' 2 (pR + pW + pK) 2 0 131072 true)).set 3
    (Cap.mk' 4 (pR + pW) 0 0 (2 ^ 47) true))
  { Gang.fresh with
    regs := { Regs.fresh with c := c, exm := 0xFFFFFFFF, pc := BitVec.ofNat 64 (2 ^ 40)
                              lfsr := Lanes.of (fun i => seedOf (id.wid i.val)) }
    allot := 64
    priv := .p
    ident := id
    hdr := { prio := 31 }
    cnt := { dogLog := dog } }

/-- Place the boot gang of a die and name it in DSUPV. -/
def State.placeBoot (s : State) (d : Fin 4) : State :=
  let c := siteAt d.val 0 0
  let g := bootGang s.launches (s.part c).wdog (4 * s.fount.program.length)
  let s := { s with launches := s.launches + 1 }
  let s := (s.openArea c 0 []).setGang c 0 { g with ident := { g.ident with dies := dieBit d.val } }
  s.modDie d (fun x => { x with dsupv := 0x8000 ||| (c.zeroExtend 16) })

/-- The lowest wavelength free on two dies. -/
def State.freeWave (s : State) (a b : Nat) : Nat :=
  let used (w : Nat) : Bool := s.circuits.toList.any (fun c => c.valid && decide (bits c.desc 17 12 ≤ w) &&
    decide (w ≤ bits c.desc 17 12 + bits c.desc 23 18) && (c.epa == a || c.epb == a || c.epa == b || c.epb == b))
  ((List.range 64).find? (fun w => !used w)).getD 63

/-- The lowest free entry of a die's share of the table. -/
def State.freeEntry (s : State) (d : Nat) : Option Nat :=
  (List.range 16).map (fun k => 16 * d + k) |>.find? (fun e => (s.circuits.toList[e]?).any (fun c => !c.valid))

/-- Set up one circuit in the share of a die. -/
def State.addCircuit (s : State) (n : Fin 4) (a b cls wave nwl : Nat) : State :=
  match s.freeEntry a with
  | some e => s.setCircuit e { valid := true, tuned := true, part := n,
                               desc := BitVec.ofNat 64 (a + b * 32 + cls * 2 ^ 10 + wave * 2 ^ 12 + nwl * 2 ^ 18) }
  | none => s

/-- The control and data circuits between every two dies (12 R435, 14 R449). -/
def State.buildCircuits (s : State) (n : Fin 4) : State :=
  let ds := (s.parts[n]).dieList
  (ds.flatMap (fun a => (ds.filter (fun b => decide (a.val < b.val))).map (fun b => (a.val, b.val)))).foldl
    (fun (s : State) ab =>
      let w := s.freeWave ab.1 ab.2
      (s.addCircuit n ab.1 ab.2 3 w 0).addCircuit n ab.1 ab.2 0 (w + 1) 7) s

/-- Fields of a PART_CREATE descriptor (12 R431). -/
def descDies (d : List Byte) : BitVec 4 := BitVec.ofNat 4 (field d 1 1)
def descPorts (d : List Byte) : BitVec 16 := BitVec.ofNat 16 (field d 2 2)
def descEntries (d : List Byte) : Nat := field d 4 4
def descDet (d : List Byte) : Bool := field d 8 1 == 1

/-- Sites of a set of dies: cores become as after power-on; with wipe their scratchpads read zero and empty. -/
def State.resetCores (s : State) (dies : BitVec 4) (wipe : Bool) : State :=
  { s with
    cores := if wipe then s.cores.filter (fun kv => !dies.getLsbD (kv.1 / 1024))
      else s.cores.map (fun kv => if dies.getLsbD (kv.1 / 1024) then (kv.1, { Core.fresh with ctx := kv.2.ctx.emptied }) else kv)
    dies := Vector.ofFn (fun d =>
      if dies.getLsbD d.val then { s.dies[d] with dsupv := 0, bins := [], launch := [] } else s.dies[d]) }

/-- Build a partition from its descriptor; the power and policy settings of a partition that is built again stay (12 R431, R442;
the first share is log 11). A parked die of one that is built again is passed over (15 R460). -/
def State.buildPart (s : State) (n : Fin 4) (desc : List Byte) (fresh : Bool) : State :=
  let old := s.parts[n]
  let count := (List.finRange 4).filter (fun d => (descDies desc).getLsbD d.val)
  let low := (count.head?.map (fun d => d.val)).getD 0
  let base := 2 * low * 2 ^ 36
  let p : Part :=
    { state := .booting, dies := descDies desc, ports := descPorts desc, det := descDet desc, desc := desc
      ortBase := base, ortSize := descEntries desc
      escpol := if fresh then defaultPolicy else old.escpol
      share := if fresh then 75 * count.length else old.share
      bound := if fresh then {} else old.bound
      pmax := if fresh then 0 else old.pmax
      pcur := if fresh then s.fount.pstate0 else old.pcur
      duty := if fresh then 63 else old.duty
      trans := if fresh then [] else old.trans
      lowAt := if fresh then none else old.lowAt
      stepAt := if fresh then none else old.stepAt
      upAt := if fresh then none else old.upAt
      calmAt := if fresh then none else old.calmAt }
  let s := (s.resetCores (descDies desc) true).setPart n p
  let s : State := { s with funcs := s.funcs.set n.val { s.funcs[n] with strays := [] } }
  let s := s.writeOrt (descDies desc) base (descEntries desc) s.fount.program
  let s := s.buildCircuits n
  let s := (count.filter (fun d => !s.isParked d)).foldl (fun (s : State) d => s.placeBoot d) s
  s.setPartState n .running

/-! Ending (12 R432). -/

/-- Stage 1 and 2: every gang and context ends, ports and circuits are released; the partition scrubs. One that PART_DESTROY has ended is not
built again (log 88). -/
def State.endPart (s : State) (n : Fin 4) (rebuild : Bool) : State :=
  let p := s.parts[n]
  let inPart (c : CoreId) : Bool := p.has (dieOf c)
  let s := (s.endHolds n).resetCores p.dies false
  let s := s.setPart n { p with
    ports := 0, rebuild := rebuild && (p.state != .scrubbing || p.rebuild), recs := [], maps := [], routines := [], token := false, spills := [], filled := []
    routes := [], exports := [] }
  let s := { s with
    circuits := s.circuits.map (fun (c : Circuit) => if c.valid ∧ c.part = n then ({} : Circuit) else c)
    fount := { s.fount with queue := s.fount.queue.filter (fun q => !inPart q.rec_.core) } }
  s.setPartState n .scrubbing

/-- Transitions of a die. -/
def Transition.of (d : Fin 4) : Transition → Bool
  | .park e _ | .unpark e _ => e == d
  | .step _ => false

/-- The line of a partition that is gone becomes lines of its dies, each begun unless its head is already under way (15 R462). -/
def State.splitLine (s : State) (p : Part) : State :=
  p.dieList.foldl (fun (s : State) d =>
    match p.trans.filter (Transition.of d) with
    | [] => s
    | l => if p.trans.head?.any (Transition.of d) then s.setLine d l else s.begin_ d l) s

/-- Stage 3: stacks, Tarn stores and scratchpads are zero; then the partition is gone, or is built again. -/
def State.scrubbed (s : State) (n : Fin 4) : State :=
  let p := s.parts[n]
  let s := s.resetCores p.dies true
  let s := { s with
    dram := s.dram.filter (fun c => !(p.dies.getLsbD (stackDie c.1) && decide (c.1 / 2 ^ 36 < 8)))
    dramTags := s.dramTags.filter (fun g => !(p.dies.getLsbD (stackDie (16 * g)) && decide (16 * g / 2 ^ 36 < 8))) }
  if p.rebuild then s.buildPart n p.desc false else ((s.setPartState n .absent).setPart n {}).splitLine p

/-- PART_SCRUB_COMPLETE (12 R432). -/
def execPartScrubComplete (part : Fin 4) (s : State) : Host.Outcome State Fault Refusal :=
  .next (if (s.parts[part]).state = .scrubbing then s.scrubbed part else s)

/-- Configuration space, NBASE and EVCAUSE at their reset values (12 R413, log 87). -/
def Func.flr (f : Func) : Func :=
  { f with nbase := 0, evcause := 0, bme := false, msix := false, fmask := false, mask := 0xFFFF, pba := 0, payload := 128, readReq := 512 }

/-- FUNCTION_LEVEL_RESET (12 R413). -/
def execFunctionLevelReset (n : Fin 4) (s : State) : Host.Outcome State Fault Refusal :=
  .next (
    let s := if (s.parts[n]).state = .absent then s else s.endPart n true
    { s with funcs := s.funcs.set n.val (s.funcs[n]).flr })

/-! Power-on (12 R440, R441; 00 R2). -/

/-- Sites dark after a boot: within one power cycle they stay dark (00 R2, 01 R15). -/
def State.darkAfter (s : State) (b : BootInfo) : List CoreId :=
  if s.fount.boot = .unpowered ∨ b.cycle then b.dark else (s.dark ++ b.dark).eraseDups

/-- Self-test leaves a package as shipped: at least 1,000 working cores on each die, 4,000 in all, and every core (0,0) (00 R2, 12 R441); the
configuration record's P-state is one of 15 R456. -/
def State.bootOk (s : State) (b : BootInfo) : Bool :=
  let dark := s.darkAfter b
  (List.finRange 4).all (fun d => decide ((dark.filter (fun c => dieOf c == d)).length ≤ 24) && !dark.contains (siteAt d.val 0 0)) &&
    decide (dark.length ≤ 96) && b.dark.eraseDups == b.dark && decide (b.pstate ≤ 5)

/-- Extend a measurement register (12 R445). -/
def extended (m d : List Byte) : List Byte := sha3 (m ++ d)

def State.extendMeas (s : State) (i : Fin 8) (d : List Byte) : State :=
  { s with fount := { s.fount with meas := s.fount.meas.set i.val (extended (s.fount.meas[i]) d) } }

/-- The descriptor's form (12 R431): BAD_ARG otherwise. -/
def descFormed (d : List Byte) : Bool :=
  let m := field d 1 1
  d.length == 16 && decide (field d 0 1 ≤ 3) && decide (m < 16) && [1, 2, 4, 8, 3, 6, 12, 7, 14, 15].contains m &&
    decide (1 ≤ descEntries d) && decide (descEntries d ≤ 2 ^ 24) && decide (field d 8 1 ≤ 1) && field d 9 7 == 0

def descPart (d : List Byte) : Fin 4 := ⟨field d 0 1 % 4, Nat.mod_lt _ (by decide)⟩

/-- Ports of a partition, and those that it takes again when it is built again (12 R429, log 88). -/
def Part.portsKept (p : Part) : BitVec 16 := if p.rebuild then p.ports ||| descPorts p.desc else p.ports

/-- The descriptor's dies and ports are free (12 R431): REFUSED otherwise. -/
def State.descFree (s : State) (d : List Byte) : Bool :=
  (s.parts[descPart d]).state == .absent &&
    (List.finRange 4).all (fun n => (s.parts[n]).state == .absent ||
      ((s.parts[n]).dies &&& descDies d == 0 && (s.parts[n]).portsKept &&& descPorts d == 0)) &&
    (List.finRange 4).all (fun x => !(descDies d).getLsbD x.val ||
      ((s.dies[x]).state == .running && !s.isDark (siteAt x.val 0 0)))

/-- The firmware slot that boots: the selected one, or else the other. -/
def bootSlot (ok : Nat → Bool) (sel : Nat) : Option Nat :=
  if ok sel then some sel else if ok (1 - sel) then some (1 - sel) else none

/-- Boots in a row that an activated, uncommitted slot may fail (12 R444). -/
def bootTries : Nat := 3

/-- POWER_ON_RESET: power-on or PERST#. A later reset keeps what the management flash holds. -/
def State.boot (s : State) (b : BootInfo) : State :=
  let f := s.fount
  let first := f.boot == .unpowered
  let trial := if first then b.trial else f.trial
  let fails := if first then b.fails else f.fails
  let chosen := (if first then b.active else f.nextSlot) % 2
  let tried := trial && decide (fails < bootTries)
  let sel := if trial && !tried then 1 - chosen else chosen
  let roll := if first then b.rollback else f.rollback
  let ver (k : Nat) : Nat := if first then b.versions.getD k 0 else f.versions.toList.getD k 0
  let slot := bootSlot (fun k => b.slotOk.getD k false && decide (roll ≤ ver k)) sel
  let good := slot.isSome && b.recordOk
  let reached := good && slot == some sel
  let f0 : Fount := { Fount.fresh with
    boot := if good then .running else .recovery
    chall := Config.nonce s.clock
    modid := b.modid
    serial := if first then b.serial else f.serial
    slotImg := f.slotImg
    versions := #v[ver 0, ver 1]
    active := slot.getD sel
    nextSlot := if tried then sel else slot.getD sel
    rollback := roll
    trial := tried
    fails := if tried && !reached then fails + 1 else 0
    log := f.log
    logSeq := if first then b.logSeq else f.logSeq
    signed := f.signed
    signedTo := f.signedTo
    pstate0 := b.pstate
    words := f.words
    defaults := b.parts
    program := b.program }
  let t : State := { State.reset with
    clock := s.clock + 1
    inputs := s.inputs
    mishaps := s.mishaps
    accesses := s.accesses
    host := s.host
    launches := s.launches
    fount := f0
    dark := s.darkAfter b }
  let t := if slot.isSome then t.extendMeas 0 (b.digests.getD 0 []) else t
  let t := if good then t.extendMeas 1 (b.digests.getD 1 []) else t
  if good then
    let t := { t with dies := t.dies.map (fun d => { d with state := .running }) }
    let t := b.parts.foldl (fun (t : State) d =>
      if descFormed d && t.descFree d then t.buildPart (descPart d) d true else t) t
    t.extendMeas 2 (b.digests.getD 2 [])
  else t

def execPowerOnReset (b : BootInfo) (s : State) : Host.Outcome State Fault Refusal :=
  .next (if s.bootOk b then s.boot b else s)

end Sys2Proof.Machine
end

