-- ==== Sys2Proof/Machine/Mailbox.lean ====
section
/-! DEFINITION. The host interface and Fount's commands: posts, configuration space, record commits, ownership, partitions, update, attestation,
the log, peers (12 R410 to R447). The power and policy commands are in Power, the registers in Registers. -/

namespace Sys2Proof.Machine

/-! Posts (12 R414, R439). -/

def bumpSat (x : BitVec 16) : BitVec 16 := if x = 0xFFFF then x else x + 1

/-- A 64-byte record posted from outside into a core's inbox; a full inbox or a parked die refuses it and counts it. -/
def State.post (s : State) (site : CoreId) (data : List Byte) : State :=
  let c := s.route site
  if s.isParked (dieOf site) ∨ s.isParked (dieOf c) ∨ inboxDepth ≤ (s.ctx c).inbox.length then
    s.modCore site (fun k => { k with refused := bumpSat k.refused })
  else s.postInbox c (stampRec (recParse data) 0 0 true 3 (s.now c)) 0

/-- A write to a posting window that is no post: dropped and counted (12 R414). -/
def State.strayPost (s : State) (site : CoreId) : State := s.modCore site (fun k => { k with malformed := bumpSat k.malformed })

/-- A write of a function to the window of a core outside its partition: dropped and counted for the function (12 R414). -/
def Func.stray (f : Func) (site : CoreId) : Func :=
  { f with strays := Tbl.put f.strays site.toNat (bumpSat ((Tbl.get? f.strays site.toNat).getD 0)) }

/-- HOST_POST: a write to the posting windows of BAR 2. -/
def execHostPost (fn : Fin 4) (offset : Nat) (data : List Byte) (s : State) : Host.Outcome State Fault Refusal :=
  .next (
    let p := s.parts[fn]
    let site : CoreId := BitVec.ofNat 12 (offset / 64)
    if p.state = .absent ∨ p.state = .scrubbing ∨ 2 ^ 18 ≤ offset then s
    else if p.has (dieOf site) = false then { s with funcs := s.funcs.set fn.val ((s.funcs[fn]).stray site) }
    else if data.length = 64 ∧ offset % 64 = 0 ∧ s.isDark site = false then s.post site data
    else s.strayPost site)

/-- What a read at a posting window's start returns (12 R415). -/
def State.postStatus (s : State) (site : CoreId) : DWord :=
  let k := s.core site
  BitVec.ofNat 64 (k.refused.toNat * 2 ^ 32 + k.malformed.toNat * 2 ^ 16 + min 64 k.ctx.inbox.length)

/-- BUS_MASTER_ENABLE_CHANGE (12 R410, R417). -/
def execBusMasterEnableChange (fn : Fin 4) (on : Bool) (s : State) : Host.Outcome State Fault Refusal :=
  .next { s with funcs := s.funcs.set fn.val { s.funcs[fn] with bme := on } }

/-- Sizes that Max_Payload_Size and Max_Read_Request_Size take: powers of two from 128 to a limit (12 R410). -/
def tlpSize (limit n : Nat) : Bool := [128, 256, 512, 1024, 2048, 4096].contains n && decide (n ≤ limit)

/-- A write of the host to a register of AER: a status bit written as 1 is cleared (log 87). -/
def Aer.write (a : Aer) (r : AerReg) (v : Word) : Aer :=
  match r with
  | .uncorStatus => { a with uncorStatus := a.uncorStatus &&& ~~~ v }
  | .uncorMask => { a with uncorMask := v }
  | .uncorSev => { a with uncorSev := v }
  | .corStatus => { a with corStatus := a.corStatus &&& ~~~ v }
  | .corMask => { a with corMask := v }

/-- A write of the host to a function's configuration space or MSI-X table (12 R410, R418). -/
def Func.configure (f : Func) (a : HostAccess) : Func :=
  match a with
  | .msix _ on => ({ f with msix := on } : Func).release
  | .maskAll _ on => ({ f with fmask := on } : Func).release
  | .mask _ k on =>
    ({ f with mask := if on then f.mask ||| BitVec.twoPow 16 k.val else f.mask &&& ~~~ BitVec.twoPow 16 k.val } : Func).release
  | .payload _ n => if tlpSize 512 n then { f with payload := n } else f
  | .readReq _ n => if tlpSize 4096 n then { f with readReq := n } else f
  | .aer _ r v => { f with aer := f.aer.write r v }
  | .read _ _ _ => f

def HostAccess.fn : HostAccess → Fin 4
  | .read n _ _ | .msix n _ | .maskAll n _ | .mask n _ _ | .payload n _ | .readReq n _ | .aer n _ _ => n

/-- Identity that every function shows in its configuration space (12 R410). -/
def deviceId : BitVec 16 := 0x0D04
def classCode : BitVec 24 := 0x120000

/-- A doubleword of a function's configuration space: device and vendor, command (Bus Master Enable is bit 2), class and revision, and AER;
the places, and the vendor, are PCI Express's (12 R410, log 87). -/
def Func.config (f : Func) (offset : Nat) : Word :=
  match offset with
  | 0 => deviceId ++ Config.vendor
  | 4 => if f.bme then 4 else 0
  | 8 => classCode ++ Config.revision
  | 0x100 => 0x00020001
  | 0x104 => f.aer.uncorStatus
  | 0x108 => f.aer.uncorMask
  | 0x10C => f.aer.uncorSev
  | 0x110 => f.aer.corStatus
  | 0x114 => f.aer.corMask
  | _ => 0

/-- EVCAUSE_CLEAR: writing 1 clears (12 R419). -/
def execEvcauseClear (fn : Fin 4) (value : DWord) (s : State) : Host.Outcome State Fault Refusal :=
  let f : Func := { s.funcs[fn] with evcause := (s.funcs[fn]).evcause &&& ~~~ (value.truncate 6 : BitVec 6) }
  .next { s with funcs := s.funcs.set fn.val f }

/-! The record-commit window (12 R422). -/

/-- RECORD_COMMIT: a write to byte 0x40 of the window; what stands in its reserved field is ignored (00 R8). -/
def execRecordCommit (fn : Fin 4) (value : DWord) (s : State) : Host.Outcome State Fault Refusal :=
  .next (
    let p := s.parts[fn]
    let f := s.funcs[fn]
    let id := bits value 23 0
    if (p.state = .running ∨ p.state = .failed) ∧ s.funcMayWrite fn ∧ value.getLsbD 24 then
      let rec_ := padTo 64 f.window
      let done (s : State) (r : Nat) : State := { s with funcs := s.funcs.set fn.val { s.funcs[fn] with commit := 2, result := r } }
      match recordRefusal p.ortSize id (ObjRec.parse rec_) with
      | some k => done s k
      | none => done (s.fountWrite (p.ortBase + 64 * id) rec_) 0
    else s)

/-! Masters and their mailboxes (12 R423, R424). -/

/-- The master id exists: a host function, the management bus, or a peer over an up port. -/
def State.isMaster (s : State) (m : Byte) : Bool :=
  decide (m.toNat < 4) || m == 0x10 ||
    (decide (0x40 ≤ m.toNat) && decide (m.toNat < 0x80) && s.fount.portUp.any (fun p => p.2 == m.toNat - 0x40))

def leaseTime : Nat := 100000
def warnTime : Nat := 80000

/-- Some master owns the module. -/
def State.owned (s : State) : Bool := s.fount.owner != 0xFF
/-- The master owns the module, within its lease. -/
def State.isOwner (s : State) (m : Byte) : Bool :=
  s.owned && s.fount.owner == m && decide (s.fount.time < s.fount.granted + leaseTime)

/-- Fount serves a command of a master: always when it runs, and in recovery the claim, update, attestation and log commands
(12 R440). -/
def State.serves (s : State) (m : Byte) (inRecovery : Bool) : Bool :=
  s.isMaster m && (s.fount.boot == .running || (s.fount.boot == .recovery && inRecovery))

/-- A command of any master. -/
def State.command (s : State) (m : Byte) (rec_ : Bool) (k : State → State) : State := if s.serves m rec_ then k s else s

/-- A command that only the owner may give. -/
def State.ownerCommand (s : State) (m : Byte) (rec_ : Bool) (k : State → State) : State :=
  s.command m rec_ (fun s => if s.isOwner m then k s else s.reply m .notOwner [])

/-! Ownership (12 R425 to R427). -/

/-- CLAIM: the claim waits for verification. -/
def State.cmdClaim (m : Byte) (data : List Byte) (s : State) : State :=
  s.command m true (fun s =>
    let t := s.busyBox m
    { t with fount := { t.fount with claims := t.fount.claims ++ [⟨m, data, s.owned, 1⟩] } })

/-- A credential verifies for the CHALLENGE that stands. -/
def Fount.credential (f : Fount) (m : Byte) (d : List Byte) : Bool :=
  d.length == 2456 && decide (field d 0 1 ≤ 7) && d.getD 1 0 == m && field d 2 2 == 0 && (d.drop 4).take 32 == f.chall &&
    Config.verifies (field d 0 1) (sha3 (d.take 36 ++ toBytes 8 f.serial.toNat)) (d.drop 36)

/-- A master becomes the owner with a new lease number. -/
def State.grantTo (s : State) (m : Byte) : State :=
  ({ s with clock := s.clock + 1, fount := { s.fount with
      owner := m, lease := Config.lease s.clock, granted := s.fount.time, hadGrant := true, warned := false } } : State).causeAll 0

/-- The claim at the head of the line is decided, and CHALLENGE takes a fresh value. -/
def State.decideClaim (s : State) (c : Claimant) : State :=
  let ok := s.fount.credential c.master c.data
  let s :=
    if s.owned then s.reply c.master (if c.owned then .notOpen else .lost) []
    else if ok then ((s.grantTo c.master).logKind .grant c.master none).reply c.master .ok []
    else s.reply c.master .authFail []
  let s := s.logKind .claim c.master none
  { s with clock := s.clock + 1, fount := { s.fount with chall := Config.nonce s.clock } }

/-- RENEW. -/
def State.cmdRenew (m : Byte) (data : List Byte) (s : State) : State :=
  s.ownerCommand m false (fun s =>
    if data.length ≠ 8 then s.reply m .badArg []
    else if ofBytes data = s.fount.lease.toNat then
      ({ s with fount := { s.fount with granted := s.fount.time, warned := false } } : State).reply m .ok []
    else s.reply m .notOwner [])

/-- A successor that YIELD may name is present (12 R427). -/
def State.present (s : State) (m : Byte) : Bool :=
  s.isMaster m && (if m.toNat < 4 then (s.funcs.toList[m.toNat]?).any (fun f => f.bme) else true)

/-- YIELD. -/
def State.cmdYield (m : Byte) (data : List Byte) (s : State) : State :=
  s.ownerCommand m false (fun s =>
    let t := data.getD 0 0
    if data.length ≠ 1 ∨ t = m ∨ s.present t = false then s.reply m .badArg []
    else ((s.reply m .ok []).grantTo t).logKind .yield m none)

/-- LEASE_WARNING (12 R419). -/
def leaseWarningDue (s : State) : Bool := s.owned && !s.fount.warned && decide (s.fount.granted + warnTime ≤ s.fount.time)

def execLeaseWarning (s : State) : Host.Outcome State Fault Refusal :=
  .next (if leaseWarningDue s then
      let s := { s with fount := { s.fount with warned := true } }
      match s.ownerFunc with
      | some n => s.cause n 2
      | none => s
    else s)

/-- LEASE_REVOCATION (12 R426). -/
def leaseRevocationDue (s : State) : Bool := s.owned && decide (s.fount.granted + leaseTime ≤ s.fount.time)

def execLeaseRevocation (s : State) : Host.Outcome State Fault Refusal :=
  .next (if leaseRevocationDue s then
      let m := s.fount.owner
      (({ s with clock := s.clock + 1, fount := { s.fount with
          owner := 0xFF, lease := 0, chall := Config.nonce s.clock } } : State).causeAll 0).logKind .lapse m none
    else s)

/-! Partitions. -/

/-- PART_CREATE (12 R431). -/
def State.cmdPartCreate (m : Byte) (data : List Byte) (s : State) : State :=
  s.ownerCommand m false (fun s =>
    if descFormed data = false then s.reply m .badArg []
    else if s.descFree data = false then s.reply m .refused []
    else (s.buildPart (descPart data) data true).reply m .ok [])

/-- The partition that a number names, when it exists. -/
def State.namedPart (s : State) (data : List Byte) : Option (Fin 4) :=
  match data with
  | b :: _ => (List.finRange 4).find? (fun n => BitVec.ofNat 8 n.val == b && (s.parts[n]).state != .absent)
  | [] => none

/-- PART_DESTROY and PART_RESET (12 R432). -/
def State.cmdPartEnd (rebuild : Bool) (m : Byte) (data : List Byte) (s : State) : State :=
  s.ownerCommand m false (fun s =>
    match s.namedPart data with
    | some n => if data.length = 1 then (s.endPart n rebuild).reply m .ok [] else s.reply m .badArg []
    | none => s.reply m .badArg [])

/-- SET_DELEG (12 R421). -/
def State.cmdSetDeleg (m : Byte) (data : List Byte) (s : State) : State :=
  s.ownerCommand m false (fun s =>
    let v := (data.getD 0 0).toNat
    if data.length ≠ 1 ∨ 16 ≤ v then s.reply m .badArg []
    else ({ s with funcs := Vector.ofFn (fun n => { s.funcs[n] with deleg := (v / 2 ^ n.val) % 2 == 1 }) } : State).reply m .ok [])

/-- SET_MODID (12 R437). -/
def State.cmdSetModid (m : Byte) (data : List Byte) (s : State) : State :=
  s.ownerCommand m false (fun s =>
    let v := (data.getD 0 0).toNat
    if data.length ≠ 1 ∨ 64 ≤ v then s.reply m .badArg []
    else if s.fount.portUp ≠ [] then s.reply m .refused []
    else ({ s with fount := { s.fount with modid := BitVec.ofNat 6 v } } : State).reply m .ok [])

/-- A route byte is well formed for a partition (12 R438). -/
def Part.routeOk (p : Part) (b : Byte) : Bool :=
  bits b 6 4 == 0 && (!b.getLsbD 7 || p.ports.getLsbD (bits b 3 0))

/-- SET_ROUTE. -/
def State.cmdSetRoute (m : Byte) (data : List Byte) (s : State) : State :=
  s.ownerCommand m false (fun s =>
    match s.namedPart data with
    | some n =>
      if data.length = 65 ∧ (data.drop 1).all (s.parts[n]).routeOk then
        (s.modPart n (fun p => { p with routes := data.drop 1 })).reply m .ok []
      else s.reply m .badArg []
    | none => s.reply m .badArg [])

/-- Window w of a set of exports, as its 16 bytes. -/
def exportWindow (e : List Byte) (w : Nat) : List Byte := (e.drop (16 * w)).take 16

/-- First frame of the posting windows of this module as peers see them (12 R439). -/
def postFrame : Nat := 0x7F0000
def postPa : Nat := 0x7F00000000

/-- An export window is well formed for a partition (12 R438). -/
def Part.windowOk (p : Part) (w : List Byte) : Bool :=
  let first := field w 4 4
  let last := field w 8 4
  field w 0 1 / 64 == 0 && (field w 1 1 / 4) % 32 == 0 && field w 2 2 == 0 && field w 12 4 == 0 &&
    (field w 1 1 < 128 || (decide (first ≤ last) &&
      ((p.ownsPa (first * 65536) && p.ownsPa (last * 65536) && first / 2 ^ 20 == last / 2 ^ 20) ||
        (decide (postFrame ≤ first) && decide (last < postFrame + 4)))))

/-- SET_EXPORT. -/
def State.cmdSetExport (m : Byte) (data : List Byte) (s : State) : State :=
  s.ownerCommand m false (fun s =>
    match s.namedPart data with
    | some n =>
      if data.length = 272 ∧ ((data.drop 1).take 15).all (· == 0) ∧
          (List.range 16).all (fun w => (s.parts[n]).windowOk (exportWindow (data.drop 16) w)) then
        (s.modPart n (fun p => { p with exports := data.drop 16 })).reply m .ok []
      else s.reply m .badArg []
    | none => s.reply m .badArg [])

/-! Attestation and update (12 R443 to R446). -/

/-- The first 352 bytes of the evidence. -/
def Fount.evidence (f : Fount) (nonce : List Byte) : List Byte :=
  toBytes 4 0x45564944 ++ toBytes 4 1 ++ padTo 32 nonce ++ toBytes 1 f.modid.toNat ++ List.replicate 7 0 ++
    toBytes 8 f.rollback ++ toBytes 8 (f.versions.toList.getD f.active 0) ++ toBytes 8 f.serial.toNat ++ List.replicate 24 0 ++
    f.meas.toList.flatMap (padTo 32)

/-- ATTEST. -/
def State.cmdAttest (m : Byte) (data : List Byte) (s : State) : State :=
  s.command m true (fun s =>
    if data.length ≠ 32 then s.reply m .badArg []
    else
      let e := s.fount.evidence data
      s.reply m .ok (e ++ padTo 2420 (Config.sign (sha3 e))))

/-- EXTEND (12 R445). -/
def State.cmdExtend (m : Byte) (data : List Byte) (s : State) : State :=
  s.ownerCommand m false (fun s =>
    let i := (data.getD 0 0).toNat
    if data.length ≠ 33 ∨ i < 3 ∨ 7 < i then s.reply m .badArg []
    else (s.extendMeas (slotOf i) (data.drop 1)).reply m .ok [])

/-- CERT. -/
def State.cmdCert (m : Byte) (data : List Byte) (s : State) : State :=
  s.command m true (fun s => s.reply m .ok ((Config.certPage (ofBytes data)).take 4096))

/-- The firmware slot that does not run. -/
def Fount.spare (f : Fount) : Fin 2 := if f.active = 0 then 1 else 0

/-- An update step is logged and raises the cause. -/
def State.updateStep (s : State) (m : Byte) : State := (s.causeAll 3).logKind .update m none

/-- UPDATE_WRITE. -/
def State.cmdUpdateWrite (m : Byte) (data : List Byte) (s : State) : State :=
  s.ownerCommand m true (fun s =>
    if data.length < 4 then s.reply m .badArg []
    else
      let k := s.fount.spare
      let img := (s.fount.slotImg[k]).write (field data 0 4) (data.drop 4)
      if Config.imageVersion img < s.fount.rollback then s.reply m .refused []
      else (({ s with fount := { s.fount with
          slotImg := s.fount.slotImg.set k.val img, versions := s.fount.versions.set k.val (Config.imageVersion img) } } :
            State).updateStep m).reply m .ok [])

/-- UPDATE_ACTIVATE. -/
def State.cmdUpdateActivate (m : Byte) (_data : List Byte) (s : State) : State :=
  s.ownerCommand m true (fun s =>
    let k := s.fount.spare
    let img := s.fount.slotImg[k]
    if Config.imageOk img = false then s.reply m .authFail []
    else if Config.imageVersion img < s.fount.rollback then s.reply m .refused []
    else (({ s with fount := { s.fount with
        nextSlot := k.val, trial := true, fails := 0 } } : State).updateStep m).reply m .ok [])

/-- UPDATE_COMMIT. -/
def State.cmdUpdateCommit (m : Byte) (_data : List Byte) (s : State) : State :=
  s.ownerCommand m true (fun s =>
    (({ s with fount := { s.fount with
        trial := s.fount.trial && s.fount.nextSlot != s.fount.active
        rollback := max s.fount.rollback (s.fount.versions.toList.getD s.fount.active 0) } } : State).updateStep m).reply m .ok [])

/-! The event log (12 R447). -/

/-- LOG_READ. -/
def State.cmdLogRead (m : Byte) (data : List Byte) (s : State) : State :=
  s.command m true (fun s =>
    if data.length ≠ 8 then s.reply m .badArg []
    else s.reply m .ok (((s.fount.log.filter (fun e => decide (ofBytes data ≤ field e 0 8))).take 63).flatten))

/-- LOG_SEGMENT_SIGN: a segment that is full, or 10 s after the last signature. -/
def signDue (s : State) : Bool :=
  let f := s.fount
  decide (f.signedTo < f.logSeq) &&
    (decide ((f.signedTo / segEntries + 1) * segEntries ≤ f.logSeq) || decide (f.signedAt + 10000000 ≤ f.time))

def execLogSegmentSign (s : State) : Host.Outcome State Fault Refusal :=
  .next (if signDue s then
      let f := s.fount
      let g := f.signedTo / segEntries
      let es := f.log.filter (fun e => field e 0 8 / segEntries == g)
      { s with fount := { f with
        signed := Tbl.put f.signed (g % 128) (Config.sign es.flatten)
        signedTo := min f.logSeq ((g + 1) * segEntries)
        signedAt := f.time } }
    else s)

/-! Ports and peers (12 R437 to R439). -/

/-- The partition that an external port is assigned to. -/
def State.portPart (s : State) (port : BitVec 4) : Option (Fin 4) :=
  (List.finRange 4).find? (fun n => (s.parts[n]).state != .absent && (s.parts[n]).ports.getLsbD port.toNat)

/-- A port's state changed: logged, and the cause in its partition's function. -/
def State.portEvent (s : State) (port : BitVec 4) : State :=
  let n := s.portPart port
  let s := s.logKind .port 0xFF n
  match n with
  | some n => s.cause n 4
  | none => s

/-- PORT_LINK_UP: a port that meets its own module's id, or that of a module on another up port, is held down. -/
def execPortLinkUp (port : BitVec 4) (peer : ModuleId) (s : State) : Host.Outcome State Fault Refusal :=
  .next (
    if s.fount.boot ≠ .running ∨ (Tbl.get? s.fount.portUp port.toNat).isSome then s
    else if peer = s.fount.modid ∨ s.fount.portUp.any (fun p => p.2 == peer.toNat) then
      s.logKind .port 0xFF (s.portPart port)
    else
      ({ s with fount := { s.fount with portUp := Tbl.put s.fount.portUp port.toNat peer.toNat } } : State).portEvent port)

/-- PORT_LINK_DOWN. -/
def execPortLinkDown (port : BitVec 4) (s : State) : Host.Outcome State Fault Refusal :=
  .next (if (Tbl.get? s.fount.portUp port.toNat).isSome then
      ({ s with fount := { s.fount with portUp := Tbl.del s.fount.portUp port.toNat } } : State).portEvent port
    else s)

/-- A window of a partition admits an access of a module to a frame (12 R438). -/
def Part.admits (p : Part) (src : ModuleId) (kind : PeerKind) (frame : Nat) : Bool :=
  (List.range 16).any (fun w =>
    let b := exportWindow p.exports w
    b.length == 16 && decide (128 ≤ field b 1 1) && field b 0 1 == src.toNat &&
      (match kind with
       | .read => field b 1 1 % 2 == 1
       | .write => field b 1 1 / 2 % 2 == 1) && decide (field b 4 4 ≤ frame) && decide (frame ≤ field b 8 4))

/-- The partition that holds an address as peers see it: a stack, or a posting window. -/
def State.addrPart (s : State) (addr : Nat) : Option (Fin 4) :=
  if postPa ≤ addr ∧ addr < postPa + 0x40000 then s.partOf (dieOf (BitVec.ofNat 12 ((addr - postPa) / 64)))
  else (List.finRange 4).find? (fun n => (s.parts[n]).state != .absent && (s.parts[n]).ownsPa addr)

/-- PEER_ACCESS: an access of another module arrives; a read changes nothing here. -/
def execPeerAccess (source : ModuleId) (kind : PeerKind) (addr : Nat) (data : List Byte) (s : State) :
    Host.Outcome State Fault Refusal :=
  .next (
    match s.addrPart addr with
    | none => s
    | some n =>
      let frame := addr / 65536
      if (s.fount.portUp.any (fun p => p.2 == source.toNat)) = false ∨ (s.parts[n]).admits source kind frame = false
          ∨ (addr + data.length - 1) / 65536 ≠ frame then s
      else
        match kind with
        | .read => s
        | .write =>
          if postPa ≤ addr then
            let site : CoreId := BitVec.ofNat 12 ((addr - postPa) / 64)
            if addr % 64 = 0 ∧ data.length = 64 ∧ s.isDark site = false then s.post site data else s.strayPost site
          else s.fountWrite addr data)

end Sys2Proof.Machine
end

