-- ==== Sys2Proof/Machine/Power.lean ====
section
/-! DEFINITION. Power, performance states, parking, policy commands, holds and counters (15 R451 to R467). -/

namespace Sys2Proof.Machine

/-! Ceiling, shares, policy (15 R451). -/

def State.livePart (s : State) (n : Fin 4) : Bool := (s.parts[n]).state != .absent

/-- The sum of the shares. -/
def State.shares (s : State) : Nat := (List.finRange 4).foldl (fun t n => if s.livePart n then t + (s.parts[n]).share else t) 0

def Part.dieCount (p : Part) : Nat := (List.finRange 4).foldl (fun t d => if p.dies.getLsbD d.val then t + 1 else t) 0

/-! Limits on measured power (15 R453). -/

/-- Samples of a 1 ms window (15 R452). -/
def windowLen : Nat := 1000

/-- The limit that a 1 ms window keeps: for each change that the window contains the larger of its two limits, else the one in force; none
before any change. -/
def Bound.limit (b : Bound) (now : Nat) : Option Nat :=
  match b.changes with
  | [] => if b.kept then some now else none
  | c :: l => some (l.foldl (fun w x => min w x.2) c.2)

/-- A limit changes. -/
def Bound.change (b : Bound) (old new : Nat) : Bound := { kept := true, changes := (0, max old new) :: b.changes }

/-- One sample more; a change that the window no longer contains is passed. -/
def Bound.pass (b : Bound) : Bound :=
  { b with changes := (b.changes.map (fun x => (x.1 + 1, x.2))).filter (fun x => decide (x.1 < windowLen)) }

/-- A partition's share set, by a master: logged (15 R465). -/
def State.setShare (s : State) (n : Fin 4) (m : Byte) (w : Nat) : State :=
  (s.modPart n (fun p => { p with share := w, bound := p.bound.change p.share w })).logPower 0x0100 m (some n) [(s.parts[n]).share, w]

/-- Shares scaled to a lower ceiling. -/
def State.scaleShares (s : State) (m : Byte) (w : Nat) : State :=
  let sum := s.shares
  if sum ≤ w then s
  else (List.finRange 4).foldl (fun (s : State) n =>
    if s.livePart n then s.setShare n m (max (75 * (s.parts[n]).dieCount) ((s.parts[n]).share * w / sum)) else s) s

/-- SET_CEILING. -/
def State.cmdSetCeiling (m : Byte) (data : List Byte) (s : State) : State :=
  s.ownerCommand m false (fun s =>
    let w := field data 0 2
    if data.length ≠ 2 ∨ w < 300 ∨ 1400 < w then s.reply m .badArg []
    else
      let old := s.fount.ceiling
      let s : State := { s with fount := { s.fount with ceiling := w, bound := s.fount.bound.change old w } }
      ((s.logPower 0x0100 m none [old, w]).scaleShares m w).reply m .ok [])

/-- SET_SHARE. -/
def State.cmdSetShare (m : Byte) (data : List Byte) (s : State) : State :=
  s.ownerCommand m false (fun s =>
    match s.namedPart data with
    | none => s.reply m .badArg []
    | some n =>
      let w := field data 1 2
      let p := s.parts[n]
      if data.length ≠ 3 ∨ w < 75 * p.dieCount ∨ s.fount.ceiling < s.shares - p.share + w then s.reply m .badArg []
      else (s.setShare n m w).reply m .ok [])

/-- SET_PMAX. -/
def State.cmdSetPmax (m : Byte) (data : List Byte) (s : State) : State :=
  s.ownerCommand m false (fun s =>
    match s.namedPart data with
    | none => s.reply m .badArg []
    | some n =>
      let v := (data.getD 1 0).toNat
      if data.length ≠ 2 ∨ 5 < v then s.reply m .badArg [] else (s.modPart n (fun p => { p with pmax := v })).reply m .ok [])

/-- SET_ESCPOL (15 R466). -/
def State.cmdSetEscpol (m : Byte) (data : List Byte) (s : State) : State :=
  s.ownerCommand m false (fun s =>
    match s.namedPart data with
    | none => s.reply m .badArg []
    | some n =>
      if data.length ≠ 65 ∨ (data.drop 1).any (fun b => decide (4 < b.toNat)) then s.reply m .badArg []
      else (s.modPart n (fun p => { p with escpol := data.drop 1 })).reply m .ok [])

/-- SET_WDOG: as PARTCTL.5. -/
def State.cmdSetWdog (m : Byte) (data : List Byte) (s : State) : State :=
  s.ownerCommand m false (fun s =>
    match s.namedPart data with
    | none => s.reply m .badArg []
    | some n =>
      let v := (data.getD 1 0).toNat
      if data.length ≠ 2 ∨ v < 16 ∨ 32 < v then s.reply m .badArg [] else (s.modPart n (fun p => { p with wdog := v })).reply m .ok [])

/-- CLR_COUNTERS (15 R463, R464). -/
def State.cmdClrCounters (m : Byte) (_data : List Byte) (s : State) : State :=
  s.ownerCommand m false (fun s =>
    ({ s with fount := { s.fount with counters := Vector.replicate 16 0, pwrMax := 0 } } : State).reply m .ok [])

/-- FRESUME (15 R466, R467). -/
def State.cmdFresume (m : Byte) (data : List Byte) (s : State) : State :=
  s.ownerCommand m false (fun s =>
    let x : DWord := BitVec.ofNat 64 (field data 0 8)
    let site : CoreId := BitVec.ofNat 12 (bits x 11 0)
    let c := s.route site
    let k := slotOf (bits x 14 12)
    let n := s.partNo site
    let act := (data.getD 8 0).toNat
    if bits x 63 15 ≠ 0 then s.reply m .badArg []
    else if data.length = 9 ∧ s.heldBy c k none then
      match (s.release c k none m act).resume c k (BitVec.ofNat 64 act) with
      | some t => t.reply m .ok []
      | none => s.reply m .badArg []
    else if data.length = 11 ∧ s.heldBy c k (some (field data 9 2)) ∧ act ≤ 4 then
      let j := field data 9 2
      let code := ((s.copy? c j).bind Copy.hold).getD 0
      ((s.release c k (some j) m act).actCopy n c k j code (EscAct.ofByte act)).reply m .ok []
    else s.reply m .badArg [])

/-! Transitions (15 R459, R461, R462). -/

/-- A transition joins a line; an empty line begins it at once. -/
def State.enqueue (s : State) (d : Fin 4) (t : Transition) : State :=
  match s.line d with
  | [] => s.begin_ d [t]
  | l => s.setLine d (l ++ [t])

/-- PARK and UNPARK. -/
def State.cmdPark (up : Bool) (m : Byte) (data : List Byte) (s : State) : State :=
  s.ownerCommand m false (fun s =>
    let v := (data.getD 0 0).toNat
    if data.length ≠ 1 ∨ 3 < v then s.reply m .badArg []
    else
      let d : Fin 4 := ⟨v % 4, Nat.mod_lt _ (by decide)⟩
      (s.busyBox m).enqueue d (if up then .unpark d m else .park d m))

/-- A park or an unpark is complete: counted, logged, the cause, the reply, and the next transition. -/
def State.parkDone (s : State) (d : Fin 4) (m : Byte) : State :=
  let s := ((s.count 14 1).logPower 0x0102 m (s.partOf d) [d.val, Result.ok.num]).fleet (s.partOf d)
  let s := s.reply m .ok []
  s.begin_ d (s.line d).tail

/-- PARK_COMPLETE (15 R459). -/
def execParkComplete (die : Fin 4) (s : State) : Host.Outcome State Fault Refusal :=
  .next (match s.line die with
    | .park e m :: _ => if e = die then (s.modDie die (fun x => { x with state := .parked })).parkDone die m else s
    | _ => s)

/-- UNPARK_COMPLETE (15 R461): cores stopped and empty over empty scratchpads, Tarn contexts intact; the counts of 12 R415 stay. -/
def execUnparkComplete (die : Fin 4) (s : State) : Host.Outcome State Fault Refusal :=
  .next (match s.line die with
    | .unpark e m :: _ =>
      if e = die then
        let s := ((List.range 1024).map (fun k => (BitVec.ofNat 12 (die.val * 1024 + k) : CoreId))).foldl (fun (s : State) c =>
          if s.isDark c then s
          else s.modCore c (fun k => { Core.fresh with
            tarn := k.tarn, stopped := true, fwd := k.fwd, left := k.left, refused := k.refused, malformed := k.malformed })) s
        (s.modDie die (fun x => { x with state := .running })).parkDone die m
      else s
    | _ => s)

/-! Measuring and throttling (15 R452 to R455). -/

/-- The mean of a full window of samples. -/
def windowMean (l : List Nat) : Option Nat :=
  if windowLen ≤ l.length then some ((l.take windowLen).foldl (· + ·) 0 / windowLen) else none

/-- A window's mean keeps a limit in W. -/
def keeps (mean limit : Option Nat) : Bool :=
  match mean, limit with
  | some m, some w => decide (m ≤ 1000 * w)
  | _, _ => true

/-- The module's and the partitions' samples with one more, newest first. -/
def Fount.sampled (f : Fount) (module : Nat) (parts : List Nat) : Fount :=
  { f with
    samples := (module :: f.samples).take windowLen
    partPwr := Vector.ofFn (fun (n : Fin 4) => (parts.getD n.val 0 :: f.partPwr[n]).take windowLen)
    bound := f.bound.pass }

/-- A sample that the enforcement of 15 R453 lets the rails show: every window that it completes keeps its limit (log 89). -/
def State.mayMeasure (s : State) (f : Fount) : Bool :=
  keeps (windowMean f.samples) (f.bound.limit f.ceiling) &&
    (List.finRange 4).all (fun n => s.livePart n = false ||
      keeps (windowMean f.partPwr[n]) ((s.parts[n]).bound.pass.limit (s.parts[n]).share))

/-- RAIL_SAMPLE: module and partition power in mW. -/
def execRailSample (module : Nat) (parts : List Nat) (s : State) : Host.Outcome State Fault Refusal :=
  .next (
    let f := s.fount.sampled module parts
    if s.mayMeasure f = false then s
    else
      let w := (windowMean f.samples).getD f.pwr
      let s : State := { s with fount := { f with
        pwr := w, pwrMax := if (windowMean f.samples).isSome then max f.pwrMax w else f.pwrMax } }
      (List.finRange 4).foldl (fun (s : State) n =>
        s.modPart n (fun q => { q with
          bound := q.bound.pass
          calmAt := match windowMean f.partPwr[n] with
            | some p => if p * 100 ≤ q.share * 1000 * 95 then some (q.calmAt.getD f.time) else none
            | none => q.calmAt })) s)

/-- The common load in mW, as last measured: module power less that of the partitions (15 R453, log 89). -/
def Fount.common (f : Fount) : Nat :=
  f.samples.headD 0 - (List.finRange 4).foldl (fun t n => t + (f.partPwr[n]).headD 0) 0

/-- What a partition is held to, in mW: its share, or in proportion less where the shares and the common load exceed the ceiling
(15 R453). -/
def State.heldTo (s : State) (n : Fin 4) : Nat :=
  let w := (s.parts[n]).share
  let room := s.fount.ceiling * 1000 - s.fount.common
  if s.shares * 1000 ≤ room then w * 1000 else w * room / s.shares

/-- The window averages of 15 R453 are met, of the partition and of the module. -/
def State.windowsMet (s : State) (n : Fin 4) : Bool :=
  (windowMean s.fount.partPwr[n]).any (fun m => decide (m ≤ s.heldTo n)) &&
    (windowMean s.fount.samples).any (fun m => decide (m ≤ 1000 * s.fount.ceiling))

/-- A partition after an estimate of its 1 ms average: above what it is held to its duty falls, by one or more steps of 1/64 and to no less
than 1/64; else the duty may return, once the window averages are met (15 R454, log 9). -/
def Part.throttle (p : Part) (high met : Bool) (time free : Nat) : Part :=
  if high then
    { p with
      duty := p.duty - 1 - free % max 1 p.duty
      lowAt := some (p.lowAt.getD time) }
  else if met then
    let up := min 63 (p.duty + free % (64 - min 63 p.duty))
    { p with duty := up, lowAt := if up = 63 then none else p.lowAt }
  else p

/-- POWER_ESTIMATE: projected 1 ms averages of the partitions, in mW. -/
def execPowerEstimate (projected : List Nat) (s : State) : Host.Outcome State Fault Refusal :=
  .next (
    let t := (List.finRange 4).foldl (fun (s : State) n =>
      if s.livePart n = false then s
      else
        let p := s.parts[n]
        let high := decide (s.heldTo n < projected.getD n.val 0)
        let s := if high && p.duty == 63 then s.count 8 1 else s
        s.setPart n (p.throttle high (s.windowsMet n) s.fount.time (Config.nat2 s.clock n.val))) s
    { t with clock := t.clock + 1 })

/-- Whether a partition's cores may issue, and start steps and chunks, at a TICK (15 R455). -/
def Part.duty64 (p : Part) : Bool :=
  decide (63 ≤ p.duty) || decide ((p.tick + Config.dutyPhase p.duty) % 64 ≤ p.duty)

/-! P-state steps (15 R454, R457, R458). -/

def isStep : Transition → Bool
  | .step _ => true
  | _ => false

/-- Causes of a P-state step, as its log entry shows them (15 R465). -/
inductive StepCause
  | power | thermal | pmax
deriving DecidableEq, Repr

/-- DESIGN CHOICE (log 106): the causes are numbered in the order in which the table names them. -/
def StepCause.num : StepCause → Nat
  | .power => 0
  | .thermal => 1
  | .pmax => 2

/-- The P-state that a partition's last step leads to. -/
def Part.goal (p : Part) : Nat := p.trans.foldl (fun v t => match t with | .step v => v | _ => v) p.pcur

/-- A step from the state that the line leads to is decided: counted, logged, and in line. -/
def State.decide_ (s : State) (n : Fin 4) (t : Nat) (cause : StepCause) : State :=
  let now := some s.fount.time
  let old := (s.parts[n]).goal
  let s := if old < t then (s.modPart n (fun p => { p with stepAt := now })).count 9 1
    else (s.modPart n (fun p => { p with upAt := now })).count 10 1
  let s := s.logPower 0x0101 0xFF (some n) [old, t, cause.num]
  match (s.parts[n]).dieList.head? with
  | some d => s.enqueue d (.step t)
  | none => s

def since (now : Nat) (t : Option Nat) (n : Nat) : Bool :=
  match t with
  | some t => decide (t + n ≤ now)
  | none => true

/-- PSTATE_STEP_DOWN: throttled for 20 µs and 50 µs after the last decision, or above the highest state allowed. -/
def stepDownDue (s : State) (n : Fin 4) : Bool :=
  let p := s.parts[n]
  let now := s.fount.time
  s.livePart n && !p.trans.any isStep && decide (p.pcur < 5) &&
    (decide (p.pcur < p.pmax) || (p.lowAt.isSome && since now p.lowAt 20 && since now p.stepAt 50))

def execPstateStepDown (part : Fin 4) (s : State) : Host.Outcome State Fault Refusal :=
  .next (if stepDownDue s part then
      s.decide_ part ((s.parts[part]).pcur + 1) (if (s.parts[part]).pcur < (s.parts[part]).pmax then .pmax else .power)
    else s)

/-- PSTATE_STEP_UP: 5 % below the share for 10 ms, every die below 95 °C, below PMAX, 10 ms after the last step up. -/
def stepUpDue (s : State) (n : Fin 4) : Bool :=
  let p := s.parts[n]
  let now := s.fount.time
  s.livePart n && !p.trans.any isStep && decide (p.pmax < p.pcur) && p.calmAt.isSome && since now p.calmAt 10000 &&
    since now p.upAt 10000 && p.dieList.all (fun d => decide ((s.dies[d]).tmax.toNat < 95 * 16))

def execPstateStepUp (part : Fin 4) (s : State) : Host.Outcome State Fault Refusal :=
  .next (if stepUpDue s part then s.decide_ part ((s.parts[part]).pcur - 1) .power else s)

/-- PSTATE_STEP_COMPLETE (15 R457). -/
def execPstateStepComplete (part : Fin 4) (s : State) : Host.Outcome State Fault Refusal :=
  .next (match (s.parts[part]).trans, (s.parts[part]).dieList.head? with
    | .step t :: rest, some d => (s.modPart part (fun p => { p with pcur := t })).begin_ d rest
    | _, _ => s)

/-- A trip: every partition stops, the dies are powered down, and the module is in recovery (15 R458). -/
def State.trip (s : State) (die : Fin 4) (tmax : Nat) : State :=
  let s := s.logPower 0x0103 0xFF (s.partOf die) [die.val, tmax]
  let s := (List.finRange 4).foldl (fun (s : State) n => if s.livePart n then (s.endHolds n).setPartState n .absent else s) s
  { s with
    cores := []
    parts := Vector.replicate 4 {}
    dies := Vector.ofFn (fun d => { tmax := if d = die then BitVec.ofNat 12 (min 4095 tmax) else (s.dies[d]).tmax })
    circuits := Vector.replicate 64 {}
    fount := { s.fount with boot := .recovery, queue := [] } }

/-- THERMAL_STEP: a die reads a temperature; at 100 °C its partition steps down, after the transitions in its line (15 R458, R462, log 90),
and at 110 °C the module trips. -/
def execThermalStep (die : Fin 4) (tmax : Nat) (s : State) : Host.Outcome State Fault Refusal :=
  .next (
    let s := s.modDie die (fun x => { x with tmax := BitVec.ofNat 12 (min 4095 tmax) })
    if tmax < 100 * 16 ∨ (s.dies[die]).state = .off then s
    else if 110 * 16 ≤ tmax ∧ s.fount.boot = .running then s.trip die tmax
    else
      match s.partOf die with
      | some n =>
        if (s.parts[n]).goal < 5 then
          (((s.count 11 1).logPower 0x0103 0xFF (some n) [die.val, tmax]).fleet (some n)).decide_ n ((s.parts[n]).goal + 1) .thermal
        else s
      | none => s)

/-- THERMAL_TRIP (15 R458). -/
def execThermalTrip (die : Fin 4) (tmax : Nat) (s : State) : Host.Outcome State Fault Refusal :=
  .next (if tmax < 110 * 16 ∨ s.fount.boot ≠ .running then s else s.trip die tmax)

end Sys2Proof.Machine
end

