-- ==== Sys2Proof/Machine/Commands.lean ====
section
/-! DEFINITION. Fount's line of mailbox commands (12 R424, R425) and the rows of the table that are commands. -/

namespace Sys2Proof.Machine

/-- The command of a CODE (12 R424); none for an unlisted one. -/
def commandOf (code : Nat) : Option (Byte → List Byte → State → State) :=
  match code with
  | 0x01 => some State.cmdClaim
  | 0x02 => some State.cmdRenew
  | 0x03 => some State.cmdYield
  | 0x10 => some State.cmdPartCreate
  | 0x11 => some (State.cmdPartEnd false)
  | 0x12 => some (State.cmdPartEnd true)
  | 0x13 => some State.cmdSetDeleg
  | 0x14 => some State.cmdSetModid
  | 0x15 => some State.cmdSetRoute
  | 0x16 => some State.cmdSetExport
  | 0x20 => some State.cmdAttest
  | 0x21 => some State.cmdExtend
  | 0x22 => some State.cmdCert
  | 0x30 => some State.cmdUpdateWrite
  | 0x31 => some State.cmdUpdateActivate
  | 0x32 => some State.cmdUpdateCommit
  | 0x40 => some State.cmdLogRead
  | 0x50 => some State.cmdSetCeiling
  | 0x51 => some State.cmdSetShare
  | 0x52 => some State.cmdSetPmax
  | 0x53 => some (State.cmdPark false)
  | 0x54 => some (State.cmdPark true)
  | 0x55 => some State.cmdSetEscpol
  | 0x56 => some State.cmdFresume
  | 0x57 => some State.cmdSetWdog
  | 0x58 => some State.cmdClrCounters
  | _ => none

/-- Fount begins a command (12 R424): ownership is looked at now. An unlisted CODE completes with BAD_ARG. -/
def State.begin (s : State) (m : Byte) (code : Nat) (data : List Byte) : State :=
  match commandOf code with
  | some k => k m data s
  | none => s.command m false (fun s => s.reply m .badArg [])

/-- A command arrives (12 R424): one at a time and in order of arrival, so that it waits while a claim is being verified. Every other command is
done as it begins; a PARK or UNPARK goes on in its own line (15 R462, log 91). -/
def State.arrive (s : State) (m : Byte) (code : Nat) (data : List Byte) : State :=
  if s.isMaster m = false ∨ (s.box m).state = 1 ∨ s.fount.boot = .unpowered then s
  else if s.fount.claims = [] then s.begin m code data
  else
    let t := s.busyBox m
    { t with fount := { t.fount with claims := t.fount.claims ++ [⟨m, data, s.owned, code⟩] } }

/-- Fount goes through the commands that waited, up to the next claim. -/
def State.serveLine (s : State) : List Claimant → State
  | [] => { s with fount := { s.fount with claims := [] } }
  | c :: rest =>
    if c.code = 1 then { s with fount := { s.fount with claims := c :: rest } } else (s.begin c.master c.code c.data).serveLine rest

/-- CLAIM_VERIFICATION (12 R425): the claim at the head of the line is decided, and Fount goes on with the line. -/
def execClaimVerification (s : State) : Host.Outcome State Fault Refusal :=
  .next (match s.fount.claims with
    | [] => s
    | c :: rest => (s.decideClaim c).serveLine rest)

/-! The rows. -/

/-- CLAIM (12 R425). -/
def execClaim (master : Byte) (data : List Byte) (s : State) : Host.Outcome State Fault Refusal := .next (s.arrive master 0x01 data)
/-- RENEW (12 R426). -/
def execRenew (master : Byte) (data : List Byte) (s : State) : Host.Outcome State Fault Refusal := .next (s.arrive master 0x02 data)
/-- YIELD (12 R427). -/
def execYieldOwnership (master : Byte) (data : List Byte) (s : State) : Host.Outcome State Fault Refusal := .next (s.arrive master 0x03 data)
/-- PART_CREATE (12 R431). -/
def execPartCreate (master : Byte) (data : List Byte) (s : State) : Host.Outcome State Fault Refusal := .next (s.arrive master 0x10 data)
/-- PART_DESTROY (12 R432). -/
def execPartDestroy (master : Byte) (data : List Byte) (s : State) : Host.Outcome State Fault Refusal := .next (s.arrive master 0x11 data)
/-- PART_RESET (12 R432). -/
def execPartReset (master : Byte) (data : List Byte) (s : State) : Host.Outcome State Fault Refusal := .next (s.arrive master 0x12 data)
/-- SET_DELEG (12 R421). -/
def execSetDeleg (master : Byte) (data : List Byte) (s : State) : Host.Outcome State Fault Refusal := .next (s.arrive master 0x13 data)
/-- SET_MODID (12 R437). -/
def execSetModid (master : Byte) (data : List Byte) (s : State) : Host.Outcome State Fault Refusal := .next (s.arrive master 0x14 data)
/-- SET_ROUTE (12 R438). -/
def execSetRoute (master : Byte) (data : List Byte) (s : State) : Host.Outcome State Fault Refusal := .next (s.arrive master 0x15 data)
/-- SET_EXPORT (12 R438). -/
def execSetExport (master : Byte) (data : List Byte) (s : State) : Host.Outcome State Fault Refusal := .next (s.arrive master 0x16 data)
/-- ATTEST (12 R446). -/
def execAttest (master : Byte) (data : List Byte) (s : State) : Host.Outcome State Fault Refusal := .next (s.arrive master 0x20 data)
/-- EXTEND (12 R445). -/
def execExtend (master : Byte) (data : List Byte) (s : State) : Host.Outcome State Fault Refusal := .next (s.arrive master 0x21 data)
/-- CERT (12 R443). -/
def execCert (master : Byte) (data : List Byte) (s : State) : Host.Outcome State Fault Refusal := .next (s.arrive master 0x22 data)
/-- UPDATE_WRITE (12 R444). -/
def execUpdateWrite (master : Byte) (data : List Byte) (s : State) : Host.Outcome State Fault Refusal := .next (s.arrive master 0x30 data)
/-- UPDATE_ACTIVATE (12 R444). -/
def execUpdateActivate (master : Byte) (data : List Byte) (s : State) : Host.Outcome State Fault Refusal := .next (s.arrive master 0x31 data)
/-- UPDATE_COMMIT (12 R444). -/
def execUpdateCommit (master : Byte) (data : List Byte) (s : State) : Host.Outcome State Fault Refusal := .next (s.arrive master 0x32 data)
/-- LOG_READ (12 R447). -/
def execLogRead (master : Byte) (data : List Byte) (s : State) : Host.Outcome State Fault Refusal := .next (s.arrive master 0x40 data)
/-- SET_CEILING (15 R451). -/
def execSetCeiling (master : Byte) (data : List Byte) (s : State) : Host.Outcome State Fault Refusal := .next (s.arrive master 0x50 data)
/-- SET_SHARE (15 R451). -/
def execSetShare (master : Byte) (data : List Byte) (s : State) : Host.Outcome State Fault Refusal := .next (s.arrive master 0x51 data)
/-- SET_PMAX (15 R451). -/
def execSetPmax (master : Byte) (data : List Byte) (s : State) : Host.Outcome State Fault Refusal := .next (s.arrive master 0x52 data)
/-- PARK (15 R459). -/
def execPark (master : Byte) (data : List Byte) (s : State) : Host.Outcome State Fault Refusal := .next (s.arrive master 0x53 data)
/-- UNPARK (15 R461). -/
def execUnpark (master : Byte) (data : List Byte) (s : State) : Host.Outcome State Fault Refusal := .next (s.arrive master 0x54 data)
/-- SET_ESCPOL (15 R466). -/
def execSetEscpol (master : Byte) (data : List Byte) (s : State) : Host.Outcome State Fault Refusal := .next (s.arrive master 0x55 data)
/-- FRESUME (15 R466). -/
def execFresume (master : Byte) (data : List Byte) (s : State) : Host.Outcome State Fault Refusal := .next (s.arrive master 0x56 data)
/-- SET_WDOG (15 R451). -/
def execSetWdog (master : Byte) (data : List Byte) (s : State) : Host.Outcome State Fault Refusal := .next (s.arrive master 0x57 data)
/-- CLR_COUNTERS (15 R464). -/
def execClrCounters (master : Byte) (data : List Byte) (s : State) : Host.Outcome State Fault Refusal := .next (s.arrive master 0x58 data)

end Sys2Proof.Machine
end

