-- ==== Sys2Proof/Machine/Integer.lean ====
section
/-! DEFINITION. Integer instructions, opcodes 0x20 to 0x3B (07 R219 to R221, 08 R272 to R278). -/

namespace Sys2Proof.Machine

/-- A V sub-op with b elements from f, in active lanes (08 R251, R272). -/
def aluV (op : AluOp) (d a : VReg) (b : Gang → Fin 32 → IntTy → Nat → Nat) (vs : List VReg) (s : State) :
    Host.Outcome State Fault Refusal :=
  runGang vs (fun g =>
    match aluTy op (modeEtype g.regs.mode) with
    | none => .fault (flt .illegal)
    | some t => .done (g.setV d (fun i => aluLane op t (modeSat g.regs.mode) (g.v a)[i] (b g i t)))) s

/-- VOP (08 R272). -/
def execVop (op : AluOp) (d a b : VReg) (s : State) : Host.Outcome State Fault Refusal :=
  aluV op d a (fun g i t j => elemOf t.width j ((g.v b)[i]).toNat) [d, a, b] s

/-- VOPS (08 R272): S[b] in every element position. -/
def execVops (op : AluOp) (d a : VReg) (b : SReg) (s : State) : Host.Outcome State Fault Refusal :=
  aluV op d a (fun g _ t _ => (g.s b).toNat % 2 ^ t.width) [d, a] s

/-- An immediate V form: each element receives the low bits of the extended immediate (08 R274). -/
def aluImmV (op : AluOp) (d a : VReg) (imm : Nat) (s : State) : Host.Outcome State Fault Refusal :=
  aluV op d a (fun _ _ t _ => imm % 2 ^ t.width) [d, a] s

def execAddImmV (d a : VReg) (imm : BitVec 12) (s : State) : Host.Outcome State Fault Refusal := aluImmV .add d a (immS imm) s
def execMulImmV (d a : VReg) (imm : BitVec 12) (s : State) : Host.Outcome State Fault Refusal := aluImmV .mul d a (immS imm) s
def execAndImmV (d a : VReg) (imm : BitVec 12) (s : State) : Host.Outcome State Fault Refusal := aluImmV .and d a (immZ imm) s
def execOrImmV (d a : VReg) (imm : BitVec 12) (s : State) : Host.Outcome State Fault Refusal := aluImmV .or d a (immZ imm) s
def execXorImmV (d a : VReg) (imm : BitVec 12) (s : State) : Host.Outcome State Fault Refusal := aluImmV .xor d a (immZ imm) s
def execShlImmV (d a : VReg) (imm : BitVec 8) (s : State) : Host.Outcome State Fault Refusal := aluImmV .shl d a imm.toNat s
def execShrImmV (d a : VReg) (imm : BitVec 8) (s : State) : Host.Outcome State Fault Refusal := aluImmV .shr d a imm.toNat s
def execSraImmV (d a : VReg) (imm : BitVec 8) (s : State) : Host.Outcome State Fault Refusal := aluImmV .sra d a imm.toNat s

/-- A V compare under ETYPE 0 or 1 (08 R275). -/
def compareV (op : CmpOp) (d : PReg) (a : VReg) (b : Gang → Fin 32 → Nat) (vs : List VReg) (s : State) :
    Host.Outcome State Fault Refusal :=
  runGang vs (fun g =>
    match modeEtype g.regs.mode with
    | 0 => .done (g.setPLanes d (maskOf (fun i =>
        compare op (signed 32 ((g.v a)[i]).toNat) (signed 32 (b g i)) ((g.v a)[i]).toNat (b g i))))
    | 1 => .done (g.setPLanes d (maskOf (fun i =>
        compare op (((g.v a)[i]).toNat : Int) ((b g i : Nat) : Int) ((g.v a)[i]).toNat (b g i))))
    | _ => .fault (flt .illegal)) s

/-- VCMP (08 R275). -/
def execVcmp (op : CmpOp) (d : PReg) (a b : VReg) (s : State) : Host.Outcome State Fault Refusal :=
  compareV op d a (fun g i => ((g.v b)[i]).toNat) [a, b] s

/-- VCMPS (08 R275). -/
def execVcmps (op : CmpOp) (d : PReg) (a : VReg) (b : SReg) (s : State) : Host.Outcome State Fault Refusal :=
  compareV op d a (fun g _ => (g.s b).toNat % 2 ^ 32) [a] s

/-- ETYPE 13 or 14 stops every instruction that reads or writes a V register under it (01 R24, 08 R252). -/
def noWide (g : Gang) (r : GRes) : GRes :=
  if modeEtype g.regs.mode = 13 ∨ modeEtype g.regs.mode = 14 then .fault (flt .illegal) else r

/-- SEL (08 R276). -/
def execSel (d a b : VReg) (p : PReg) (s : State) : Host.Outcome State Fault Refusal :=
  runGang [d, a, b] (fun g =>
    noWide g (.done (g.setV d (fun i => if Mask.has (g.p p) i then (g.v a)[i] else (g.v b)[i])))) s

/-- MAD (08 R277). -/
def execMad (d a b : VReg) (s : State) : Host.Outcome State Fault Refusal :=
  runGang [d, a, b] (fun g =>
    match etypeInt (modeEtype g.regs.mode) with
    | none => .fault (flt .illegal)
    | some t => .done (g.setV d (fun i => perElem t.width (fun j =>
        let e (r : VReg) : Int := t.read (elemOf t.width j ((g.v r)[i]).toNat)
        t.sat (modeSat g.regs.mode) (e d + e a * e b))))) s

/-- The sum of products of a lane's elements, added to d as a 32-bit value (08 R277). -/
def dotLane (t : IntTy) (sat : Bool) (d a b : Word) : Word :=
  let acc : IntTy := ⟨32, t.signed⟩
  let sum := (List.range (32 / t.width)).foldl
    (fun x j => x + t.read (elemOf t.width j a.toNat) * t.read (elemOf t.width j b.toNat)) (acc.read d.toNat)
  BitVec.ofNat 32 (acc.sat sat sum)

/-- DOT2 (08 R277). -/
def execDot2 (d a b : VReg) (s : State) : Host.Outcome State Fault Refusal :=
  runGang [d, a, b] (fun g =>
    match etypeInt (modeEtype g.regs.mode) with
    | some t =>
      if t.width = 16 then .done (g.setV d (fun i => dotLane t (modeSat g.regs.mode) (g.v d)[i] (g.v a)[i] (g.v b)[i]))
      else .fault (flt .illegal)
    | none => .fault (flt .illegal)) s

/-- DOT4 (08 R277). -/
def execDot4 (d a b : VReg) (s : State) : Host.Outcome State Fault Refusal :=
  runGang [d, a, b] (fun g =>
    match etypeInt (modeEtype g.regs.mode) with
    | some t =>
      if t.width = 8 then .done (g.setV d (fun i => dotLane t (modeSat g.regs.mode) (g.v d)[i] (g.v a)[i] (g.v b)[i]))
      else .fault (flt .illegal)
    | none => .fault (flt .illegal)) s

/-- A scalar sub-op: 64 bits, wrapping (08 R272). -/
def aluS (op : AluOp) (d a : SReg) (b : Gang → Nat) (s : State) : Host.Outcome State Fault Refusal :=
  runGang [] (fun g =>
    .done (g.setS d (BitVec.ofNat 64 (aluElem op scalarTy false (g.s a).toNat (b g))))) s

/-- SOP (08 R272). -/
def execSop (op : AluOp) (d a b : SReg) (s : State) : Host.Outcome State Fault Refusal :=
  aluS op d a (fun g => (g.s b).toNat) s

def execAddImmS (d a : SReg) (imm : BitVec 12) (s : State) : Host.Outcome State Fault Refusal := aluS .add d a (fun _ => immS imm) s
def execMulImmS (d a : SReg) (imm : BitVec 12) (s : State) : Host.Outcome State Fault Refusal := aluS .mul d a (fun _ => immS imm) s
def execAndImmS (d a : SReg) (imm : BitVec 12) (s : State) : Host.Outcome State Fault Refusal := aluS .and d a (fun _ => immZ imm) s
def execOrImmS (d a : SReg) (imm : BitVec 12) (s : State) : Host.Outcome State Fault Refusal := aluS .or d a (fun _ => immZ imm) s
def execXorImmS (d a : SReg) (imm : BitVec 12) (s : State) : Host.Outcome State Fault Refusal := aluS .xor d a (fun _ => immZ imm) s
def execShlImmS (d a : SReg) (imm : BitVec 8) (s : State) : Host.Outcome State Fault Refusal := aluS .shl d a (fun _ => imm.toNat) s
def execShrImmS (d a : SReg) (imm : BitVec 8) (s : State) : Host.Outcome State Fault Refusal := aluS .shr d a (fun _ => imm.toNat) s
def execSraImmS (d a : SReg) (imm : BitVec 8) (s : State) : Host.Outcome State Fault Refusal := aluS .sra d a (fun _ => imm.toNat) s

/-- LIL (08 R278). -/
def execLil (d : SReg) (imm : BitVec 16) (s : State) : Host.Outcome State Fault Refusal :=
  runGang [] (fun g => .done (g.setS d (imm.zeroExtend 64))) s

/-- LIH (08 R278). -/
def execLih (d : SReg) (imm : BitVec 16) (k : BitVec 2) (s : State) : Host.Outcome State Fault Refusal :=
  runGang [] (fun g =>
    .done (g.setS d ((g.s d &&& ~~~ (BitVec.ofNat 64 (0xFFFF * 2 ^ (16 * k.toNat)))) |||
      BitVec.ofNat 64 (imm.toNat * 2 ^ (16 * k.toNat))))) s

/-- SCMP (08 R275): every lane of P[d]. -/
def execScmp (op : CmpOp) (d : PReg) (a b : SReg) (s : State) : Host.Outcome State Fault Refusal :=
  runGang [] (fun g =>
    .done (g.setP d (if compare op (signed 64 (g.s a).toNat) (signed 64 (g.s b).toNat) (g.s a).toNat (g.s b).toNat
      then BitVec.allOnes 32 else 0))) s

end Sys2Proof.Machine
end

