-- ==== Sys2Proof/Machine/LaneOps.lean ====
section
/-! DEFINITION. Lane operations and predicates, opcodes 0x40 to 0x4A (07 R222, 08 R279 to R287). -/

namespace Sys2Proof.Machine

/-- Lane n mod 32. -/
def laneAt (n : Nat) : Fin 32 := ⟨n % 32, Nat.mod_lt _ (by decide)⟩

/-- SHFL (08 R279). -/
def execShfl (d a b : VReg) (s : State) : Host.Outcome State Fault Refusal :=
  runGang [d, a, b] (fun g => noWide g (.done (g.setV d (fun i => (g.v a)[laneAt ((g.v b)[i]).toNat])))) s

/-- A shuffle by a lane number computed from the lane and a distance (08 R280); none leaves the lane's own value. -/
def shuffle (d a : VReg) (b : SReg) (j : Nat → Nat → Option Nat) (s : State) : Host.Outcome State Fault Refusal :=
  runGang [d, a] (fun g => noWide g (.done (g.setV d (fun i =>
    match j i.val (g.s b).toNat with
    | some k => (g.v a)[laneAt k]
    | none => (g.v a)[i])))) s

/-- SHFL.UP (08 R280). -/
def execShflUp (d a : VReg) (b : SReg) (s : State) : Host.Outcome State Fault Refusal :=
  shuffle d a b (fun i k => if k ≤ i then some (i - k) else none) s

/-- SHFL.DOWN (08 R280). -/
def execShflDown (d a : VReg) (b : SReg) (s : State) : Host.Outcome State Fault Refusal :=
  shuffle d a b (fun i k => if i + k < 32 then some (i + k) else none) s

/-- SHFL.XOR (08 R280). -/
def execShflXor (d a : VReg) (b : SReg) (s : State) : Host.Outcome State Fault Refusal :=
  shuffle d a b (fun i k => some (Nat.xor i (k % 32))) s

/-- SHFL.BCAST (08 R280). -/
def execShflBcast (d a : VReg) (b : SReg) (s : State) : Host.Outcome State Fault Refusal :=
  shuffle d a b (fun _ k => some (k % 32)) s

/-- Values of the active lanes in ascending order. -/
def Gang.activeVals (g : Gang) (a : VReg) : List Nat := (Mask.lanes g.active).map (fun i => ((g.v a)[i]).toNat)

/-- Integer reductions (08 R281) in a 32-bit type, as 64-bit patterns. -/
def vredInt (k : VredKind) (t : IntTy) (vs : List Nat) : Nat :=
  let w : IntTy := ⟨64, true⟩
  match k with
  | .add => w.wrap (vs.foldl (fun x v => x + t.read v) 0)
  | .min => w.wrap (vs.foldl (fun x v => min x (t.read v)) t.hi)
  | .max => w.wrap (vs.foldl (fun x v => max x (t.read v)) t.lo)
  | .and => vs.foldl Nat.land 0xFFFFFFFF
  | .or => vs.foldl Nat.lor 0
  | .xor => vs.foldl Nat.xor 0
  | _ => 0

/-- An f32 value rounded to f32: it stays, and a finite one steps the LFSR under SR (03 R93, log 20). -/
def reround (c : FpCfg) (r : Nat × FpSt) : Nat × FpSt :=
  match f32.decode false r.1 with
  | .fin _ _ _ => (r.1, r.2.tick c.rnd)
  | _ => r

/-- The f32 operation of a float reduction with its rounding (08 R281). -/
def vredOp (k : VredKind) (c : FpCfg) (a b : Nat) (t : FpSt) : Nat × FpSt :=
  match k with
  | .fmin => reround c (fpMinMax false f32 c a b t)
  | .fmax => reround c (fpMinMax true f32 c a b t)
  | _ => fpAdd f32 c a b t

/-- The first value of a float reduction: read under FTZ, a NaN made canonical (08 R281). -/
def vredFirst (c : FpCfg) (x : Nat) (t : FpSt) : Nat × FpSt :=
  match f32.decode c.ftz x with
  | .nan sig => (f32.nan, if sig then t.raise flagNV else t)
  | _ => (readBits f32 c.ftz x, t)

/-- The float reduction over the active lanes in ascending order: after each lane its accumulator; LFSR k steps at lane k. -/
def Gang.vredFloat (g : Gang) (k : VredKind) (a : VReg) : List (Fin 32 × Nat) × Gang :=
  (Mask.lanes g.active).foldl
    (fun acc i =>
      let (l, h) := acc
      let x := ((g.v a)[i]).toNat
      let t : FpSt := ⟨h.regs.lfsr[i], 0⟩
      let (r, t) := match l.getLast? with
        | none => vredFirst g.fpCfg x t
        | some p => vredOp k g.fpCfg p.2 x t
      let h := h.raise t.flags
      (l ++ [(i, r)], { h with regs := { h.regs with lfsr := h.regs.lfsr.set i.val t.lfsr } })) ([], g)

/-- Whether a kind of VRED is a float kind. -/
def VredKind.float : VredKind → Bool
  | .fadd | .fmin | .fmax => true
  | _ => false

/-- VRED (08 R281). -/
def execVred (k : VredKind) (d : SReg) (a : VReg) (s : State) : Host.Outcome State Fault Refusal :=
  runGang [a] (fun g =>
    if VredKind.float k then
      if modeEtype g.regs.mode = 6 then
        let (l, g') := g.vredFloat k a
        let none_ := if k = .fadd then 0 else f32.nan
        .done (g'.setS d (BitVec.ofNat 64 ((l.getLast?.map Prod.snd).getD none_)))
      else .fault (flt .illegal)
    else
      match modeEtype g.regs.mode with
      | 0 => .done (g.setS d (BitVec.ofNat 64 (vredInt k ⟨32, true⟩ (g.activeVals a))))
      | 1 => .done (g.setS d (BitVec.ofNat 64 (vredInt k ⟨32, false⟩ (g.activeVals a))))
      | _ => .fault (flt .illegal)) s

/-- Integer prefixes (08 R282) at a lane: the values of active lanes before and with it. -/
def vscanInt (k : VscanKind) (t : IntTy) (sat : Bool) (before : List Nat) (own : Nat) : Nat :=
  match k with
  | .add => t.sat sat ((before ++ [own]).foldl (fun x v => x + t.read v) 0)
  | .addx => t.sat sat (before.foldl (fun x v => x + t.read v) 0)
  | .min => t.wrap (before.foldl (fun x v => min x (t.read v)) (t.read own))
  | .max => t.wrap (before.foldl (fun x v => max x (t.read v)) (t.read own))
  | .fadd => 0

/-- VSCAN (08 R282). -/
def execVscan (k : VscanKind) (d a : VReg) (s : State) : Host.Outcome State Fault Refusal :=
  runGang [d, a] (fun g =>
    let int (t : IntTy) : GRes :=
      .done (g.setV d (fun i =>
        let before := ((Mask.lanes g.active).filter (fun j => decide (j.val < i.val))).map (fun j => ((g.v a)[j]).toNat)
        BitVec.ofNat 32 (vscanInt k t (modeSat g.regs.mode) before ((g.v a)[i]).toNat)))
    if k = .fadd then
      if modeEtype g.regs.mode = 6 then
        let (l, g') := g.vredFloat .fadd a
        .done (g'.setV d (fun i => BitVec.ofNat 32 (((l.find? (fun x => x.1 == i)).map Prod.snd).getD 0)))
      else .fault (flt .illegal)
    else
      match modeEtype g.regs.mode with
      | 0 => int ⟨32, true⟩
      | 1 => int ⟨32, false⟩
      | _ => .fault (flt .illegal)) s

/-- VOTE (08 R283). -/
def execVote (k : VoteKind) (d : SReg) (a : PReg) (s : State) : Host.Outcome State Fault Refusal :=
  runGang [] (fun g =>
    let m := g.p a &&& g.active
    .done (g.setS d (match k with
      | .ballot => m.zeroExtend 64
      | .any => if m ≠ 0 then 1 else 0
      | .all => if ~~~ g.p a &&& g.active = 0 then 1 else 0
      | .count => BitVec.ofNat 64 (popCount m)))) s

/-- PLOG (08 R284). -/
def execPlog (op : PlogOp) (d a b : PReg) (s : State) : Host.Outcome State Fault Refusal :=
  runGang [] (fun g =>
    .done (g.setPLanes d (match op with
      | .pand => g.p a &&& g.p b
      | .por => g.p a ||| g.p b
      | .pxor => g.p a ^^^ g.p b
      | .pandn => g.p a &&& ~~~ g.p b
      | .pnot => ~~~ g.p b
      | .pmov => g.p b))) s

/-- PTOS (08 R285). -/
def execPtos (d : SReg) (a : PReg) (s : State) : Host.Outcome State Fault Refusal :=
  runGang [] (fun g => .done (g.setS d ((g.p a).zeroExtend 64))) s

/-- PFROMS (08 R285): every lane. -/
def execPfroms (d : PReg) (a : SReg) (s : State) : Host.Outcome State Fault Refusal :=
  runGang [] (fun g => .done (g.setP d ((g.s a).truncate 32))) s

/-- SETEXM (08 R286). -/
def execSetexm (a : SReg) (s : State) : Host.Outcome State Fault Refusal :=
  runGang [] (fun g => .done (g.setExm ((g.s a).truncate 32))) s

/-- GETEXM (08 R286). -/
def execGetexm (d : SReg) (s : State) : Host.Outcome State Fault Refusal :=
  runGang [] (fun g => .done (g.setS d (g.regs.exm.zeroExtend 64))) s

/-- GETPKM (08 R286). -/
def execGetpkm (d : SReg) (s : State) : Host.Outcome State Fault Refusal :=
  runGang [] (fun g => .done (g.setS d (g.regs.pkm.zeroExtend 64))) s

/-- ANDEXM (08 R286). -/
def execAndexm (a : PReg) (s : State) : Host.Outcome State Fault Refusal :=
  runGang [] (fun g => .done (g.setExm (g.regs.exm &&& g.p a))) s

/-- VTOS (08 R287). -/
def execVtos (d : SReg) (a : VReg) (b : SReg) (s : State) : Host.Outcome State Fault Refusal :=
  runGang [a] (fun g => noWide g (.done (g.setS d (((g.v a)[laneAt (g.s b).toNat]).zeroExtend 64)))) s

/-- STOV (08 R287): only lane S[b] mod 32, when it is active. -/
def execStov (d : VReg) (a b : SReg) (s : State) : Host.Outcome State Fault Refusal :=
  runGang [d] (fun g => noWide g (.done (g.setV d (fun i =>
    if i = laneAt (g.s b).toNat then (g.s a).truncate 32 else (g.v d)[i])))) s

/-- LANEID (08 R287). -/
def execLaneid (d : VReg) (s : State) : Host.Outcome State Fault Refusal :=
  runGang [d] (fun g => noWide g (.done (g.setV d (fun i => BitVec.ofNat 32 i.val)))) s

end Sys2Proof.Machine
end

