-- ==== Sys2Proof/Machine/Float.lean ====
section
/-! DEFINITION. Floating point and conversion, opcodes 0x50 to 0x5A (07 R223, R224, 08 R288 to R293). -/

namespace Sys2Proof.Machine

/-- The format of a V float operation under MODE.ETYPE: 6, 7 or 8, and 6 only for fexp2 and flog2 (08 R252). -/
def fopFmt (op : FopOp) (etype : Nat) : Option Fmt :=
  match op with
  | .fexp2 | .flog2 => if etype = 6 then some f32 else none
  | _ => etypeFmt etype

/-- A V float operation with b elements from f. -/
def fopV (op : FopOp) (d a : VReg) (b : Gang → Fin 32 → Fmt → Nat → Nat) (vs : List VReg) (s : State) :
    Host.Outcome State Fault Refusal :=
  runGang vs (fun g =>
    match fopFmt op (modeEtype g.regs.mode) with
    | none => .fault (flt .illegal)
    | some f => .done (g.setFp d (fun i => fpLane f.width (fun j =>
        fopElem op f g.fpCfg (elemOf f.width j ((g.v a)[i]).toNat) (b g i f j))))) s

/-- FOP (08 R288). -/
def execFop (op : FopOp) (d a b : VReg) (s : State) : Host.Outcome State Fault Refusal :=
  fopV op d a (fun g i f j => elemOf f.width j ((g.v b)[i]).toNat) [d, a, b] s

/-- FOPS (08 R288). -/
def execFops (op : FopOp) (d a : VReg) (b : SReg) (s : State) : Host.Outcome State Fault Refusal :=
  fopV op d a (fun g _ f _ => (g.s b).toNat % 2 ^ f.width) [d, a] s

/-- SFOP (08 R290). -/
def execSfop (op : FopOp) (d a b : SReg) (s : State) : Host.Outcome State Fault Refusal :=
  runGang [] (fun g =>
    let (x, g') := g.withLane0 (fopElem op f32 g.fpCfg ((g.s a).toNat % 2 ^ 32) ((g.s b).toNat % 2 ^ 32))
    .done (g'.setS d (BitVec.ofNat 64 x))) s

/-- The V FMA family (08 R289). -/
def fmaV (op : FmaOp) (d a : VReg) (b : Gang → Fin 32 → Fmt → Nat → Nat) (vs : List VReg) (s : State) :
    Host.Outcome State Fault Refusal :=
  runGang vs (fun g =>
    match etypeFmt (modeEtype g.regs.mode) with
    | none => .fault (flt .illegal)
    | some f => .done (g.setFp d (fun i => fpLane f.width (fun j =>
        fmaElem op f g.fpCfg (elemOf f.width j ((g.v a)[i]).toNat) (b g i f j)
          (elemOf f.width j ((g.v d)[i]).toNat))))) s

/-- FMA 0x53 (08 R289). -/
def execFma (op : FmaOp) (d a b : VReg) (s : State) : Host.Outcome State Fault Refusal :=
  fmaV op d a (fun g i f j => elemOf f.width j ((g.v b)[i]).toNat) [d, a, b] s

/-- FMA 0x54 (08 R289). -/
def execFmaVs (op : FmaOp) (d a : VReg) (b : SReg) (s : State) : Host.Outcome State Fault Refusal :=
  fmaV op d a (fun g _ f _ => (g.s b).toNat % 2 ^ f.width) [d, a] s

/-- FMA 0x55 (08 R289, R290). -/
def execFmaS (op : FmaOp) (d a b : SReg) (s : State) : Host.Outcome State Fault Refusal :=
  runGang [] (fun g =>
    let (x, g') := g.withLane0 (fmaElem op f32 g.fpCfg ((g.s a).toNat % 2 ^ 32) ((g.s b).toNat % 2 ^ 32)
      ((g.s d).toNat % 2 ^ 32))
    .done (g'.setS d (BitVec.ofNat 64 x))) s

/-- A float compare in active lanes (08 R291). -/
def fcmpV (op : FcmpOp) (d : PReg) (a : VReg) (b : Gang → Fin 32 → Nat) (vs : List VReg) (s : State) :
    Host.Outcome State Fault Refusal :=
  runGang vs (fun g =>
    if modeEtype g.regs.mode ≠ 6 then .fault (flt .illegal)
    else
      let r (i : Fin 32) := fpCompare op g.fpCfg ((g.v a)[i]).toNat (b g i) ⟨0, 0⟩
      let k := (Mask.lanes g.active).foldl (fun k i => k ||| (r i).2.flags) (0 : BitVec 5)
      .done ((g.setPLanes d (maskOf (fun i => (r i).1))).raise k)) s

/-- FCMP 0x56 (08 R291). -/
def execFcmp (op : FcmpOp) (d : PReg) (a b : VReg) (s : State) : Host.Outcome State Fault Refusal :=
  fcmpV op d a (fun g i => ((g.v b)[i]).toNat) [a, b] s

/-- FCMP 0x57 (08 R291). -/
def execFcmpS (op : FcmpOp) (d : PReg) (a : VReg) (b : SReg) (s : State) : Host.Outcome State Fault Refusal :=
  fcmpV op d a (fun g _ => (g.s b).toNat % 2 ^ 32) [a] s

/-- FCLASS (08 R292). -/
def execFclass (d b : VReg) (s : State) : Host.Outcome State Fault Refusal :=
  runGang [d, b] (fun g =>
    if modeEtype g.regs.mode ≠ 6 then .fault (flt .illegal)
    else .done (g.setV d (fun i => BitVec.ofNat 32 (fclassBits ((g.v b)[i]).toNat)))) s

/-- FCVT 0x59 (08 R293). -/
def execFcvt (target source : CvtTy) (d a : VReg) (s : State) : Host.Outcome State Fault Refusal :=
  runGang [d, a] (fun g =>
    noWide g (.done (g.setFp d (fun i t =>
      let (x, t) := fcvtElem target source g.fpCfg (modeSat g.regs.mode) ((g.v a)[i]).toNat t
      (BitVec.ofNat 32 (placeResult target 32 x), t))))) s

/-- FCVT 0x5A (08 R293). -/
def execFcvtS (target source : CvtTy) (d a : SReg) (s : State) : Host.Outcome State Fault Refusal :=
  runGang [] (fun g =>
    let (x, g') := g.withLane0 (fcvtElem target source g.fpCfg (modeSat g.regs.mode) (g.s a).toNat)
    .done (g'.setS d (BitVec.ofNat 64 (placeResult target 64 x)))) s

end Sys2Proof.Machine
end

