-- ==== Sys2Proof/Machine/Registers.lean ====
section
/-! DEFINITION. What the host reads and writes: the registers of BAR 0, the posting windows of BAR 2, the privileged aperture of BAR 4, and the
functions' configuration (12 R410 to R424, 15 R463). -/

namespace Sys2Proof.Machine

/-- The host function of a master. -/
def funcOf (m : Byte) : Option (Fin 4) := (List.finRange 4).find? (fun n => BitVec.ofNat 8 n.val == m)

/-- Bytes of a list replaced from a place. -/
def putBytes (l : List Byte) (o : Nat) (b : List Byte) : List Byte := padTo o l ++ b ++ l.drop (o + b.length)

/-- Start of BAR 4 in the offsets of a REGISTER_WRITE, and of its record-commit window (12 R420). -/
def windowOffset : Nat := 0x10000000

/-- What a write to MBCMD starts. DESIGN CHOICE (log 65): LEN above 4,096, which 12 R424 does not give, completes as an unlisted CODE does,
with BAD_ARG. -/
def State.mbcmd (s : State) (m : Byte) (value : DWord) : State :=
  let len := bits value 28 16
  if 4096 < len then s.arrive m 0 [] else s.arrive m (bits value 15 0) (padTo len (s.box m).data)

/-- REGISTER_WRITE: NBASE, MBDATA, MBCMD, and the 64 bytes of the record-commit window; other places take no write, and a reserved field none
(00 R8). -/
def execRegisterWrite (master : Byte) (offset : Nat) (size : Nat) (value : DWord) (s : State) : Host.Outcome State Fault Refusal :=
  .next (
    if s.isMaster master = false ∨ s.fount.boot = .unpowered ∨ (size ≠ 4 ∧ size ≠ 8) ∨ offset % size ≠ 0 then s
    else
      let b := toBytes size value.toNat
      let box := s.box master
      if 0x2000 ≤ offset ∧ offset < 0x3000 then s.setBox master { box with data := putBytes box.data (offset - 0x2000) b }
      else if offset = 0x1000 then s.mbcmd master value
      else
        match funcOf master with
        | none => s
        | some n =>
          let f := s.funcs[n]
          if 0x48 ≤ offset ∧ offset < 0x50 then
            let v := ofBytes (putBytes (toBytes 8 f.nbase.toNat) (offset - 0x48) b)
            { s with funcs := s.funcs.set n.val { f with nbase := BitVec.ofNat 64 (v / 64 * 64 + v % 2) } }
          else if windowOffset ≤ offset ∧ offset < windowOffset + 0x40 ∧ s.funcMayWrite n ∧ s.livePart n ∧ s.fount.boot = .running then
            { s with funcs := s.funcs.set n.val { f with window := putBytes f.window (offset - windowOffset) b } }
          else s)

/-! Reads of BAR 0, which change nothing. -/

/-- OWN (12 R425). -/
def State.ownWord (s : State) (m : Byte) : DWord :=
  let f := s.fount
  let st := if f.claims ≠ [] then 1 else if s.owned then 2 else 0
  BitVec.ofNat 64 (st + (if s.owned && f.owner == m then 4 else 0) +
    (if f.hadGrant then 2 ^ 16 * min 255 ((f.time - f.granted) / 1000) else 0) +
    2 ^ 24 * f.owner.toNat + 2 ^ 32 * m.toNat)

def PartState.num : PartState → Nat
  | .absent => 0
  | .booting => 1
  | .running => 2
  | .failed => 3
  | .scrubbing => 4

def DieState.num : DieState → Nat
  | .off => 0
  | .running => 1
  | .parking => 2
  | .parked => 3
  | .unparking => 4

/-- PARTSTAT (12 R430). -/
def Part.statWord (p : Part) : DWord :=
  if p.state = .absent then 0
  else BitVec.ofNat 64 (p.state.num + 16 * p.dies.toNat + 256 * p.ports.toNat + (if p.det then 2 ^ 24 else 0))

/-- PSTATn (15 R463). -/
def Part.powerWord (p : Part) : DWord :=
  BitVec.ofNat 64 (p.share + 2 ^ 16 * (if p.state = .absent then 7 else p.pcur) + 2 ^ 22 * p.pmax + 2 ^ 25 * p.duty +
    (if p.duty < 63 then 2 ^ 31 else 0) + (if p.trans ≠ [] then 2 ^ 32 else 0))

/-- The 8 bytes at an aligned offset of BAR 0, as a master reads them; fn is the function whose BAR it is. A master that is no host function
reaches offsets below 0x3000 (12 R423). -/
def State.bar0 (s : State) (m : Byte) (fn : Fin 4) (offset : Nat) : DWord :=
  let f := s.fount
  let bytes (l : List Byte) (o : Nat) : DWord := BitVec.ofNat 64 (field l o 8)
  if funcOf m = none ∧ 0x3000 ≤ offset then 0
  else if offset = 0 then BitVec.ofNat 64 (0x0D04 + 2 ^ 16 * Config.revision.toNat + 2 ^ 24 * 4 + 2 ^ 32 * (Config.sites - s.dark.length))
  else if offset = 8 then f.serial
  else if offset = 0x10 then s.ownWord m
  else if offset = 0x18 then (if s.owned && f.owner == m then f.lease else 0)
  else if 0x20 ≤ offset ∧ offset < 0x40 then bytes f.chall (offset - 0x20)
  else if offset = 0x40 then (s.parts[fn]).statWord
  else if offset = 0x48 then (s.funcs[fn]).nbase
  else if offset = 0x50 then (s.funcs[fn]).evcause.zeroExtend 64
  else if offset = 0x58 then BitVec.ofNat 64 ((List.finRange 4).foldl (fun t n => if (s.funcs[n]).deleg then t + 2 ^ n.val else t) 0)
  else if offset = 0x1008 then
    BitVec.ofNat 64 ((s.box m).state + 2 ^ 8 * (s.box m).result + 2 ^ 32 * (s.box m).rlen)
  else if 0x2000 ≤ offset ∧ offset < 0x3000 then bytes (s.box m).data (offset - 0x2000)
  else if offset = 0x8000 then BitVec.ofNat 64 f.ceiling
  else if offset = 0x8008 then BitVec.ofNat 64 (f.pwr % 2 ^ 32 + 2 ^ 32 * (f.pwrMax % 2 ^ 32))
  else if 0x8010 ≤ offset ∧ offset < 0x8030 then (s.parts[slotDie ((offset - 0x8010) / 8)]).powerWord
  else if offset = 0x8030 then
    BitVec.ofNat 64 ((List.finRange 4).foldl (fun t d =>
      t + 2 ^ (16 * d.val) * ((s.dies[d]).state.num + 16 * (s.dies[d]).tmax.toNat)) 0)
  else if offset = 0x8038 then BitVec.ofNat 64 (min 255 s.heldCount)
  else if 0x8100 ≤ offset ∧ offset < 0x8180 then f.counters[((offset - 0x8100) / 8) % 16]'(Nat.mod_lt _ (by decide))
  else 0
where
  slotDie (n : Nat) : Fin 4 := ⟨n % 4, Nat.mod_lt _ (by decide)⟩

/-! BAR 2 and BAR 4 (12 R411, R415, R420, R422). -/

/-- BAR 2 and BAR 4 of a function answer: its partition exists, and Fount is not in recovery (12 R411, R440). -/
def State.answers (s : State) (fn : Fin 4) : Bool := s.livePart fn && s.fount.boot == .running

/-- The 8 bytes at an aligned offset of BAR 2: the word at the start of a core's posting window; of a core outside the partition it tells the
function's own malformed writes only. -/
def State.bar2 (s : State) (fn : Fin 4) (offset : Nat) : DWord :=
  let site : CoreId := BitVec.ofNat 12 (offset / 64)
  if s.answers fn = false ∨ offset % 64 ≠ 0 ∨ 2 ^ 18 ≤ offset then 0
  else if (s.parts[fn]).has (dieOf site) then s.postStatus site
  else BitVec.ofNat 64 (((Tbl.get? (s.funcs[fn]).strays site.toNat).getD 0).toNat * 2 ^ 16)

/-- A window of the function's own partition (12 R420). -/
def State.ownWindow (s : State) (fn : Fin 4) (pa : Nat) : Bool :=
  isWindow pa && (s.parts[fn]).has (dieOf (windowCore pa)) && !s.noCore (windowCore pa)

/-- State word of an entry of the connection table; own: the partition that holds the entry's die (12 R420, R435). -/
def Circuit.stateWord (c : Circuit) (own : Option (Fin 4)) : DWord :=
  BitVec.ofNat 64 ((if c.valid then 1 else 0) + (if c.tuned then 2 else 0) + 4 * (own.map Fin.val).getD 0)

/-- The 8 bytes at an aligned offset of BAR 4: debug windows, the record-commit window, the connection table, ORT base and size. -/
def State.bar4 (s : State) (fn : Fin 4) (offset : Nat) : DWord :=
  let f := s.funcs[fn]
  let p := s.parts[fn]
  if s.answers fn = false then 0
  else if offset < windowOffset then
    if s.ownWindow fn (apertureBase + offset) then BitVec.ofNat 64 (ofBytes (s.windowRead (apertureBase + offset) 8)) else 0
  else if offset < windowOffset + 0x40 then BitVec.ofNat 64 (field f.window (offset - windowOffset) 8)
  else if offset = windowOffset + 0x48 then BitVec.ofNat 64 (f.commit + 2 ^ 8 * f.result)
  else if windowOffset + 0x1000 ≤ offset ∧ offset < windowOffset + 0x1400 then
    let e := (offset - windowOffset - 0x1000) / 16
    match s.circuits.toList[e]? with
    | some c => if offset % 16 = 0 then c.desc else c.stateWord (s.partOf ⟨e / 16 % 4, Nat.mod_lt _ (by decide)⟩)
    | none => 0
  else if offset = windowOffset + 0x2000 then BitVec.ofNat 64 (p.ortBase % 2 ^ 48)
  else if offset = windowOffset + 0x2008 then BitVec.ofNat 64 p.ortSize
  else 0

/-- What a read of BAR 4 returns: 4 or 8 naturally aligned bytes; one of another size is dropped (12 R420). -/
def State.bar4Read (s : State) (fn : Fin 4) (offset size : Nat) : Option DWord :=
  if windowForm offset size = false then none
  else if size = 8 then some (s.bar4 fn offset)
  else some (BitVec.ofNat 64 ((s.bar4 fn (offset / 8 * 8)).toNat / 2 ^ (8 * (offset % 8)) % 2 ^ 32))

/-- An access of the host that no row of the table carries: what it leaves (11 R399, 12 R410, R418). -/
def State.access (s : State) (a : HostAccess) : State :=
  match a with
  | .read fn offset size =>
    if s.answers fn && windowForm offset size && decide (offset < windowOffset) && s.ownWindow fn (apertureBase + offset) then
      s.windowReadEffect (apertureBase + offset) size
    else s
  | x => { s with funcs := s.funcs.set x.fn.val ((s.funcs[x.fn]).configure x) }

end Sys2Proof.Machine
end

