-- ==== Sys2Proof/Machine/Dispatch.lean ====
section
/-! DEFINITION. One arm per row of spec/opcode_table.json. -/

namespace Sys2Proof.Machine

/-- The meaning of an instruction word or an event in a state. -/
def exec (i : Instr) (s : State) : Host.Outcome State Fault Refusal :=
  match i with
  | .br c off => Sys2Proof.Machine.execBr c off s
  | .brany c off => Sys2Proof.Machine.execBrany c off s
  | .brall c off => Sys2Proof.Machine.execBrall c off s
  | .brnone c off => Sys2Proof.Machine.execBrnone c off s
  | .call off => Sys2Proof.Machine.execCall off s
  | .jmp a => Sys2Proof.Machine.execJmp a s
  | .callr a => Sys2Proof.Machine.execCallr a s
  | .ret => Sys2Proof.Machine.execRet s
  | .if_ c off => Sys2Proof.Machine.execIf c off s
  | .else_ off => Sys2Proof.Machine.execElse off s
  | .endif => Sys2Proof.Machine.execEndif s
  | .loop off => Sys2Proof.Machine.execLoop off s
  | .endloop c off => Sys2Proof.Machine.execEndloop c off s
  | .break_ c off => Sys2Proof.Machine.execBreak c off s
  | .cont c off => Sys2Proof.Machine.execCont c off s
  | .conv => Sys2Proof.Machine.execConv s
  | .exit => Sys2Proof.Machine.execExit s
  | .gangEnd core slot => Sys2Proof.Machine.execGangEnd core slot s
  | .yield => Sys2Proof.Machine.execYield s
  | .nop => Sys2Proof.Machine.execNop s
  | .setmode a => Sys2Proof.Machine.execSetmode a s
  | .getmode a => Sys2Proof.Machine.execGetmode a s
  | .setfs a => Sys2Proof.Machine.execSetfs a s
  | .getfs a => Sys2Proof.Machine.execGetfs a s
  | .setmf f imm => Sys2Proof.Machine.execSetmf f imm s
  | .publish => Sys2Proof.Machine.execPublish s
  | .unpublish => Sys2Proof.Machine.execUnpublish s
  | .subscribe a b => Sys2Proof.Machine.execSubscribe a b s
  | .subscribeRegistration core slot => Sys2Proof.Machine.execSubscribeRegistration core slot s
  | .unsub c => Sys2Proof.Machine.execUnsub c s
  | .resub a b => Sys2Proof.Machine.execResub a b s
  | .rendez tag => Sys2Proof.Machine.execRendez tag s
  | .chstat a => Sys2Proof.Machine.execChstat a s
  | .streamPacketEntry core slot => Sys2Proof.Machine.execStreamPacketEntry core slot s
  | .publisherHold core => Sys2Proof.Machine.execPublisherHold core s
  | .fence kind scope => Sys2Proof.Machine.execFence kind scope s
  | .fenceComplete core slot => Sys2Proof.Machine.execFenceComplete core slot s
  | .xfence from_ to_ => Sys2Proof.Machine.execXfence from_ to_ s
  | .xfenceComplete core slot => Sys2Proof.Machine.execXfenceComplete core slot s
  | .barwtRelease core slot => Sys2Proof.Machine.execBarwtRelease core slot s
  | .feset a => Sys2Proof.Machine.execFeset a s
  | .feclr a => Sys2Proof.Machine.execFeclr a s
  | .fewait a => Sys2Proof.Machine.execFewait a s
  | .fewaitComplete core slot => Sys2Proof.Machine.execFewaitComplete core slot s
  | .wmset ch a b => Sys2Proof.Machine.execWmset ch a b s
  | .wmwait ch a => Sys2Proof.Machine.execWmwait ch a s
  | .wmwaitComplete core slot => Sys2Proof.Machine.execWmwaitComplete core slot s
  | .watermarkLoadRelease core slot => Sys2Proof.Machine.execWatermarkLoadRelease core slot s
  | .vop op d a b => Sys2Proof.Machine.execVop op d a b s
  | .vops op d a b => Sys2Proof.Machine.execVops op d a b s
  | .addImmV d a imm => Sys2Proof.Machine.execAddImmV d a imm s
  | .mulImmV d a imm => Sys2Proof.Machine.execMulImmV d a imm s
  | .andImmV d a imm => Sys2Proof.Machine.execAndImmV d a imm s
  | .orImmV d a imm => Sys2Proof.Machine.execOrImmV d a imm s
  | .xorImmV d a imm => Sys2Proof.Machine.execXorImmV d a imm s
  | .shlImmV d a imm => Sys2Proof.Machine.execShlImmV d a imm s
  | .shrImmV d a imm => Sys2Proof.Machine.execShrImmV d a imm s
  | .sraImmV d a imm => Sys2Proof.Machine.execSraImmV d a imm s
  | .vcmp op d a b => Sys2Proof.Machine.execVcmp op d a b s
  | .vcmps op d a b => Sys2Proof.Machine.execVcmps op d a b s
  | .sel d a b p => Sys2Proof.Machine.execSel d a b p s
  | .mad d a b => Sys2Proof.Machine.execMad d a b s
  | .dot2 d a b => Sys2Proof.Machine.execDot2 d a b s
  | .dot4 d a b => Sys2Proof.Machine.execDot4 d a b s
  | .sop op d a b => Sys2Proof.Machine.execSop op d a b s
  | .addImmS d a imm => Sys2Proof.Machine.execAddImmS d a imm s
  | .mulImmS d a imm => Sys2Proof.Machine.execMulImmS d a imm s
  | .andImmS d a imm => Sys2Proof.Machine.execAndImmS d a imm s
  | .orImmS d a imm => Sys2Proof.Machine.execOrImmS d a imm s
  | .xorImmS d a imm => Sys2Proof.Machine.execXorImmS d a imm s
  | .shlImmS d a imm => Sys2Proof.Machine.execShlImmS d a imm s
  | .shrImmS d a imm => Sys2Proof.Machine.execShrImmS d a imm s
  | .sraImmS d a imm => Sys2Proof.Machine.execSraImmS d a imm s
  | .lil d imm => Sys2Proof.Machine.execLil d imm s
  | .lih d imm k => Sys2Proof.Machine.execLih d imm k s
  | .scmp op d a b => Sys2Proof.Machine.execScmp op d a b s
  | .shfl d a b => Sys2Proof.Machine.execShfl d a b s
  | .shflUp d a b => Sys2Proof.Machine.execShflUp d a b s
  | .shflDown d a b => Sys2Proof.Machine.execShflDown d a b s
  | .shflXor d a b => Sys2Proof.Machine.execShflXor d a b s
  | .shflBcast d a b => Sys2Proof.Machine.execShflBcast d a b s
  | .vred k d a => Sys2Proof.Machine.execVred k d a s
  | .vscan k d a => Sys2Proof.Machine.execVscan k d a s
  | .vote k d a => Sys2Proof.Machine.execVote k d a s
  | .plog op d a b => Sys2Proof.Machine.execPlog op d a b s
  | .ptos d a => Sys2Proof.Machine.execPtos d a s
  | .pfroms d a => Sys2Proof.Machine.execPfroms d a s
  | .setexm a => Sys2Proof.Machine.execSetexm a s
  | .getexm d => Sys2Proof.Machine.execGetexm d s
  | .getpkm d => Sys2Proof.Machine.execGetpkm d s
  | .andexm a => Sys2Proof.Machine.execAndexm a s
  | .vtos d a b => Sys2Proof.Machine.execVtos d a b s
  | .stov d a b => Sys2Proof.Machine.execStov d a b s
  | .laneid d => Sys2Proof.Machine.execLaneid d s
  | .fop op d a b => Sys2Proof.Machine.execFop op d a b s
  | .fops op d a b => Sys2Proof.Machine.execFops op d a b s
  | .sfop op d a b => Sys2Proof.Machine.execSfop op d a b s
  | .fma op d a b => Sys2Proof.Machine.execFma op d a b s
  | .fmaVs op d a b => Sys2Proof.Machine.execFmaVs op d a b s
  | .fmaS op d a b => Sys2Proof.Machine.execFmaS op d a b s
  | .fcmp op d a b => Sys2Proof.Machine.execFcmp op d a b s
  | .fcmpS op d a b => Sys2Proof.Machine.execFcmpS op d a b s
  | .fclass d b => Sys2Proof.Machine.execFclass d b s
  | .fcvt target source d a => Sys2Proof.Machine.execFcvt target source d a s
  | .fcvtS target source d a => Sys2Proof.Machine.execFcvtS target source d a s
  | .ld d m sz q => Sys2Proof.Machine.execLd d m sz q s
  | .lds d m sz q => Sys2Proof.Machine.execLds d m sz q s
  | .st d m sz q => Sys2Proof.Machine.execSt d m sz q s
  | .sld d m sz q => Sys2Proof.Machine.execSld d m sz q s
  | .slds d m sz q => Sys2Proof.Machine.execSlds d m sz q s
  | .sst d m sz q => Sys2Proof.Machine.execSst d m sz q s
  | .qualifiedLoadComplete core slot => Sys2Proof.Machine.execQualifiedLoadComplete core slot s
  | .ldc d m => Sys2Proof.Machine.execLdc d m s
  | .stc d m => Sys2Proof.Machine.execStc d m s
  | .ldb cap d ba w1 inc => Sys2Proof.Machine.execLdb cap d ba w1 inc s
  | .stb cap d ba w1 inc => Sys2Proof.Machine.execStb cap d ba w1 inc s
  | .baset k b => Sys2Proof.Machine.execBaset k b s
  | .baget k b => Sys2Proof.Machine.execBaget k b s
  | .baadd k b => Sys2Proof.Machine.execBaadd k b s
  | .cinc d a b => Sys2Proof.Machine.execCinc d a b s
  | .csetb d a b => Sys2Proof.Machine.execCsetb d a b s
  | .cperm d a b => Sys2Proof.Machine.execCperm d a b s
  | .cget f d a => Sys2Proof.Machine.execCget f d a s
  | .cmov d a => Sys2Proof.Machine.execCmov d a s
  | .objview d a b => Sys2Proof.Machine.execObjview d a b s
  | .objinfo d a word => Sys2Proof.Machine.execObjinfo d a word s
  | .objres d a b => Sys2Proof.Machine.execObjres d a b s
  | .objsum d a b => Sys2Proof.Machine.execObjsum d a b s
  | .atom op d m sz => Sys2Proof.Machine.execAtom op d m sz s
  | .atomAcq op d m sz => Sys2Proof.Machine.execAtomAcq op d m sz s
  | .atomRel op d m sz => Sys2Proof.Machine.execAtomRel op d m sz s
  | .atomAr op d m sz => Sys2Proof.Machine.execAtomAr op d m sz s
  | .atomSc op d m sz => Sys2Proof.Machine.execAtomSc op d m sz s
  | .atomc q d m sz => Sys2Proof.Machine.execAtomc q d m sz s
  | .red op d m sz => Sys2Proof.Machine.execRed op d m sz s
  | .redRel op d m sz => Sys2Proof.Machine.execRedRel op d m sz s
  | .atomicPerform core n => Sys2Proof.Machine.execAtomicPerform core n s
  | .reductionPerform core n => Sys2Proof.Machine.execReductionPerform core n s
  | .atomr cap sr t slot => Sys2Proof.Machine.execAtomr cap sr t slot s
  | .txLogGrant core => Sys2Proof.Machine.execTxLogGrant core s
  | .txend off => Sys2Proof.Machine.execTxend off s
  | .irrevocableTokenGrant part => Sys2Proof.Machine.execIrrevocableTokenGrant part s
  | .txabort code => Sys2Proof.Machine.execTxabort code s
  | .txstat d => Sys2Proof.Machine.execTxstat d s
  | .cpy sr dst src cmpl => Sys2Proof.Machine.execCpy sr dst src cmpl s
  | .cpym sr dst src cmpl skipdark => Sys2Proof.Machine.execCpym sr dst src cmpl skipdark s
  | .cpyo sr dst src cmpl => Sys2Proof.Machine.execCpyo sr dst src cmpl s
  | .gathe sr dst src cmpl => Sys2Proof.Machine.execGathe sr dst src cmpl s
  | .scate sr dst src cmpl => Sys2Proof.Machine.execScate sr dst src cmpl s
  | .cpycan sr => Sys2Proof.Machine.execCpycan sr s
  | .copyChunk core cslot => Sys2Proof.Machine.execCopyChunk core cslot s
  | .copyChunkComplete core cslot dest => Sys2Proof.Machine.execCopyChunkComplete core cslot dest s
  | .selk sr t => Sys2Proof.Machine.execSelk sr t s
  | .selectInputConsume core slot => Sys2Proof.Machine.execSelectInputConsume core slot s
  | .selres d => Sys2Proof.Machine.execSelres d s
  | .qpush q a => Sys2Proof.Machine.execQpush q a s
  | .qpop d q => Sys2Proof.Machine.execQpop d q s
  | .qstat d q => Sys2Proof.Machine.execQstat d q s
  | .queueWake core slot => Sys2Proof.Machine.execQueueWake core slot s
  | .send sr t => Sys2Proof.Machine.execSend sr t s
  | .inboxWaiterEntry core => Sys2Proof.Machine.execInboxWaiterEntry core s
  | .waitmsgDelivery core => Sys2Proof.Machine.execWaitmsgDelivery core s
  | .ringmk cap sr t => Sys2Proof.Machine.execRingmk cap sr t s
  | .ringdes a => Sys2Proof.Machine.execRingdes a s
  | .rpush sr t => Sys2Proof.Machine.execRpush sr t s
  | .rpop sr t => Sys2Proof.Machine.execRpop sr t s
  | .ringRequestApply core n => Sys2Proof.Machine.execRingRequestApply core n s
  | .spawn sr => Sys2Proof.Machine.execSpawn sr s
  | .binTimerExpiry die bin => Sys2Proof.Machine.execBinTimerExpiry die bin s
  | .mma t n1 f ca cb => Sys2Proof.Machine.execMma t n1 f ca cb s
  | .mmaS t n1 f ca cb => Sys2Proof.Machine.execMmaS t n1 f ca cb s
  | .indexPassComplete core slot => Sys2Proof.Machine.execIndexPassComplete core slot s
  | .matrixOpStart core => Sys2Proof.Machine.execMatrixOpStart core s
  | .matrixStep core => Sys2Proof.Machine.execMatrixStep core s
  | .mzero t => Sys2Proof.Machine.execMzero t s
  | .mload t c b => Sys2Proof.Machine.execMload t c b s
  | .mdrain t c b => Sys2Proof.Machine.execMdrain t c b s
  | .mdrainQ t b => Sys2Proof.Machine.execMdrainQ t b s
  | .drainQ11Push core slot => Sys2Proof.Machine.execDrainQ11Push core slot s
  | .mstat t a => Sys2Proof.Machine.execMstat t a s
  | .mwait t => Sys2Proof.Machine.execMwait t s
  | .prune ci co b => Sys2Proof.Machine.execPrune ci co b s
  | .sphdr a c => Sys2Proof.Machine.execSphdr a c s
  | .sphdrChk a c => Sys2Proof.Machine.execSphdrChk a c s
  | .plane ci co b => Sys2Proof.Machine.execPlane ci co b s
  | .unplane ci co b => Sys2Proof.Machine.execUnplane ci co b s
  | .qbni d a p => Sys2Proof.Machine.execQbni d a p s
  | .dqbni d a p => Sys2Proof.Machine.execDqbni d a p s
  | .launch a => Sys2Proof.Machine.execLaunch a s
  | .gangPlacement die => Sys2Proof.Machine.execGangPlacement die s
  | .bincfg a b => Sys2Proof.Machine.execBincfg a b s
  | .grow a => Sys2Proof.Machine.execGrow a s
  | .growGrant core => Sys2Proof.Machine.execGrowGrant core s
  | .shrink a => Sys2Proof.Machine.execShrink a s
  | .wid d => Sys2Proof.Machine.execWid d s
  | .widf d k => Sys2Proof.Machine.execWidf d k s
  | .rdcnt k d => Sys2Proof.Machine.execRdcnt k d s
  | .trap code => Sys2Proof.Machine.execTrap code s
  | .brk code => Sys2Proof.Machine.execBrk code s
  | .supsetCore a b => Sys2Proof.Machine.execSupsetCore a b s
  | .supsetPriv a b => Sys2Proof.Machine.execSupsetPriv a b s
  | .supsetGet a b => Sys2Proof.Machine.execSupsetGet a b s
  | .freeze a => Sys2Proof.Machine.execFreeze a s
  | .resume a b => Sys2Proof.Machine.execResume a b s
  | .cpyres a b => Sys2Proof.Machine.execCpyres a b s
  | .cpyresCan a b => Sys2Proof.Machine.execCpyresCan a b s
  | .ctxsave a => Sys2Proof.Machine.execCtxsave a s
  | .ctxsaveSpill a m => Sys2Proof.Machine.execCtxsaveSpill a m s
  | .ctxswap a => Sys2Proof.Machine.execCtxswap a s
  | .ctxload a => Sys2Proof.Machine.execCtxload a s
  | .ctxloadFill a m => Sys2Proof.Machine.execCtxloadFill a m s
  | .migrate a b => Sys2Proof.Machine.execMigrate a b s
  | .migrateRetire a => Sys2Proof.Machine.execMigrateRetire a s
  | .stopCore a => Sys2Proof.Machine.execStopCore a s
  | .startCore a => Sys2Proof.Machine.execStartCore a s
  | .objinv a => Sys2Proof.Machine.execObjinv a s
  | .rtnld a b => Sys2Proof.Machine.execRtnld a b s
  | .rtnclr a => Sys2Proof.Machine.execRtnclr a s
  | .ortsetBase a b => Sys2Proof.Machine.execOrtsetBase a b s
  | .ortsetRec a b => Sys2Proof.Machine.execOrtsetRec a b s
  | .chanctlSet a b => Sys2Proof.Machine.execChanctlSet a b s
  | .chanctlClr a => Sys2Proof.Machine.execChanctlClr a s
  | .partctl k a b => Sys2Proof.Machine.execPartctl k a b s
  | .illegalWord w => Sys2Proof.Machine.execIllegalWord w s
  | .loadPerform core n => Sys2Proof.Machine.execLoadPerform core n s
  | .tileOperationComplete core => Sys2Proof.Machine.execTileOperationComplete core s
  | .storePerform core n => Sys2Proof.Machine.execStorePerform core n s
  | .readCacheLineExpiry core line => Sys2Proof.Machine.execReadCacheLineExpiry core line s
  | .scWindowComplete part => Sys2Proof.Machine.execScWindowComplete part s
  | .orderedEventRelease core slot => Sys2Proof.Machine.execOrderedEventRelease core slot s
  | .faultPacketDelivery n => Sys2Proof.Machine.execFaultPacketDelivery n s
  | .watchdogHung core slot => Sys2Proof.Machine.execWatchdogHung core slot s
  | .convergenceCountFreeze core slot => Sys2Proof.Machine.execConvergenceCountFreeze core slot s
  | .powerOnReset b => Sys2Proof.Machine.execPowerOnReset b s
  | .sysReadCompletion core slot status => Sys2Proof.Machine.execSysReadCompletion core slot status s
  | .sysReadTimeout core slot => Sys2Proof.Machine.execSysReadTimeout core slot s
  | .partScrubComplete part => Sys2Proof.Machine.execPartScrubComplete part s
  | .parkComplete die => Sys2Proof.Machine.execParkComplete die s
  | .unparkComplete die => Sys2Proof.Machine.execUnparkComplete die s
  | .pstateStepComplete part => Sys2Proof.Machine.execPstateStepComplete part s
  | .pstateStepDown part => Sys2Proof.Machine.execPstateStepDown part s
  | .pstateStepUp part => Sys2Proof.Machine.execPstateStepUp part s
  | .fountPacketService => Sys2Proof.Machine.execFountPacketService s
  | .debugWindowWrite by_ pa size value => Sys2Proof.Machine.execDebugWindowWrite by_ pa size value s
  | .debugStatusRead by_ core slot => Sys2Proof.Machine.execDebugStatusRead by_ core slot s
  | .functionLevelReset n => Sys2Proof.Machine.execFunctionLevelReset n s
  | .hostPost fn offset data => Sys2Proof.Machine.execHostPost fn offset data s
  | .registerWrite master offset size value => Sys2Proof.Machine.execRegisterWrite master offset size value s
  | .evcauseClear fn value => Sys2Proof.Machine.execEvcauseClear fn value s
  | .recordCommit fn value => Sys2Proof.Machine.execRecordCommit fn value s
  | .claim master data => Sys2Proof.Machine.execClaim master data s
  | .claimVerification => Sys2Proof.Machine.execClaimVerification s
  | .renew master data => Sys2Proof.Machine.execRenew master data s
  | .yieldOwnership master data => Sys2Proof.Machine.execYieldOwnership master data s
  | .leaseWarning => Sys2Proof.Machine.execLeaseWarning s
  | .leaseRevocation => Sys2Proof.Machine.execLeaseRevocation s
  | .partCreate master data => Sys2Proof.Machine.execPartCreate master data s
  | .partDestroy master data => Sys2Proof.Machine.execPartDestroy master data s
  | .partReset master data => Sys2Proof.Machine.execPartReset master data s
  | .setDeleg master data => Sys2Proof.Machine.execSetDeleg master data s
  | .setModid master data => Sys2Proof.Machine.execSetModid master data s
  | .setRoute master data => Sys2Proof.Machine.execSetRoute master data s
  | .setExport master data => Sys2Proof.Machine.execSetExport master data s
  | .attest master data => Sys2Proof.Machine.execAttest master data s
  | .extend master data => Sys2Proof.Machine.execExtend master data s
  | .cert master data => Sys2Proof.Machine.execCert master data s
  | .updateWrite master data => Sys2Proof.Machine.execUpdateWrite master data s
  | .updateActivate master data => Sys2Proof.Machine.execUpdateActivate master data s
  | .updateCommit master data => Sys2Proof.Machine.execUpdateCommit master data s
  | .logRead master data => Sys2Proof.Machine.execLogRead master data s
  | .logSegmentSign => Sys2Proof.Machine.execLogSegmentSign s
  | .portLinkUp port peer => Sys2Proof.Machine.execPortLinkUp port peer s
  | .peerAccess source kind addr data => Sys2Proof.Machine.execPeerAccess source kind addr data s
  | .setCeiling master data => Sys2Proof.Machine.execSetCeiling master data s
  | .setShare master data => Sys2Proof.Machine.execSetShare master data s
  | .setPmax master data => Sys2Proof.Machine.execSetPmax master data s
  | .park master data => Sys2Proof.Machine.execPark master data s
  | .unpark master data => Sys2Proof.Machine.execUnpark master data s
  | .setEscpol master data => Sys2Proof.Machine.execSetEscpol master data s
  | .fresume master data => Sys2Proof.Machine.execFresume master data s
  | .setWdog master data => Sys2Proof.Machine.execSetWdog master data s
  | .clrCounters master data => Sys2Proof.Machine.execClrCounters master data s
  | .railSample module parts => Sys2Proof.Machine.execRailSample module parts s
  | .powerEstimate projected => Sys2Proof.Machine.execPowerEstimate projected s
  | .thermalStep die tmax => Sys2Proof.Machine.execThermalStep die tmax s
  | .thermalTrip die tmax => Sys2Proof.Machine.execThermalTrip die tmax s
  | .portLinkDown port => Sys2Proof.Machine.execPortLinkDown port s
  | .busMasterEnableChange fn on => Sys2Proof.Machine.execBusMasterEnableChange fn on s
  | .bararv => Sys2Proof.Machine.execBararv s
  | .barwtI => Sys2Proof.Machine.execBarwtI s
  | .barwtX => Sys2Proof.Machine.execBarwtX s
  | .txbegin => Sys2Proof.Machine.execTxbegin s
  | .waitmsg => Sys2Proof.Machine.execWaitmsg s
  | .beat => Sys2Proof.Machine.execBeat s
  | .stopPart => Sys2Proof.Machine.execStopPart s
  | .startPart => Sys2Proof.Machine.execStartPart s

end Sys2Proof.Machine
end

