-- ==== Sys2Proof/Machine/Hazards.lean ====
section
/-! DEFINITION. The registers a word names, and whether the accesses in flight of its gang leave them available (06 R192: a gang
is ready when its operands are available). -/

namespace Sys2Proof.Machine

/-- The registers a word reads or writes, by class. -/
structure Named where
  v : List Nat := []
  s : List Nat := []
  c : List Nat := []
deriving DecidableEq, Repr

/-- V registers only. -/
def namesV (l : List VReg) : Named := { v := l.map BitVec.toNat }
/-- S registers only. -/
def namesS (l : List SReg) : Named := { s := l.map BitVec.toNat }
/-- V and S registers. -/
def namesVS (l : List VReg) (m : List SReg) : Named := { v := l.map BitVec.toNat, s := m.map BitVec.toNat }
/-- S and C registers. -/
def namesSC (m : List SReg) (n : List CReg) : Named := { s := m.map BitVec.toNat, c := n.map BitVec.toNat }
/-- V and C registers. -/
def namesVC (l : List VReg) (n : List CReg) : Named := { v := l.map BitVec.toNat, c := n.map BitVec.toNat }

/-- Registers of a D-form word with a V index and n data registers. -/
def namesVMem (d : VReg) (n : Nat) (m : VMem) : Named := { v := vNames d n m, c := [m.cap.toNat] }
/-- S registers of a D-form address. -/
def sIndex (m : SMem) : List SReg := if m.am = 3 then [m.idx, m.idx + 1] else [m.idx]

/-- The registers that a word names, those it takes by rule among them (07 R207 to R210, 06 R180). -/
def namedRegs (i : Instr) : Named :=
  match i with
  | .jmp a | .setmode a | .getmode a | .setfs a | .getfs a | .chstat a | .setexm a | .getexm a | .getpkm a => namesS [a]
  | .call _ | .ret => namesS [31]
  | .callr a => namesS [a, 31]
  | .subscribe a b | .resub a b => namesS [a, b]
  | .feset a | .feclr a | .fewait a => namesSC [] [a]
  | .wmset _ a b => namesS [a, b]
  | .wmwait _ a => namesS [a]
  | .vop _ d a b | .fop _ d a b | .fma _ d a b | .shfl d a b | .mad d a b | .dot2 d a b | .dot4 d a b | .sel d a b _ =>
    namesV [d, a, b]
  | .vops _ d a b | .fops _ d a b | .fmaVs _ d a b | .shflUp d a b | .shflDown d a b | .shflXor d a b | .shflBcast d a b =>
    namesVS [d, a] [b]
  | .addImmV d a _ | .mulImmV d a _ | .andImmV d a _ | .orImmV d a _ | .xorImmV d a _ | .shlImmV d a _ | .shrImmV d a _
  | .sraImmV d a _ | .vscan _ d a | .fclass d a | .fcvt _ _ d a | .qbni d a _ | .dqbni d a _ => namesV [d, a]
  | .vcmp _ _ a b | .fcmp _ _ a b => namesV [a, b]
  | .vcmps _ _ a b | .fcmpS _ _ a b => namesVS [a] [b]
  | .sop _ d a b | .sfop _ d a b | .fmaS _ d a b => namesS [d, a, b]
  | .addImmS d a _ | .mulImmS d a _ | .andImmS d a _ | .orImmS d a _ | .xorImmS d a _ | .shlImmS d a _ | .shrImmS d a _
  | .sraImmS d a _ | .fcvtS _ _ d a => namesS [d, a]
  | .lil d _ | .lih d _ _ | .vote _ d _ | .ptos d _ | .rdcnt _ d | .qstat d _ => namesS [d]
  | .scmp _ _ a b => namesS [a, b]
  | .vred _ d a => namesVS [a] [d]
  | .pfroms _ a => namesS [a]
  | .vtos d a b => namesVS [a] [d, b]
  | .stov d a b => namesVS [d] [a, b]
  | .laneid d | .txstat d | .widf d _ | .selres d | .qpop d _ => namesV [d]
  | .wid d => namesV [d, d + 1]
  | .ld d m sz _ | .lds d m sz _ | .st d m sz _ => namesVMem d (sizeRegs sz) m
  | .sld d m _ _ | .slds d m _ _ | .sst d m _ _ => namesSC (d :: sIndex m) [m.cap]
  | .ldc d m | .stc d m => namesSC (sIndex m) [d, m.cap]
  | .ldb cap d _ _ _ | .stb cap d _ _ _ => namesVC [d] [cap]
  | .baset _ b | .baget _ b | .baadd _ b => namesS [b]
  | .cinc d a b | .csetb d a b | .cperm d a b | .objview d a b => namesSC [b] [d, a]
  | .cget _ d a | .objinfo d a _ => namesSC [d] [a]
  | .cmov d a => namesSC [] [d, a]
  | .objres d a b => namesSC [d, b] [a]
  | .objsum d a b => { v := [d.toNat], s := [b.toNat], c := [a.toNat] }
  | .atom _ d m sz | .atomAcq _ d m sz | .atomRel _ d m sz | .atomAr _ d m sz | .atomSc _ d m sz | .red _ d m sz
  | .redRel _ d m sz => { v := atomNames d m sz false, c := [m.cap.toNat] }
  | .atomc _ d m sz => { v := atomNames d m sz true, c := [m.cap.toNat] }
  | .atomr cap v t _ => namesVC [v, v + 1, t] [cap]
  | .cpy v dst src _ | .cpym v dst src _ _ | .cpyo v dst src _ => namesVC [v] [dst, src]
  | .gathe v _ _ _ | .scate v _ _ _ => { v := [v.toNat], c := List.range 16 }
  | .cpycan a => namesS [a]
  | .selk v t | .send v t | .rpush v t | .rpop v t => namesVS [v] [t]
  | .qpush _ a => namesV [a]
  | .waitmsg => { s := (List.range 8).map (16 + ·) }
  | .ringmk cap d t => namesSC [d, t] [cap]
  | .ringdes a | .launch a | .mstat _ a | .freeze a | .ctxsave a | .ctxswap a | .ctxload a | .migrateRetire a | .stopCore a
  | .startCore a | .objinv a | .rtnclr a | .chanctlClr a => namesS [a]
  | .spawn v => namesV [v]
  | .mma _ _ f ca cb | .mmaS _ _ f ca cb => namesVC [f, f + 1] [ca, cb]
  | .mload _ c b | .mdrain _ c b => namesSC [b] [c]
  | .mdrainQ _ b => namesS [b]
  | .prune ci co b | .plane ci co b | .unplane ci co b => namesSC [b, b + 1] [ci, co]
  | .sphdr a c | .sphdrChk a c => namesSC [a] [c]
  | .bincfg a b | .supsetCore a b | .supsetPriv a b | .supsetGet a b | .resume a b | .cpyres a b | .cpyresCan a b | .migrate a b
  | .rtnld a b | .ortsetBase a b | .ortsetRec a b | .chanctlSet a b | .partctl _ a b => namesS [a, b]
  | .ctxsaveSpill a m | .ctxloadFill a m => namesSC [a] [m]
  | .shrink a => { v := (List.range 64).filter (fun k => decide (a.toNat ≤ k)) }
  | .br _ _ | .brany _ _ | .brall _ _ | .brnone _ _ | .if_ _ _ | .else_ _ | .endif | .loop _ | .endloop _ _ | .break_ _ _
  | .cont _ _ | .conv | .exit | .gangEnd _ _ | .yield | .nop | .setmf _ _ | .publish | .unpublish | .subscribeRegistration _ _
  | .unsub _ | .rendez _ | .streamPacketEntry _ _ | .publisherHold _ | .fence _ _ | .fenceComplete _ _ | .xfence _ _
  | .xfenceComplete _ _ | .bararv | .barwtI | .barwtX | .barwtRelease _ _ | .fewaitComplete _ _ | .wmwaitComplete _ _
  | .watermarkLoadRelease _ _ | .plog _ _ _ _ | .andexm _ | .qualifiedLoadComplete _ _ | .atomicPerform _ _
  | .reductionPerform _ _ | .txbegin | .txLogGrant _ | .txend _ | .irrevocableTokenGrant _ | .txabort _ | .copyChunk _ _
  | .copyChunkComplete _ _ _ | .selectInputConsume _ _ | .queueWake _ _ | .inboxWaiterEntry _ | .waitmsgDelivery _
  | .ringRequestApply _ _ | .binTimerExpiry _ _ | .indexPassComplete _ _ | .matrixOpStart _ | .matrixStep _ | .mzero _
  | .drainQ11Push _ _ | .mwait _ | .gangPlacement _ | .grow _ | .growGrant _ | .beat | .trap _ | .brk _ | .stopPart | .startPart
  | .storePerform _ _ | .readCacheLineExpiry _ _ | .scWindowComplete _ | .orderedEventRelease _ _ | .faultPacketDelivery _
  | .fountPacketService | .watchdogHung _ _ | .convergenceCountFreeze _ _ | .debugWindowWrite _ _ _ _ | .debugStatusRead _ _ _
  | .powerOnReset _ | .functionLevelReset _ | .hostPost _ _ _ | .registerWrite _ _ _ _ | .evcauseClear _ _ | .recordCommit _ _
  | .sysReadCompletion _ _ _ | .sysReadTimeout _ _ | .claim _ _ | .claimVerification | .renew _ _ | .yieldOwnership _ _
  | .leaseWarning | .leaseRevocation | .partCreate _ _ | .partDestroy _ _ | .partReset _ _ | .partScrubComplete _ | .setDeleg _ _
  | .setModid _ _ | .setRoute _ _ | .setExport _ _ | .attest _ _ | .extend _ _ | .cert _ _ | .updateWrite _ _
  | .updateActivate _ _ | .updateCommit _ _ | .logRead _ _ | .logSegmentSign | .portLinkUp _ _ | .peerAccess _ _ _ _
  | .setCeiling _ _ | .setShare _ _ | .setPmax _ _ | .park _ _ | .parkComplete _ | .unpark _ _ | .unparkComplete _
  | .setEscpol _ _ | .fresume _ _ | .setWdog _ _ | .clrCounters _ _ | .railSample _ _ | .powerEstimate _ | .pstateStepDown _
  | .pstateStepUp _ | .pstateStepComplete _ | .thermalStep _ _ | .thermalTrip _ _ | .illegalWord _ | .loadPerform _ _
  | .tileOperationComplete _ | .portLinkDown _ | .busMasterEnableChange _ _ => {}

/-- The registers that an access in flight will write. -/
def Flight.writes (f : Flight) : Named :=
  match f.dst with
  | .v d => { v := (List.range ((f.size + 3) / 4)).map (d.toNat + ·) }
  | .s d => { s := [d.toNat] }
  | .c d => { c := [d.toNat] }
  | .none => {}

/-- Two sets of registers meet. -/
def Named.meets (a b : Named) : Bool :=
  a.v.any (fun k => b.v.contains k) || a.s.any (fun k => b.s.contains k) || a.c.any (fun k => b.c.contains k)

/-- A register that the word names waits for an access in flight of the gang. -/
def Ctx.busyRegs (x : Ctx) (k : SlotId) (n : Named) : Bool :=
  x.flights.any (fun f => f.2.slot == k && f.2.writes.meets n)

end Sys2Proof.Machine
end

