-- ==== Sys2Proof/Machine/Fetch.lean ====
section
/-! DEFINITION. Where a gang's next instruction comes from: memory at its PC, or its stream buffer (07 R205, 01 R41). -/

namespace Sys2Proof.Machine

/-- A fetch: a word, a fault of 02 R69, or a wait for a relocation. -/
inductive Fetched
  | word (w : Word)
  | fault (f : Flt)
  | moving (id : Nat)
deriving DecidableEq, Repr

/-- Object id and byte offset of an entry address (06 R173). -/
def pcId (pc : DWord) : Nat := bits pc 63 40
def pcOff (pc : DWord) : Nat := bits pc 39 0

/-- The word at a PC, translated as 02 R69 says with permission X; a frame of the partition's own stacks only (log 16). -/
def State.fetch (s : State) (core : CoreId) (pc : DWord) : Fetched :=
  let p := s.part core
  let c : Cap := Cap.mk' 3 pX (pcId pc) 0 (2 ^ 40) true
  let o := pcOff pc
  match s.objectSteps core c 0 pX with
  | .error f => .fault f
  | .ok r =>
    let bad (code : Code) : Flt := { capFlt code c 0 with offset := BitVec.ofNat 64 o }
    if r.shape.getD 0 0 ≤ o / 4 then
      .fault { bad .outOfShape with offset := BitVec.ofNat 64 (o / 4), coord1 := BitVec.ofNat 32 (o / 4) }
    else if o % 4 ≠ 0 then .fault (bad .misaligned)
    else
      let e := s.mapEntry p c.id (o / 65536) r
      let pa := e % 2 ^ 32 * 65536 + o % 65536
      if r.nsub ≤ o / 65536 ∨ entryResident p e = false then
        .fault { bad .notResident with offset := BitVec.ofNat 64 (o / 65536), gen := r.gen }
      else if entryMoving e then .moving c.id
      else if p.ownsPa pa = false then .fault (bad .notMapped)
      else .word (BitVec.ofNat 32 (ofBytes (s.homeRead (.phys pa) 4)))

/-- The caches of records and map entries take what a fetch used (02 R72). -/
def State.fetchTouch (s : State) (core : CoreId) (pc : DWord) : State :=
  (s.cacheRec core (pcId pc)).cacheMap core (pcId pc) (pcOff pc / 65536)

/-- What a gang executes next: a fetch, the head of its stream buffer, or nothing yet. -/
inductive Source
  | memory (f : Fetched)
  | packet (p : StreamPkt)
  /-- a packet that came too late (01 R46) -/
  | late (p : StreamPkt)
  | empty
deriving DecidableEq, Repr

/-- A subscriber executes from its stream buffer, but for a replay of its parked lanes (01 R41, log 17). -/
def State.source (s : State) (core : CoreId) (g : Gang) : Source :=
  if g.chan.role = .subscriber ∧ g.replay = false then
    match g.chan.buf with
    | p :: _ => if p.late then .late p else .packet p
    | [] => .empty
  else .memory (s.fetch core g.regs.pc)

/-- The word of a source. -/
def Source.word? : Source → Option Word
  | .memory (.word w) => some w
  | .packet p => some p.word
  | _ => none

/-- No access in flight of the gang will write a register that the word names; a word that does not decode names none. -/
def State.operandsReady (s : State) (core : CoreId) (slot : SlotId) (w : Word) : Bool :=
  match decode w with
  | some i => !(s.ctx core).busyRegs slot (namedRegs i)
  | none => true

end Sys2Proof.Machine
end

