-- ==== Sys2Proof/Machine/Schedule.lean ====
section
/-! DEFINITION. What the module does next: issue selection (06 R192, R193, R198), the events that are due or enabled, and the passing
of TICK. Every order the spec leaves open is taken from Config (log 2). -/

namespace Sys2Proof.Machine

/-- One move of the module. -/
inductive Move
  /-- an event of the table -/
  | event (i : Instr)
  /-- a gang that waits for a freeze, a stop or an invalidation, or that was not let on at its launch queue or bin, looks again -/
  | retry (core : CoreId) (slot : SlotId)
  /-- a gang freezes at its boundary -/
  | boundary (core : CoreId) (slot : SlotId)
  /-- the oldest outside event takes place -/
  | input
  /-- the oldest access of the host that no row of the table carries takes place -/
  | access
  /-- Fount's processor comes to its next word -/
  | fountWord
  /-- the oldest fault of a cell or a light path strikes -/
  | mishap
  /-- a gang whose next instruction finds no queue entry, queue space or engine room is not ready, and waits for it (06 R192) -/
  | block (core : CoreId) (slot : SlotId)
  /-- a core issues from a slot -/
  | issue (core : CoreId) (slot : SlotId)
  /-- TICK of a partition runs on -/
  | tick (part : Fin 4)
  /-- only Fount's time runs on -/
  | time
deriving DecidableEq, Repr

/-! Issue selection. -/

/-- The cores of a partition run: in states RUNNING and FAILED (12 R430; in FAILED all but level P are stopped). -/
def Part.live (p : Part) : Bool := p.state == .running || p.state == .failed

/-- What a word of the gang would wait for, of queue entries, queue space and engine room (06 R192). -/
def State.lack? (s : State) (core : CoreId) (slot : SlotId) (g : Gang) (w : Word) (strm : Option StreamPkt) : Option Why :=
  (decode w).bind (fun i => (queueOf? i).bind (fun body =>
    if (namedRegs i).v.any (fun v => decide (g.vLimit ≤ v)) then none
    else
      match body { s with cur := ⟨core, slot, w, strm⟩ } g with
      | .wait _ y => if y.forQueue then some y else none
      | _ => none))

/-- As lack?, for what the gang fetches next. -/
def State.lacks (s : State) (core : CoreId) (slot : SlotId) (g : Gang) : Option (Why × Word) :=
  match s.source core g with
  | .memory (.word w) => (s.lack? core slot g w none).map (fun y => (y, w))
  | .packet p => (s.lack? core slot g p.word (some p)).map (fun y => (y, p.word))
  | _ => none

/-- A gang may issue but for the room its instruction needs: it runs, and its next instruction and operands are there (06 R192). -/
def State.couldIssue (s : State) (core : CoreId) (slot : SlotId) (g : Gang) : Bool :=
  let p := s.part core
  g.status == .running && s.unstopped core g && p.state == .running && p.duty64 && !convergenceDue g && !g.freezeReq &&
    decide (g.cnt.readyAt ≤ p.tick) && !(g.chan.role == .publisher && g.chan.held) &&
    (match s.source core g with
     | .empty => false
     | x =>
       match x.word? with
       | some w => s.operandsReady core slot w
       | none => true)

/-- A gang is ready (06 R192). -/
def State.ready (s : State) (core : CoreId) (slot : SlotId) (g : Gang) : Bool :=
  s.couldIssue core slot g && (s.lacks core slot g).isNone

/-- A gang waits at a word that it has not issued. -/
def State.block (s : State) (core : CoreId) (slot : SlotId) : State :=
  match (s.gang? core slot).bind (s.lacks core slot) with
  | some (y, w) => s.modGang core slot (fun g => { g with status := .waiting ⟨y, s.clock, w⟩ })
  | none => s

/-- Effective priority (06 R193). -/
def Gang.effective (g : Gang) : Nat := min 31 (g.hdr.prio + g.cnt.wt / 2048)

/-- Slots from the one after the last that issued (06 R192). -/
def rotation (last : Option SlotId) : List SlotId :=
  (List.range 8).map (fun i => slotOf (i + (match last with
    | some k => k.val + 1
    | none => 0)))

/-- The ready gangs of a core in rotation. -/
def State.readyGangs (s : State) (core : CoreId) : List (SlotId × Gang) :=
  (rotation (s.ctx core).lastSlot).filterMap (fun k =>
    match s.gang? core k with
    | some g => if s.ready core k g then some (k, g) else none
    | none => none)

/-- The first of highest effective priority. -/
def firstBest : List (SlotId × Gang) → Option (SlotId × Gang)
  | [] => none
  | x :: t =>
    match firstBest t with
    | none => some x
    | some y => if x.2.effective < y.2.effective then some y else some x

/-- The next occupied slot after one. -/
def Ctx.nextSlot (x : Ctx) (last : Option SlotId) : Option SlotId := (rotation last).find? (fun k => (x.slots[k.val]).isSome)

/-- The slot from which a core issues in this ac, if any: at most one issue an ac (01 R20). -/
def State.select (s : State) (core : CoreId) : Option SlotId :=
  let p := s.part core
  if (s.core core).lastIssue = some p.tick then none
  else if p.det then
    match (s.ctx core).nextSlot (s.ctx core).lastSlot with
    | some k => if (s.readyGangs core).any (fun x => x.1 == k) then some k else none
    | none => none
  else
    let rs := s.readyGangs core
    let fresh := rs.filter (fun x => !x.2.yielded)
    (firstBest (if fresh = [] then rs else fresh)).map (fun x => x.1)

/-! Events. -/

/-- List an event when it is enabled. -/
def ev (b : Bool) (i : Instr) : List Instr := if b then [i] else []

/-- The state in which the cores of the module's live partitions have their moves. -/
def State.liveCores (s : State) : List CoreId :=
  (List.finRange 4).flatMap (fun n => if (s.parts[n]).live then s.coresOf s.parts[n] else [])

/-- Events of a gang that take place before TICK runs on. -/
def State.gangDue (s : State) (c : CoreId) (k : SlotId) (g : Gang) : List Move :=
  (ev (registrationDue s c g && s.unstopped c g) (.subscribeRegistration c k) ++ ev (packetDue s c g) (.streamPacketEntry c k) ++
    ev (hungDue s c k) (.watchdogHung c k) ++ ev (convergenceDue g && s.unstopped c g) (.convergenceCountFreeze c k)).map .event ++
  (if g.freezeReq && g.atBoundary then [.boundary c k] else []) ++
  (if s.couldIssue c k g && (s.lacks c k g).isSome then [.block c k] else [])

/-- Events of a gang that take place in finite time. -/
def State.gangOpen (s : State) (c : CoreId) (k : SlotId) (g : Gang) : List Move :=
  if g.status = .running ∨ g.status = .frozen then (ev (selectReady s c k) (.selectInputConsume c k) ++
    ev (drainPushReady s c k) (.drainQ11Push c k)).map .event
  else
    let up := s.unstopped c g
    let sys := g.why? == some .sysRead
    let flush := g.why? == some .fenceSys
    (ev (gangEndReady s c k) (.gangEnd c k) ++ ev (up && fenceReady s c k) (.fenceComplete c k) ++
      ev (up && xfenceReady s c k) (.xfenceComplete c k) ++ ev (up && barwtReady s c k) (.barwtRelease c k) ++
      ev (up && fewaitReady s c k) (.fewaitComplete c k) ++ ev (up && wmwaitReady s c k) (.wmwaitComplete c k) ++
      ev (up && watermarkReady s c k) (.watermarkLoadRelease c k) ++
      ev (up && qualifiedReady s c k) (.qualifiedLoadComplete c k) ++ ev (up && queueWakeReady s c k) (.queueWake c k) ++
      ev (up && indexPassReady s c k) (.indexPassComplete c k) ++ ev (selectReady s c k) (.selectInputConsume c k) ++
      ev (drainPushReady s c k) (.drainQ11Push c k) ++ ev (up && orderedReady s c k) (.orderedEventRelease c k) ++
      ev sys (.sysReadCompletion c k .ok) ++ ev (sys || flush) (.sysReadCompletion c k .refused) ++
      ev (sys || flush) (.sysReadCompletion c k .poisoned) ++ ev (sys || flush) (.sysReadTimeout c k)).map .event ++
    (if up && (controlReady s c k || launchWaitReady s c k) then [.retry c k] else [])

/-- Events of a core that take place before TICK runs on. -/
def State.coreDue (s : State) (c : CoreId) : List Move :=
  (ev (holdMoves s c) (.publisherHold c)).map .event ++
    (s.core c).cache.flatMap (fun l => (ev (lineExpired s c l.2) (.readCacheLineExpiry c l.1)).map .event) ++
    (s.ctx c).gangs.flatMap (fun kg => s.gangDue c kg.1 kg.2)

/-- A buffered reduction. -/
def BufEnt.event (s : State) (c : CoreId) (e : BufEnt) : List Instr :=
  if s.storeReady c e then (if isRed e.kind then [.reductionPerform c e.seq] else [.storePerform c e.seq]) else []

/-- Events of a core that take place in finite time; a throttled ac withholds steps and chunks (15 R455). -/
def State.coreOpen (s : State) (c : CoreId) : List Move :=
  let x := s.ctx c
  let duty := (s.part c).duty64
  (x.flights.flatMap (fun f => ev (s.loadReady c f.1 f.2) (.loadPerform c f.1) ++ ev (atomicReady s c f.1 f.2) (.atomicPerform c f.1)) ++
    x.buf.flatMap (fun e => e.event s c) ++
    x.copies.flatMap (fun y => ev (duty && chunkReady s c y.1) (.copyChunk c y.1) ++
      (List.range y.2.dests.length).flatMap (fun d => ev (chunkCompleteReady s c y.1 d) (.copyChunkComplete c y.1 d))) ++
    x.ringReqs.flatMap (fun q => ev (ringReady s c q.seq) (.ringRequestApply c q.seq)) ++
    x.packets.flatMap (fun p => ev (deliveryDue s (c.toNat + 4096 * p.1)) (.faultPacketDelivery (c.toNat + 4096 * p.1))) ++
    ev (txLogReady s c) (.txLogGrant c) ++ ev (inboxEntryReady s c) (.inboxWaiterEntry c) ++
    ev (deliveryReady s c) (.waitmsgDelivery c) ++ ev (growHead s c).isSome (.growGrant c) ++
    ev (matrixStartReady s c) (.matrixOpStart c) ++ ev (duty && matrixStepReady s c) (.matrixStep c) ++
    ev (tileCompleteReady s c) (.tileOperationComplete c)).map .event ++
    x.gangs.flatMap (fun kg => s.gangOpen c kg.1 kg.2)

/-- Events of partitions, dies and Fount that take place before time runs on. -/
def State.moduleDue (s : State) : List Move :=
  ((List.finRange 4).flatMap (fun n => ev ((s.parts[n]).live && scReady s n) (.scWindowComplete n)) ++
    (List.finRange 4).flatMap (fun d => (s.dies[d]).bins.flatMap (fun b =>
      ev (binTimerReady s d b.1 && decide (b.1 < 256)) (.binTimerExpiry d (BitVec.ofNat 8 b.1)))) ++
    ev (leaseWarningDue s) .leaseWarning ++ ev (leaseRevocationDue s) .leaseRevocation).map .event

/-- The transition at the head of a die's line. -/
def State.lineEvent (s : State) (d : Fin 4) : List Instr :=
  match s.line d with
  | .park e _ :: _ => ev (e == d) (.parkComplete d)
  | .unpark e _ :: _ => ev (e == d) (.unparkComplete d)
  | _ => []

/-- The P-state step at the head of a partition's line. -/
def Part.stepping (p : Part) : Bool :=
  match p.trans with
  | .step _ :: _ => p.dieList != []
  | _ => false

/-- Events of partitions, dies and Fount that take place in finite time. -/
def State.moduleOpen (s : State) : List Move :=
  ((List.finRange 4).flatMap (fun n =>
      ev ((s.parts[n]).live && tokenReady s n) (.irrevocableTokenGrant n) ++
      ev ((s.parts[n]).state == .scrubbing) (.partScrubComplete n) ++ ev (s.parts[n]).stepping (.pstateStepComplete n) ++
      ev (stepDownDue s n) (.pstateStepDown n) ++ ev (stepUpDue s n) (.pstateStepUp n)) ++
    (List.finRange 4).flatMap (fun d => ev (placementReady s d) (.gangPlacement d) ++ s.lineEvent d) ++
    ev (s.fount.queue != []) .fountPacketService ++ ev (s.fount.claims != []) .claimVerification ++
    ev (signDue s) .logSegmentSign ++
    ev (s.fount.boot == .unpowered) (.powerOnReset (Config.bootInfo s.clock))).map .event

/-- Outside events: what a host, a peer module, or a sensor brings. -/
def isOutside (i : Instr) : Bool :=
  match i with
  | .debugWindowWrite (.func _) _ _ _ | .debugStatusRead (.func _) _ _ | .powerOnReset _ | .functionLevelReset _ | .hostPost _ _ _
  | .registerWrite _ _ _ _ | .evcauseClear _ _ | .recordCommit _ _ | .claim _ _ | .renew _ _ | .yieldOwnership _ _
  | .partCreate _ _ | .partDestroy _ _ | .partReset _ _ | .setDeleg _ _ | .setModid _ _ | .setRoute _ _ | .setExport _ _
  | .attest _ _ | .extend _ _ | .cert _ _ | .updateWrite _ _ | .updateActivate _ _ | .updateCommit _ _ | .logRead _ _
  | .portLinkUp _ _ | .portLinkDown _ | .peerAccess _ _ _ _ | .setCeiling _ _ | .setShare _ _ | .setPmax _ _ | .park _ _
  | .unpark _ _ | .setEscpol _ _ | .fresume _ _ | .setWdog _ _ | .clrCounters _ _ | .railSample _ _ | .powerEstimate _
  | .thermalStep _ _ | .thermalTrip _ _ | .busMasterEnableChange _ _ => true
  | _ => false

/-! The choice. -/

/-- Moves that come before any other. -/
def State.dues (s : State) : List Move := s.liveCores.flatMap (fun c => s.coreDue c) ++ s.moduleDue

/-- Issues of this ac. -/
def State.issues (s : State) : List Move :=
  s.liveCores.filterMap (fun c => (s.select c).map (fun k => Move.issue c k))

/-- TICK of a partition may run on: none of its cores has an issue left in this ac. -/
def State.ticks (s : State) : List Move :=
  let ls := (List.finRange 4).filter (fun n => (s.parts[n]).live)
  if ls = [] then (if s.fount.boot = .unpowered then [] else [.time])
  else (ls.filter (fun n => (s.coresOf s.parts[n]).all (fun c => (s.select c).isNone))).map .tick

/-- Moves open to the module when none is due. -/
def State.opens (s : State) : List Move :=
  s.liveCores.flatMap (fun c => s.coreOpen c) ++ s.moduleOpen ++ (if s.inputs = [] then [] else [.input]) ++
    (if s.accesses = [] then [] else [.access]) ++ (if s.fount.words = [] ∨ s.fount.boot ≠ .running then [] else [.fountWord]) ++
    (if s.mishaps = [] then [] else [.mishap]) ++ s.issues ++ s.ticks

/-- One of some moves: the only one, or a free choice. -/
def choose (clock : Nat) : List Move → Move
  | [] => .time
  | [m] => m
  | m :: l => ((m :: l)[Config.schedule clock % (l.length + 1)]?).getD m

/-- The next move. -/
def State.nextMove (s : State) : Move :=
  match s.dues with
  | [] => choose s.clock s.opens
  | l => choose s.clock l

/-! Making a move. -/

/-- The state with the next number of the free sequence (log 4). -/
def State.bump (s : State) : State := { s with clock := s.clock + 1 }

/-- Issue bookkeeping of a core (01 R20, 06 R192, R193): the ac and the slot, the gang's waiting time, its free gap to the next
issue, and the yields that this selection has passed over (08 R263). -/
def State.issued (s : State) (core : CoreId) (slot : SlotId) (w : Word) (strm : Option StreamPkt) : State :=
  let t := s.now core
  let s := s.modCore core (fun k => { k with
    lastIssue := some t
    ctx := { k.ctx with
      lastSlot := some slot
      slots := k.ctx.slots.map (fun o => o.map (fun (g : Gang) => { g with yielded := false })) } })
  let s := s.modGang core slot (fun g => { g with
    regs := match strm with
      | some p => { g.regs with pc := p.pc }
      | none => g.regs
    cnt := { g.cnt with wt := 0, readyAt := t + Config.gap s.clock } })
  { s with cur := ⟨core, slot, w, strm⟩, clock := s.clock + 1 }

/-- The instruction that an issue hands to exec, and the state it meets; none when the fetch gave no word. -/
def State.issueOf (s : State) (core : CoreId) (slot : SlotId) : Option (Instr × State) :=
  match s.gang? core slot with
  | none => none
  | some g =>
    match s.source core g with
    | .memory (.word w) =>
      some ((decode w).getD (.illegalWord w), ((s.issued core slot w none).fetchTouch core g.regs.pc))
    | .packet p => some ((decode p.word).getD (.illegalWord p.word), s.issued core slot p.word (some p))
    | _ => none

/-- A fetch without a word: the gang freezes (07 R205), or waits for the relocation (02 R74). -/
def State.fetchFailed (s : State) (core : CoreId) (slot : SlotId) : State :=
  match s.gang? core slot with
  | none => s.bump
  | some g =>
    let t := s.issued core slot 0 none
    match s.source core g with
    | .memory (.fault f) => t.freeze core slot f g.active 0
    | .late p =>
      let t := s.issued core slot p.word (some p)
      ((t.count 7 1).fleet (t.partOf (dieOf core))).freeze core slot (chanFault 6) g.active p.word
    | .memory (.moving id) => t.modGang core slot (fun g => { g with status := .waiting ⟨.moving id, s.clock, 0⟩ })
    | _ => s.bump

/-! Time. -/

/-- TICKs of a core at which something becomes due. -/
def State.deadlines (s : State) (c : CoreId) : List Nat :=
  (s.core c).cache.map (fun l => l.2.fill + 65536) ++
  (s.ctx c).gangs.flatMap (fun kg =>
    let g := kg.2
    [g.cnt.readyAt] ++ (g.chan.due.map (fun d => d.1)) ++ g.chan.holdAt.toList ++
    (if g.why? = some .registration then [g.chan.reg] else []) ++
    (match g.why? with
     | some (.sc w) => [scDue w]
     | _ => []) ++
    [s.now c + (g.window - g.cnt.dog)])

/-- TICKs at which a bin's timer ends. -/
def State.binDeadlines (p : Part) (s : State) : List Nat :=
  p.dieList.flatMap (fun d => (s.dies[d]).bins.flatMap (fun b => (b.2.pending.head?.map (fun r => r.tick + b.2.t)).toList))

/-- Some gang of the partition could issue now or in the next ac. -/
def State.anyReady (s : State) (p : Part) : Bool := (s.coresOf p).any (fun c => s.readyGangs c != [])

/-- By how much TICK runs on: one ac where each ac matters, else a free number that passes no deadline. -/
def State.stride (s : State) (n : Fin 4) : Nat :=
  let p := s.parts[n]
  if p.det ∨ p.duty < 63 ∨ s.anyReady p then 1
  else
    let ahead := ((s.coresOf p).flatMap (fun c => s.deadlines c) ++ s.binDeadlines p).filter (fun t => decide (p.tick < t))
    ahead.foldl (fun d t => min d (t - p.tick)) (1 + Config.advance s.clock)

/-- Counts of a gang after d ac (10 R370, 06 R193, R203, R204; 15 R455): its partition ran in some of them; run says that the core runs it
now, duty that the ac was not withheld, passed that it was ready and did not issue. -/
def Counts.pass (n : Counts) (d ran : Nat) (run duty passed quiet : Bool) : Counts :=
  { n with
    elapsed := n.elapsed + ran
    wt := if passed then n.wt + ran else n.wt
    dog := if run && duty && !quiet then n.dog + d else n.dog }

/-- The rotation pointer after n cycles without an issue (06 R198). -/
def Ctx.rotate (x : Ctx) : Nat → Ctx
  | 0 => x
  | n + 1 =>
    match x.nextSlot x.lastSlot with
    | some k => { x with lastSlot := some k }.rotate n
    | none => x

/-- A partition runs while one of its cores is not stopped (10 R370, R373): first those with an entry in the table, then all. -/
def State.partRuns (s : State) (p : Part) : Bool := (s.coresOf p).any (fun c => !(s.core c).stopped) || !s.allStopped p

/-- A core after d ac; runs says that its partition runs. One that was stopped in an ac in which it had issued ran in that ac (log 2). -/
def State.passCore (s : State) (d : Nat) (runs : Bool) (c : CoreId) : State :=
  let p := s.part c
  let k := s.core c
  let ready := s.readyGangs c
  let hit (j : SlotId) : Bool := k.lastIssue == some p.tick && k.ctx.lastSlot == some j
  let last := (k.ctx.lastSlot.bind (s.gang? c)).any (fun g => g.priv != .p)
  let ran := if runs then d else if k.lastIssue == some p.tick && last then 1 else 0
  let s := k.ctx.gangs.foldl (fun (s : State) jg =>
    s.modGang c jg.1 (fun (g : Gang) =>
      let passed := ready.any (fun x => x.1 == jg.1) && !hit jg.1
      let run := s.unstopped c g
      { g with cnt := g.cnt.pass d ran run p.duty64 passed (s.quiescent c jg.1 g) })) s
  if p.det && p.duty64 && k.ctx.gangs.any (fun jg => s.unstopped c jg.2) then
    s.modCtx c (fun x => x.rotate (if k.lastIssue = some p.tick then d - 1 else d))
  else s

/-- Every core of the die is stopped: no bin timer counts there (10 R379). -/
def State.dieStopped (s : State) (d : Fin 4) : Bool :=
  (List.range 1024).all (fun k => s.isDark (BitVec.ofNat 12 (d.val * 1024 + k)) || (s.core (BitVec.ofNat 12 (d.val * 1024 + k))).stopped)

/-- Bins of a stopped die stand still while TICK runs on. -/
def State.passBins (s : State) (d : Nat) (die : Fin 4) : State :=
  if (s.dies[die]).bins = [] then s
  else if s.dieStopped die then
    s.modDie die (fun x => { x with bins := x.bins.map (fun b => (b.1, { b.2 with
      pending := b.2.pending.map (fun r => { r with tick := r.tick + d }) })) })
  else s

/-- Fount's time runs on, but not past the end of a lease or its warning (12 R425). -/
def State.passTime (s : State) (least : Nat) : State :=
  let f := s.fount
  let ends := if s.owned then [f.granted + warnTime, f.granted + leaseTime].filter (fun t => decide (f.time < t)) else []
  { s with fount := { f with time := f.time + ends.foldl (fun d t => min d (t - f.time)) (least + Config.elapse s.clock) } }

/-- TICK of a partition runs on. -/
def State.passTick (s : State) (n : Fin 4) : State :=
  let p := s.parts[n]
  let d := s.stride n
  let runs := s.partRuns p
  let s := (s.coresOf p).foldl (fun (s : State) c => s.passCore d runs c) s
  let s := p.dieList.foldl (fun (s : State) x => s.passBins d x) s
  (s.modPart n (fun p => { p with tick := p.tick + d })).passTime 0

/-! Faults of cells and light paths (02 R60, 15 R464, 01 R46; log 15, 22). -/

/-- Bytes that an error leaves open. -/
def errorBytes (clock n : Nat) : List Byte := (List.range n).map (fun i => BitVec.ofNat 8 (Config.nat2 clock i))

/-- The next packet of a channel is late at a die: every subscriber there finds it so (01 R46). -/
def State.packetLate (s : State) (chan : CoreId) (die : Fin 4) : State :=
  let subs := (s.subscribersOf (siteAt die.val 0 0) chan).filter (fun x => dieOf x.1 == die && dieOf chan != die)
  match subs.filterMap (fun x => x.2.2.chan.due.head?) with
  | [] => s
  | d :: _ =>
    let s := subs.foldl (fun (s : State) x => s.modGang x.1 x.2.1 (fun g => { g with chan := { g.chan with
      due := g.chan.due.map (fun e => if e.2.seq = d.2.seq then (e.1, { e.2 with late := true }) else e) } })) s
    s.logKind .late 0xFF (s.partOf die)

/-- PCI Express reports an error (12 R417). -/
def Aer.report (a : Aer) (correctable : Bool) (bit : Fin 32) : Aer :=
  if correctable then { a with corStatus := a.corStatus ||| BitVec.twoPow 32 bit.val }
  else { a with uncorStatus := a.uncorStatus ||| BitVec.twoPow 32 bit.val }

/-- A mishap strikes. -/
def State.strike (s : State) (m : Mishap) : State :=
  match m with
  | .padCorrected => s.count 0 1
  | .padRebuilt => s.count 1 1
  | .padLost c g =>
    if g < 16384 ∧ s.noCore c = false then
      s.modCtx c (fun x => { x with lost := (List.range 16).foldl (fun t i => Granules.add t (16 * g + i)) x.lost })
    else s
  | .dramCorrected => s.count 3 1
  | .dramLost l =>
    let a := 128 * l
    if a / 2 ^ 36 < 8 ∧ a % 2 ^ 36 < Config.stackBytes then
      (({ s with dram := s.dram.write a (errorBytes s.clock 128), dramTags := clearTags s.dramTags a 128 } : State).count 4 1).fleet
        ((List.finRange 4).find? (fun n => (s.parts[n]).ownsPa a))
    else s
  | .tarnCorrected => s.count 5 1
  | .tarnLost c g =>
    match (s.core c).tarn with
    | some x =>
      if g < 16384 then
        ((s.modCore c (fun k => { k with tarn := some { x with pad := x.pad.write (16 * g) (errorBytes s.clock 16), spoiled := true } })).count 6 1).fleet
          (s.partOf (dieOf c))
      else s
    | none => s
  | .linkError n c b => { s with funcs := s.funcs.set n.val { s.funcs[n] with aer := (s.funcs[n]).aer.report c b } }
  | .packetLate ch d => s.packetLate ch d

/-! Placing a program (log 8). -/

/-- A module that runs one partition of die 0 whose boot program is some words: Fount's own build of 12 R442, with nothing else to
do next. Device and host memory keep what the build does not write. -/
def State.withProgram (s : State) (ws : List Word) : State :=
  let desc := toBytes 2 0x0100 ++ toBytes 2 0 ++ toBytes 4 3 ++ List.replicate 8 0
  let t : State := { s with
    cur := {}, inputs := [], mishaps := [], accesses := [], cores := [], dark := s.dark.filter (fun c => c != 0)
    dies := Vector.replicate 4 { state := .running }
    parts := Vector.replicate 4 {}, circuits := Vector.replicate 64 {}
    fount := { Fount.fresh with boot := .running, program := ws } }
  t.buildPart 0 desc true

end Sys2Proof.Machine
end

