-- ==== Sys2Proof/Machine/Processor.lean ====
section
/-! DEFINITION. The Fount processor (07 R214). The manual gives it words to execute and no program, memory or site of its own; how its words
reach the module is log 86. -/

namespace Sys2Proof.Machine

/-- Block 0xE0 to 0xEF. -/
def privilegedWord (w : Word) : Bool := bits w 31 28 == 0xE

/-- The words that the Fount processor executes: blocks 0x00 to 0x0F and 0xE0 to 0xEF, the scalar opcodes 0x30 to 0x3B, and SLD, SLDS, SST. -/
def fountExecutes (w : Word) : Bool :=
  let op := bits w 31 24
  decide (op < 0x10) || (decide (0x30 ≤ op) && decide (op ≤ 0x3B)) || (decide (0x73 ≤ op) && decide (op ≤ 0x75)) || privilegedWord w

/-- A slot free on a core of the partition other than one site. -/
def State.berth (s : State) (p : Part) (site : CoreId) : Option (CoreId × SlotId) :=
  (s.sitesOf p).findSome? (fun c => if c = site then none else (s.ctx c).freeSlot.map (fun k => (c, k)))

/-- The outcome of an instruction, or the state as it was. -/
def orElse (s : State) (r : Host.Outcome State Fault Refusal) : State :=
  match r with
  | .next t => t
  | _ => s

/-- The accesses of a core's gang take place at once: its loads, then its stores in order. -/
def State.flush (s : State) (c : CoreId) : State :=
  let s := (s.ctx c).flights.foldl (fun s f => orElse s (exec (.loadPerform c f.1) s)) s
  (s.ctx c).buf.foldl (fun s e => (e.event s c).foldl (fun s i => orElse s (exec i s)) s) s

/-- A word of level U runs for a site: over the scratchpads of the partition as they stand, but with no gang and no access of the site's own core
in its way. None where its accesses cannot be done yet. -/
def State.onBench (s : State) (c : CoreId) (cpu : Gang) (i : Instr) (w : Word) : Option (State × Option Gang) :=
  let own := s.core c
  let bench : Ctx := { own.ctx with slots := Ctx.fresh.slots.set 0 (some cpu), flights := [], buf := [], packets := [] }
  let t : State := { s.modCore c (fun k => { k with ctx := bench, stopped := false }) with cur := ⟨c, 0, w, none⟩ }
  let t := (orElse t (exec i t)).flush c
  let x := t.ctx c
  if x.flights ≠ [] ∨ x.buf ≠ [] then none
  else
    let back := t.modCore c (fun _ => { own with ctx := { own.ctx with pad := x.pad, full := x.full, tags := x.tags, lost := x.lost } })
    some ({ back with cur := s.cur }, t.gang? c 0)

/-- A privileged word runs from a free slot of the partition that it acts for. None where there is none. -/
def State.onBerth (s : State) (p : Part) (site : CoreId) (cpu : Gang) (i : Instr) (w : Word) : Option (State × Option Gang) :=
  (s.berth p site).map (fun (c, k) =>
    let t : State := { s.setGang c k cpu with cur := ⟨c, k, w, none⟩ }
    let t := orElse t (exec i t)
    ({ t.modCtx c (fun x => { x with slots := x.slots.set k.val none }) with cur := s.cur }, t.gang? c k))

/-- A fault of Fount's own stops the partition and marks it FAILED (11 R391). -/
def State.fountFault (s : State) (n : Fin 4) (f : Code) : State :=
  let s := { s with fount := { s.fount with cpu := { s.fount.cpu with fcode := f } } }
  if s.livePart n then s.failPart n else s

/-- Fount comes to a word again. -/
def State.fountAgain (s : State) (n : Fin 4) (w : Word) : State := { s with fount := { s.fount with words := (n, w) :: s.fount.words } }

/-- What a word leaves: a gang that faulted is a fault of Fount's own, one that waits comes to its word again, as a word does that could not run
yet, and any other is the processor after it. -/
def State.fountAfter (s : State) (n : Fin 4) (w : Word) (r : Option (State × Option Gang)) : State :=
  match r with
  | none => s.fountAgain n w
  | some (t, none) => t
  | some (t, some g) =>
    match g.status with
    | .frozen => s.fountFault n g.fcode
    | .waiting _ => t.fountAgain n w
    | .running => { t with fount := { t.fount with cpu := g } }

/-- The site for which the words of a partition are executed: (0,0) of its lowest die, or of D0. -/
def Part.frontSite (p : Part) : CoreId := siteAt ((p.dieList.head?.map (fun d => d.val)).getD 0) 0 0

/-- The Fount processor comes to a word, at level P; every opcode that it does not execute faults ILLEGAL there. -/
def State.runFountWord (s : State) (n : Fin 4) (w : Word) : State :=
  let p := s.parts[n]
  let cpu := s.fount.cpu
  match if fountExecutes w then decode w else none with
  | none => s.fountFault n .illegal
  | some i =>
    s.fountAfter n w (if privilegedWord w then s.onBerth p (BitVec.ofNat 12 (bits (cpu.s (BitVec.ofNat 5 (bits w 15 8))) 11 0)) cpu i w
      else s.onBench p.frontSite cpu i w)

/-- The next word of the Fount processor. -/
def State.fountStep (s : State) : State :=
  match s.fount.words with
  | [] => s
  | x :: rest => ({ s with fount := { s.fount with words := rest } } : State).runFountWord x.1 x.2

end Sys2Proof.Machine
end

