-- ==== Sys2Proof/Machine/Step.lean ====
section
/-! DEFINITION. One move of the module, and a module that runs a given word next. -/

namespace Sys2Proof.Machine

/-- One move (log 2): an event, an outside event, an issue, a boundary, or the passing of TICK. -/
def step (s : State) : Host.Outcome State Fault Refusal :=
  match s.nextMove with
  | .event i => exec i s.bump
  | .retry c k => .next (s.bump.resync c k retryOf)
  | .boundary c k => .next (s.bump.boundary c k)
  | .block c k => .next (s.bump.block c k)
  | .input =>
    match s.inputs with
    | i :: r => if isOutside i then exec i { s.bump with inputs := r } else .next { s.bump with inputs := r }
    | [] => .next s.bump
  | .mishap =>
    match s.mishaps with
    | m :: r => .next ({ s.bump with mishaps := r }.strike m)
    | [] => .next s.bump
  | .access =>
    match s.accesses with
    | a :: r => .next ({ s.bump with accesses := r }.access a)
    | [] => .next s.bump
  | .fountWord => .next s.bump.fountStep
  | .issue c k =>
    match s.issueOf c k with
    | some x => exec x.1 x.2
    | none => .next (s.fetchFailed c k)
  | .tick n => .next (s.bump.passTick n)
  | .time => .next (s.bump.passTime 1)

/-- The module about to issue a word: the boot program of a partition of die 0 (log 8). -/
def State.withFetchWord (s : State) (_nbits w : Nat) : State := s.withProgram [BitVec.ofNat 32 w]

end Sys2Proof.Machine
end

