-- ==== Sys2Proof/Safety.lean ====
section
/-! DEFINITION. The terms in which claims are made: bytes of memory, when a gang may run a word, what it is to retire or to freeze,
and what every step keeps. -/

namespace Sys2Proof.Machine

/-! Memory. -/

/-- One byte of the module or of the host, as it stands at its home. -/
def State.byteAt (s : State) (l : Loc) : Byte :=
  match l with
  | .pad c o => (s.ctx c).pad.get o
  | .phys a => s.dram.get a
  | .host a => s.host.get a

/-- Every byte of every memory reads as before. -/
def SameMemory (s t : State) : Prop := ∀ l : Loc, t.byteAt l = s.byteAt l

/-- Every byte outside some places reads as before. -/
def SameMemoryBut (ls : List Loc) (s t : State) : Prop := ∀ l : Loc, l ∉ ls → t.byteAt l = s.byteAt l

/-- Device memory and host memory have the canonical form. -/
def State.memOk (s : State) : Prop := s.dram.wf = true ∧ s.host.wf = true

/-! Running a word. -/

/-- The executing gang g runs, holds the privilege a word needs, and has every V register the word names in its allotment (steps 2 and
4 of 07 R211). -/
structure Runs (s : State) (g : Gang) (need : Priv) (vs : List Nat) : Prop where
  me     : s.me? = some g
  status : g.status = .running
  priv   : need.le g.priv = true
  allot  : ∀ v ∈ vs, v < g.vLimit

/-- The executing gang g runs; its word is one of level U that names no V register. -/
abbrev Runs0 (s : State) (g : Gang) : Prop := Runs s g .u []

/-- The executing gang's place holds a gang in another state. -/
def State.meIn (s t : State) : Option Gang := t.gang? s.cur.core s.cur.slot

/-- The word retires with the gang's registers as g' has them and its PC moved on (08 R253). -/
def State.retires (s : State) (g' : Gang) : State := (s.setMe g').retire none

/-- The word retires with the gang's registers as g' has them and its PC at a target. -/
def State.jumps (s : State) (g' : Gang) (pc : DWord) : State := (s.setMe g').retire (some pc)

/-- The word does not retire: a gang-wide fault of the executing gang g (01 R30, 11 R393). -/
def State.faults (s : State) (g : Gang) (f : Flt) : State :=
  (s.publishFault).freeze s.cur.core s.cur.slot f g.active s.cur.word

/-! The registers of a gang. -/

/-- The registers that an instruction may name keep their values but for some. -/
structure KeepsRegs (vs : List VReg) (ss : List SReg) (ps : List PReg) (cs : List CReg) (g g' : Gang) : Prop where
  v : ∀ r, r ∉ vs → g'.v r = g.v r
  s : ∀ r, r ∉ ss → g'.s r = g.s r
  p : ∀ r, r ∉ ps → g'.p r = g.p r
  c : ∀ r, r ∉ cs → g'.c r = g.c r

/-- MODE, the flags, the bit addresses, the masks, the lanes' rounding states and the stack keep their values. -/
structure KeepsStatus (g g' : Gang) : Prop where
  mode  : g'.regs.mode = g.regs.mode
  fstat : g'.regs.fstat = g.regs.fstat
  ba    : g'.regs.ba = g.regs.ba
  exm   : g'.regs.exm = g.regs.exm
  pkm   : g'.regs.pkm = g.regs.pkm
  lfsr  : g'.regs.lfsr = g.regs.lfsr
  stack : g'.stack = g.stack
  tx    : g'.tx = g.tx

/-! Runs of the module. -/

/-- A safe run: no state of it stops. -/
def Stops (o : Host.Outcome State Fault Refusal) : Prop :=
  match o with
  | .next _ => False
  | _ => True

end Sys2Proof.Machine
end

