-- ==== Sys2Proof/Certificates/Slice0/Obligations.lean ====
section
/-! DEFINITION. The statements for the provers, with the tables of the spec that they are stated by. -/

open Sys2Proof Sys2Proof.Machine

/-! Encoding (07). -/

/-- Every well-formed instruction has a word that decodes to it, with every operand at every value (07 R205 to R230). -/
def Obligations.DecodeOfEncode : Prop :=
  ∀ i : Instr, i.isWord = true → i.wf = true → decode (encode i) = some i

/-- A word that decodes is the one word of a well-formed instruction: no bit of it is dropped, and a word with a bit set where
the encoding has zero decodes to nothing (07 R207, R211). -/
def Obligations.DecodeIsCanonical : Prop :=
  ∀ (w : Word) (i : Instr), decode w = some i → i.isWord = true ∧ i.wf = true ∧ encode i = w

/-- Words of the manual's own listings (08 R259, R273, R293) and their instructions; the words 0 and all ones are none. -/
def Obligations.SampleWordsDecode : Prop :=
  decode 0x0F040000 = some (.setmf .etype 0) ∧ decode 0x2008208A = some (.vop .xor 2 2 2) ∧
  decode 0x390C0002 = some (.lil 3 2) ∧ decode 0x2B041004 = some (.vcmps .gt 1 1 0) ∧
  decode 0x07100007 = some (.if_ ⟨false, 1⟩ 7) ∧ decode 0x0B0FFFFC = some (.endloop ⟨false, 0⟩ 0xFFFFC) ∧
  decode 0x22082FFF = some (.addImmV 2 2 0xFFF) ∧ decode 0x0E010000 = some .exit ∧
  decode 0x50141042 = some (.fop .fmul 5 1 1) ∧ decode 0x53081040 = some (.fma .fma 2 1 1) ∧
  decode 0x59960704 = some (.fcvt .e4m3 .f32 7 4) ∧ decode 0x00000000 = none ∧ decode 0xFFFFFFFF = none

/-! Steps. -/

/-- When a gang issues and the word that it fetches, or that heads its stream buffer, decodes, the step is exec of the decoded
instruction; a word that decodes to nothing is the illegal word. The state exec meets has that gang running in cur's place with
that word; its registers are as they were, but that a subscriber's PC is its packet's; memory is unchanged (01 R20, R41). -/
def Obligations.StepRunsDecodedWord : Prop :=
  ∀ (s : State) (c : CoreId) (k : SlotId) (g : Gang) (w : Word),
    s.nextMove = .issue c k → s.gang? c k = some g → (s.source c g).word? = some w →
    ∃ t g', step s = exec ((decode w).getD (.illegalWord w)) t ∧
      t.cur.core = c ∧ t.cur.slot = k ∧ t.cur.word = w ∧ SameMemory s t ∧
      t.gang? c k = some g' ∧ g'.status = .running ∧ g'.priv = g.priv ∧ g'.allot = g.allot ∧ g'.stack = g.stack ∧ g'.tx = g.tx ∧
      (s.source c g = .memory (.word w) → t.cur.stream = none ∧ g'.regs = g.regs) ∧
      (∀ p, s.source c g = .packet p → t.cur.stream = some p ∧ g'.regs = { g.regs with pc := p.pc })

/-- The module never comes to a stop: from every state, reached or not, a step answers a next state. Every word executed for a running
gang answers one too; for a place where no running gang stands, which a step never meets, a word stops with noGang. -/
def Obligations.EveryStepMovesOn : Prop :=
  (∀ s : State, ∃ t, step s = .next t) ∧
  ∀ (i : Instr) (s : State), i.isWord = true →
    ((∃ g, s.me? = some g ∧ g.status = .running) → ∃ t, exec i s = .next t) ∧
    ((∀ g, s.me? = some g → g.status ≠ .running) → exec i s = .fault .noGang)

/-- Device memory and host memory keep their canonical form in every step, from every state that has it. -/
def Obligations.StepKeepsMemoryForm : Prop := ∀ s t : State, s.memOk → step s = .next t → t.memOk

/-- The module when power is applied (12 R425, R430, R440, R463): nothing has booted, no partition exists, the module is unowned, no
outside event waits, and a slot holds no gang; memory has its canonical form. The model's choices are that the zeros of registers
and memory that R2 and R440 give no value stand (log 3), that no core is stopped (log 3), and that Bus Master Enable is clear in
every function, which PCIe gives and no rule of the spec does (log 87, PRESUMED). -/
def Obligations.ResetState : Prop :=
  State.reset.fount.boot = .unpowered ∧ State.reset.fount.owner = 0xFF ∧ State.reset.inputs = [] ∧ State.reset.mishaps = [] ∧ State.reset.accesses = [] ∧
  (∀ n : Fin 4, (State.reset.parts[n]).state = .absent) ∧ (∀ d : Fin 4, (State.reset.dies[d]).state = .off) ∧
  (∀ n : Fin 4, (State.reset.funcs[n]).bme = false ∧ (State.reset.funcs[n]).nbase = 0 ∧ (State.reset.funcs[n]).evcause = 0) ∧
  (∀ (c : CoreId) (k : SlotId), State.reset.gang? c k = none ∧ (State.reset.core c).stopped = false) ∧
  (∀ l : Loc, State.reset.byteAt l = 0) ∧ State.reset.memOk

/-- Retiring an instruction: PC moves to the next word, or to the target of a jump; every other register of the gang, its mask
stack and its transaction stand; no other gang's registers, stack, level or status change; memory is unchanged (08 R253). -/
def Obligations.RetiringMovesPcOnly : Prop :=
  ∀ (s : State) (g : Gang) (pc : Option DWord), s.me? = some g →
    (∃ g', s.meIn (s.retire pc) = some g' ∧ g'.regs = { g.regs with pc := pc.getD (g.regs.pc + 4) } ∧ g'.stack = g.stack ∧
      g'.tx = g.tx ∧ g'.status = g.status ∧ g'.priv = g.priv ∧ g'.parked = g.parked ∧ g'.cnt.retired = g.cnt.retired + 1) ∧
    (∀ c k h, (c, k) ≠ (s.cur.core, s.cur.slot) → s.gang? c k = some h →
      ∃ h', (s.retire pc).gang? c k = some h' ∧ h'.regs = h.regs ∧ h'.stack = h.stack ∧ h'.priv = h.priv ∧ h'.status = h.status) ∧
    SameMemory s (s.retire pc)

/-! Faults (01 R30, 07 R211, R213, 11 R393). -/

/-- Taking a gang-wide fault outside a transaction: the gang is frozen with the fault's code, at the PC of the instruction, with
every register and its mask stack as before it; a fault packet for its place waits to be delivered; memory is unchanged. -/
def Obligations.GangFaultFreezesBeforeEffect : Prop :=
  ∀ (s : State) (c : CoreId) (k : SlotId) (g : Gang) (f : Flt) (l : Mask) (w : Word),
    s.gang? c k = some g → g.tx.active = false →
    (∃ g', (s.freeze c k f l w).gang? c k = some g' ∧ g'.status = .frozen ∧ g'.fcode = f.code ∧ g'.regs = g.regs ∧
      g'.stack = g.stack ∧ g'.parked = g.parked ∧ g'.priv = g.priv) ∧
    (∃ p, Tbl.get? ((s.freeze c k f l w).ctx c).packets (s.ctx c).seq = some p ∧ p.rec_.flt = f ∧ p.rec_.pc = g.regs.pc ∧
      p.rec_.word = w ∧ p.rec_.gangw = true ∧ p.rec_.lanes = l ∧ p.rec_.slot = k.val ∧ p.rec_.core = c) ∧
    SameMemory s (s.freeze c k f l w)

/-- Level that a word of the privileged block needs (07 R213, 10 R374). -/
def Spec.level : Instr → Priv
  | .supsetCore .. | .supsetPriv .. | .supsetGet .. | .ctxsave .. | .ctxsaveSpill .. | .ctxswap .. | .ctxload ..
  | .ctxloadFill .. | .migrate .. | .migrateRetire .. | .stopPart | .stopCore .. | .startPart | .startCore .. | .rtnld ..
  | .rtnclr .. | .ortsetBase .. | .ortsetRec .. | .chanctlSet .. | .chanctlClr .. | .partctl .. => .p
  | .freeze .. | .resume .. | .cpyres .. | .cpyresCan .. | .objinv .. => .s
  | _ => .u

/-- A privileged word below its level takes a PRIVILEGE fault, gang-wide, and has no other effect (07 R213). -/
def Spec.privilegedWordsFaultBelowTheirLevel : Prop :=
  ∀ (i : Instr) (s : State) (g : Gang), i.isWord = true → s.me? = some g → g.status = .running →
    (Spec.level i).le g.priv = false →
    exec i s = .next (s.freeze s.cur.core s.cur.slot (flt .privilege) g.active s.cur.word)

/-- V registers that an instruction of 08 names (07 R219 to R224). -/
def Spec.vNamed : Instr → List VReg
  | .vop _ d a b | .sel d a b _ | .mad d a b | .dot2 d a b | .dot4 d a b | .shfl d a b | .fop _ d a b | .fma _ d a b => [d, a, b]
  | .vops _ d a _ | .addImmV d a _ | .mulImmV d a _ | .andImmV d a _ | .orImmV d a _ | .xorImmV d a _ | .shlImmV d a _
  | .shrImmV d a _ | .sraImmV d a _ | .shflUp d a _ | .shflDown d a _ | .shflXor d a _ | .shflBcast d a _ | .vscan _ d a
  | .fops _ d a _ | .fmaVs _ d a _ | .fclass d a | .fcvt _ _ d a => [d, a]
  | .vcmp _ _ a b | .fcmp _ _ a b => [a, b]
  | .vcmps _ _ a _ | .fcmpS _ _ a _ | .vred _ _ a | .vtos _ a _ => [a]
  | .stov d _ _ | .laneid d => [d]
  | _ => []

/-- An instruction of 08 that names a V register outside the gang's allotment takes an ILLEGAL fault, gang-wide (01 R22,
07 R211 step 4). -/
def Spec.registersOutsideAllotmentFault : Prop :=
  ∀ (i : Instr) (s : State) (g : Gang) (v : VReg), s.me? = some g → g.status = .running → v ∈ Spec.vNamed i →
    g.vLimit ≤ v.toNat →
    exec i s = .next (s.freeze s.cur.core s.cur.slot (flt .illegal) g.active s.cur.word)

/-- TRAP and BRK take a gang-wide fault TRAP or BREAK whose OFFSET is the code (10 R371). A word that matches no assigned encoding
freezes the gang before any effect: PRIVILEGE where its opcode is of a privileged block above the gang's level, else ILLEGAL
(07 R211, R213). -/
def Obligations.TrapBreakAndUnassignedWords : Prop :=
  (∀ (s : State) (g : Gang) (x : BitVec 12), Runs0 s g →
    exec (.trap x) s = .next (s.faults g { flt .trap with offset := x.zeroExtend 64 }) ∧
    exec (.brk x) s = .next (s.faults g { flt .break_ with offset := x.zeroExtend 64 })) ∧
  (∀ (s : State) (g : Gang) (w : Word), s.me? = some g → g.status = .running → decode w = none →
    exec (.illegalWord w) s = .next (s.freeze s.cur.core s.cur.slot
      (flt (if (opcodeNeed (bits w 31 24)).le g.priv then .illegal else .privilege)) g.active w))

/-- The checks before an effect (07 R211, R213). -/
def Obligations.LevelAndAllotmentFaults : Prop :=
  Spec.privilegedWordsFaultBelowTheirLevel ∧ Spec.registersOutsideAllotmentFault

/-! Integer instructions (08 R272 to R278). -/

/-- The exact result of a SOP sub-op (08 R273, 03 R86): 64-bit values, signed but for the last five. -/
def Spec.exact (op : AluOp) (a b : DWord) : Int :=
  let c := b.toNat % 256
  match op with
  | .add => a.toInt + b.toInt
  | .sub => a.toInt - b.toInt
  | .mul => a.toInt * b.toInt
  | .mulh => a.toInt * b.toInt / 2 ^ 64
  | .div => if b = 0 then -1 else Int.tdiv a.toInt b.toInt
  | .rem => if b = 0 then a.toInt else Int.tmod a.toInt b.toInt
  | .min => min a.toInt b.toInt
  | .max => max a.toInt b.toInt
  | .and => (a &&& b).toInt
  | .or => (a ||| b).toInt
  | .xor => (a ^^^ b).toInt
  | .andn => (a &&& ~~~ b).toInt
  | .shl => a.toInt * 2 ^ c
  | .shr => ((a >>> c).toNat : Int)
  | .sra => a.toInt / 2 ^ c
  | .ror => ((a.rotateRight (c % 64)).toNat : Int)
  | .abs => if b.toInt < 0 then -b.toInt else b.toInt
  | .neg => -b.toInt
  | .not => (~~~ b).toInt
  | .clz => (leadingZeros b : Int)
  | .popc => (popCount b : Int)
  | .mov => b.toInt
  | .absd => if a.toInt < b.toInt then b.toInt - a.toInt else a.toInt - b.toInt
  | .avg => (a.toInt + b.toInt + 1) / 2
  | .mulhu => ((a.toNat * b.toNat / 2 ^ 64 : Nat) : Int)
  | .divu => if b = 0 then -1 else ((a.toNat / b.toNat : Nat) : Int)
  | .remu => if b = 0 then (a.toNat : Int) else ((a.toNat % b.toNat : Nat) : Int)
  | .minu => (min a.toNat b.toNat : Nat)
  | .maxu => (max a.toNat b.toNat : Nat)

/-- SOP completes: S[d] takes the exact result modulo 2^64, whatever MODE.SAT and MODE.ETYPE hold; S0 discards it (08 R272,
R273). -/
def Spec.scalarSubOpsWrap : Prop :=
  ∀ (s : State) (g : Gang) (op : AluOp) (d a b : SReg), Runs0 s g →
    exec (.sop op d a b) s = .next (s.retires (g.setS d (BitVec.ofInt 64 (Spec.exact op (g.s a) (g.s b)))))

/-- What an instruction writes to its S destination, where that depends on the gang's registers alone (08 R261, R274, R278,
R283 to R287, 09 R301, R306). -/
def Spec.sResult (g : Gang) : Instr → Option (SReg × DWord)
  | .addImmS d a i => some (d, g.s a + i.signExtend 64)
  | .mulImmS d a i => some (d, g.s a * i.signExtend 64)
  | .andImmS d a i => some (d, g.s a &&& i.zeroExtend 64)
  | .orImmS d a i => some (d, g.s a ||| i.zeroExtend 64)
  | .xorImmS d a i => some (d, g.s a ^^^ i.zeroExtend 64)
  | .shlImmS d a i => some (d, g.s a <<< i.toNat)
  | .shrImmS d a i => some (d, g.s a >>> i.toNat)
  | .sraImmS d a i => some (d, (g.s a).sshiftRight i.toNat)
  | .lil d i => some (d, i.zeroExtend 64)
  | .lih d i k => some (d, (g.s d &&& ~~~ ((0xFFFF#64) <<< (16 * k.toNat))) ||| (i.zeroExtend 64 <<< (16 * k.toNat)))
  | .getmode a => some (a, g.regs.mode.zeroExtend 64)
  | .getfs a => some (a, g.regs.fstat.zeroExtend 64)
  | .vote .ballot d a => some (d, (g.p a &&& g.active).zeroExtend 64)
  | .vote .any d a => some (d, if ∃ i, Mask.has (g.p a) i ∧ Mask.has g.active i then 1 else 0)
  | .vote .all d a => some (d, if ∀ i, Mask.has g.active i → Mask.has (g.p a) i then 1 else 0)
  | .vote .count d a => some (d, BitVec.ofNat 64 (popCount (g.p a &&& g.active)))
  | .ptos d a => some (d, (g.p a).zeroExtend 64)
  | .getexm d => some (d, g.regs.exm.zeroExtend 64)
  | .getpkm d => some (d, g.regs.pkm.zeroExtend 64)
  | .cget .space d a => some (d, BitVec.ofNat 64 (g.c a).space)
  | .cget .perm d a => some (d, BitVec.ofNat 64 (g.c a).perm)
  | .cget .id d a => some (d, BitVec.ofNat 64 (g.c a).id)
  | .cget .origin d a => some (d, BitVec.ofNat 64 (g.c a).origin)
  | .cget .length d a => some (d, BitVec.ofNat 64 (g.c a).length)
  | .cget .tag d a => some (d, if (g.c a).tag then 1 else 0)
  | .baget k d => some (d, (g.regs.ba[k.toFin]).zeroExtend 64)
  | _ => none

/-- The scalar immediates, LIL, LIH, GETMODE, GETFS, VOTE, PTOS, GETEXM, GETPKM, CGET and BAGET complete and write that value to
their S destination, whatever lanes are active; S0 discards it. -/
def Spec.scalarResults : Prop :=
  ∀ (s : State) (g : Gang) (i : Instr) (d : SReg) (x : DWord), Runs0 s g → Spec.sResult g i = some (d, x) →
    exec i s = .next (s.retires (g.setS d x))

/-- The sub-op of a V form, its registers, and its b element j of lane i for elements of w bits (08 R272, R274). -/
def Spec.vForm (g : Gang) : Instr → Option (AluOp × VReg × VReg × List VReg × (Fin 32 → Nat → Nat → Nat))
  | .vop op d a b => some (op, d, a, [d, a, b], fun i w j => (g.v b)[i].toNat / 2 ^ (w * j) % 2 ^ w)
  | .vops op d a b => some (op, d, a, [d, a], fun _ w _ => (g.s b).toNat % 2 ^ w)
  | .addImmV d a x => some (.add, d, a, [d, a], fun _ w _ => (x.signExtend 64).toNat % 2 ^ w)
  | .mulImmV d a x => some (.mul, d, a, [d, a], fun _ w _ => (x.signExtend 64).toNat % 2 ^ w)
  | .andImmV d a x => some (.and, d, a, [d, a], fun _ w _ => x.toNat % 2 ^ w)
  | .orImmV d a x => some (.or, d, a, [d, a], fun _ w _ => x.toNat % 2 ^ w)
  | .xorImmV d a x => some (.xor, d, a, [d, a], fun _ w _ => x.toNat % 2 ^ w)
  | .shlImmV d a x => some (.shl, d, a, [d, a], fun _ w _ => x.toNat % 2 ^ w)
  | .shrImmV d a x => some (.shr, d, a, [d, a], fun _ w _ => x.toNat % 2 ^ w)
  | .sraImmV d a x => some (.sra, d, a, [d, a], fun _ w _ => x.toNat % 2 ^ w)
  | _ => none

/-- VOP, VOPS and the V immediates complete wherever R252 accepts MODE.ETYPE: element j of an active lane of V[d] is the
sub-op's result on the elements j of its operands, saturated where MODE.SAT says so; the other lanes keep their values. Under
any other element type the word faults ILLEGAL, gang-wide (08 R251, R252, R272 to R274, 03 R83). -/
def Spec.vectorSubOpsByElement : Prop :=
  (∀ (s : State) (g : Gang) (i : Instr) (op : AluOp) (d a : VReg) (vs : List VReg) (f : Fin 32 → Nat → Nat → Nat) (t : IntTy),
    Spec.vForm g i = some (op, d, a, vs, f) → Runs s g .u (vs.map BitVec.toNat) → aluTy op (modeEtype g.regs.mode) = some t →
    ∃ r : Lanes Word, exec i s = .next (s.retires (g.setVAll d r)) ∧ ∀ n : Fin 32,
      (Mask.has g.active n = false → r[n] = (g.v d)[n]) ∧
      (Mask.has g.active n = true → ∀ j, j < 32 / t.width →
        r[n].toNat / 2 ^ (t.width * j) % 2 ^ t.width =
          aluElem op t (modeSat g.regs.mode) ((g.v a)[n].toNat / 2 ^ (t.width * j) % 2 ^ t.width) (f n t.width j) % 2 ^ t.width)) ∧
  (∀ (s : State) (g : Gang) (i : Instr) (op : AluOp) (d a : VReg) (vs : List VReg) (f : Fin 32 → Nat → Nat → Nat),
    Spec.vForm g i = some (op, d, a, vs, f) → Runs s g .u (vs.map BitVec.toNat) →
    (8 < modeEtype g.regs.mode ∨ (5 < modeEtype g.regs.mode ∧ bitwiseOp op = false)) →
    exec i s = .next (s.faults g (flt .illegal)))

/-- The corners of 03 R85 and R86, for every element type t of R82 and every pattern x of it: division by zero gives all ones
and the remainder by zero the dividend; the most negative value divided by -1 wraps to itself and clamps to the greatest; a left
shift by the width or more wraps to 0; a logical right shift by it gives 0, an arithmetic one the sign. -/
def Spec.integerCorners : Prop :=
  ∀ (e : Nat) (t : IntTy) (sat : Bool) (x c : Nat), etypeInt e = some t → x < 2 ^ t.width → t.width ≤ c → c < 2 ^ t.width → c < 256 →
    aluElem .div t sat x 0 = 2 ^ t.width - 1 ∧ aluElem .rem t sat x 0 = x ∧
    (t.signed = true → aluElem .div t false (2 ^ (t.width - 1)) (2 ^ t.width - 1) = 2 ^ (t.width - 1)) ∧
    (t.signed = true → aluElem .div t true (2 ^ (t.width - 1)) (2 ^ t.width - 1) = 2 ^ (t.width - 1) - 1) ∧
    aluElem .shl t false x c = 0 ∧ aluElem .shr t sat x c = 0 ∧
    aluElem .sra t sat x c = if 2 ^ (t.width - 1) ≤ x then 2 ^ t.width - 1 else 0

/-- A compare of two patterns, read signed or unsigned (07 R221, 08 R275). -/
def Spec.compares {n : Nat} (sg : Bool) (op : CmpOp) (a b : BitVec n) : Bool :=
  match op with
  | .eq => a == b
  | .ne => a != b
  | .lt => if sg then a.slt b else a.ult b
  | .le => if sg then a.sle b else a.ule b
  | .gt => if sg then b.slt a else b.ult a
  | .ge => if sg then b.sle a else b.ule a
  | .ltu => a.ult b
  | .leu => a.ule b
  | .gtu => b.ult a
  | .geu => b.ule a
  | .tst => a &&& b != 0

/-- VCMP and VCMPS complete under ETYPE 0, signed, and 1, unsigned, writing P[d] in the active lanes; SCMP completes under any
ETYPE and writes every lane (08 R251, R275). -/
def Spec.comparesWritePredicates : Prop :=
  ∀ (s : State) (g : Gang) (op : CmpOp) (d : PReg),
    (∀ a b : VReg, Runs s g .u [a.toNat, b.toNat] → op.vectorLegal = true → modeEtype g.regs.mode ≤ 1 →
      exec (.vcmp op d a b) s = .next (s.retires (g.setPLanes d
        (maskOf (fun n => Spec.compares (modeEtype g.regs.mode == 0) op (g.v a)[n] (g.v b)[n]))))) ∧
    (∀ (a : VReg) (b : SReg), Runs s g .u [a.toNat] → op.vectorLegal = true → modeEtype g.regs.mode ≤ 1 →
      exec (.vcmps op d a b) s = .next (s.retires (g.setPLanes d
        (maskOf (fun n => Spec.compares (modeEtype g.regs.mode == 0) op (g.v a)[n] ((g.s b).truncate 32)))))) ∧
    (∀ a b : SReg, Runs0 s g →
      exec (.scmp op d a b) s = .next (s.retires (g.setP d
        (if Spec.compares true op (g.s a) (g.s b) then BitVec.allOnes 32 else 0))))

/-- What a lane move writes in lane n (08 R276, R279, R280, R287). -/
def Spec.laneMove (g : Gang) : Instr → Option (VReg × List VReg × (Fin 32 → Word))
  | .sel d a b p => some (d, [d, a, b], fun n => if Mask.has (g.p p) n then (g.v a)[n] else (g.v b)[n])
  | .shfl d a b => some (d, [d, a, b], fun n => (g.v a)[laneAt ((g.v b)[n].toNat)])
  | .shflUp d a b => some (d, [d, a], fun n =>
      if (g.s b).toNat ≤ n.val then (g.v a)[laneAt (n.val - (g.s b).toNat)] else (g.v a)[n])
  | .shflDown d a b => some (d, [d, a], fun n =>
      if n.val + (g.s b).toNat < 32 then (g.v a)[laneAt (n.val + (g.s b).toNat)] else (g.v a)[n])
  | .shflXor d a b => some (d, [d, a], fun n => (g.v a)[laneAt (n.val ^^^ ((g.s b).toNat % 32))])
  | .shflBcast d a b => some (d, [d, a], fun _ => (g.v a)[laneAt ((g.s b).toNat)])
  | .stov d a b => some (d, [d], fun n => if n.val = (g.s b).toNat % 32 then (g.s a).truncate 32 else (g.v d)[n])
  | .laneid d => some (d, [d], fun n => BitVec.ofNat 32 n.val)
  | _ => none

/-- SEL, the SHFL family, STOV, LANEID and VTOS complete under any ETYPE but 13 and 14. The V moves write those words to the active
lanes of V[d], a source lane being read whether or not it is active; VTOS reads one lane whatever lanes are active (08 R251, R276,
R279, R280, R287). -/
def Spec.laneMoves : Prop :=
  ∀ (s : State) (g : Gang), modeEtype g.regs.mode ≠ 13 → modeEtype g.regs.mode ≠ 14 →
    (∀ (i : Instr) (d : VReg) (vs : List VReg) (f : Fin 32 → Word), Spec.laneMove g i = some (d, vs, f) →
      Runs s g .u (vs.map BitVec.toNat) → exec i s = .next (s.retires (g.setV d f))) ∧
    (∀ (d : SReg) (a : VReg) (b : SReg), Runs s g .u [a.toNat] →
      exec (.vtos d a b) s = .next (s.retires (g.setS d (((g.v a)[(g.s b).toNat % 32]'(Nat.mod_lt _ (by decide))).zeroExtend 64))))

/-- The fields of a word of form A (07 R206). -/
def Spec.formA (op d a b x : Nat) : Nat := op * 2 ^ 24 + d * 2 ^ 18 + a * 2 ^ 12 + b * 2 ^ 6 + x

/-- MAD, DOT2 and DOT4, opcode 0x2D with x 0 to 2, complete and saturate the exact sum once (08 R277). -/
def Obligations.MultiplyAddsSaturateOnce : Prop :=
  (∀ d a b : VReg, (encode (.mad d a b)).toNat = Spec.formA 0x2D d.toNat a.toNat b.toNat 0 ∧
    (encode (.dot2 d a b)).toNat = Spec.formA 0x2D d.toNat a.toNat b.toNat 1 ∧
    (encode (.dot4 d a b)).toNat = Spec.formA 0x2D d.toNat a.toNat b.toNat 2) ∧
  ∀ (s : State) (g : Gang) (d a b : VReg) (t : IntTy), Runs s g .u [d.toNat, a.toNat, b.toNat] →
    etypeInt (modeEtype g.regs.mode) = some t →
    (let e (r : VReg) (n : Fin 32) (j : Nat) : Int := t.read ((g.v r)[n].toNat / 2 ^ (t.width * j) % 2 ^ t.width)
     let acc : IntTy := ⟨32, t.signed⟩
     let sat := modeSat g.regs.mode
     (∃ r : Lanes Word, exec (.mad d a b) s = .next (s.retires (g.setVAll d r)) ∧ ∀ n : Fin 32,
       (Mask.has g.active n = false → r[n] = (g.v d)[n]) ∧
       (Mask.has g.active n = true → ∀ j, j < 32 / t.width →
         r[n].toNat / 2 ^ (t.width * j) % 2 ^ t.width = t.sat sat (e d n j + e a n j * e b n j))) ∧
     (t.width = 16 → exec (.dot2 d a b) s = .next (s.retires (g.setV d (fun n =>
       BitVec.ofNat 32 (acc.sat sat (acc.read ((g.v d)[n].toNat) + e a n 0 * e b n 0 + e a n 1 * e b n 1)))))) ∧
     (t.width = 8 → exec (.dot4 d a b) s = .next (s.retires (g.setV d (fun n =>
       BitVec.ofNat 32 (acc.sat sat (acc.read ((g.v d)[n].toNat) + e a n 0 * e b n 0 + e a n 1 * e b n 1 + e a n 2 * e b n 2 +
         e a n 3 * e b n 3)))))))

/-- Integer arithmetic: the scalar and vector sub-operations and their corners (07 R247, 08 R274 to R278). -/
def Obligations.IntegerArithmetic : Prop :=
  Spec.scalarSubOpsWrap ∧ Spec.vectorSubOpsByElement ∧ Spec.integerCorners

/-- Results of the other scalar words, and compares (08). -/
def Obligations.ScalarResultsAndCompares : Prop :=
  Spec.scalarResults ∧ Spec.comparesWritePredicates

/-! Reductions, predicates and masks (08 R281 to R286). -/

/-- Value of lane n of V[a], signed under ETYPE 0 and unsigned under 1. -/
def Spec.laneInt (g : Gang) (a : VReg) (n : Fin 32) : Int :=
  if modeEtype g.regs.mode = 0 then (g.v a)[n].toInt else ((g.v a)[n].toNat : Int)

/-- Least and greatest value of the 32-bit type of MODE.ETYPE 0 or 1. -/
def Spec.least (g : Gang) : Int := if modeEtype g.regs.mode = 0 then -2 ^ 31 else 0
def Spec.greatest (g : Gang) : Int := if modeEtype g.regs.mode = 0 then 2 ^ 31 - 1 else 2 ^ 32 - 1

/-- VRED and VSCAN complete. Integer kinds, under ETYPE 0 and 1: add gives the exact sum over the active lanes; min and max the
extreme value, and the other end of the type when no lane is active; and, or and xor fold the patterns; a prefix saturates the exact
sum once. Float kinds, under ETYPE 6, in ascending lane order: VRED writes the last accumulator, with no active lane +0 or the
canonical NaN with no flag, VSCAN writes each lane's (08 R281, R282). -/
def Spec.reductionsAndPrefixes : Prop :=
  (∀ (s : State) (g : Gang) (d : SReg) (a : VReg), Runs s g .u [a.toNat] → modeEtype g.regs.mode ≤ 1 →
      (let ns := Mask.lanes g.active
       let done (k : VredKind) (x : DWord) : Prop := exec (.vred k d a) s = .next (s.retires (g.setS d x))
       done .add (BitVec.ofInt 64 (ns.map (Spec.laneInt g a)).sum) ∧
       done .min (BitVec.ofInt 64 ((ns.map (Spec.laneInt g a)).foldl min (Spec.greatest g))) ∧
       done .max (BitVec.ofInt 64 ((ns.map (Spec.laneInt g a)).foldl max (Spec.least g))) ∧
       done .and ((ns.foldl (fun x n => x &&& (g.v a)[n]) (BitVec.allOnes 32)).zeroExtend 64) ∧
       done .or ((ns.foldl (fun x n => x ||| (g.v a)[n]) (0 : Word)).zeroExtend 64) ∧
       done .xor ((ns.foldl (fun x n => x ^^^ (g.v a)[n]) (0 : Word)).zeroExtend 64))) ∧
  (∀ (s : State) (g : Gang) (d a : VReg), Runs s g .u [d.toNat, a.toNat] → modeEtype g.regs.mode ≤ 1 →
      (let t : IntTy := ⟨32, modeEtype g.regs.mode == 0⟩
       let below (n : Fin 32) : List Int := ((Mask.lanes g.active).filter (fun j => decide (j < n))).map (Spec.laneInt g a)
       let own (n : Fin 32) : Int := Spec.laneInt g a n
       let done (k : VscanKind) (f : Fin 32 → Nat) : Prop :=
         exec (.vscan k d a) s = .next (s.retires (g.setV d (fun n => BitVec.ofNat 32 (f n))))
       done .add (fun n => t.sat (modeSat g.regs.mode) ((below n).sum + own n)) ∧
       done .addx (fun n => t.sat (modeSat g.regs.mode) (below n).sum) ∧
       done .min (fun n => t.wrap ((below n).foldl min (own n))) ∧
       done .max (fun n => t.wrap ((below n).foldl max (own n))))) ∧
  (∀ (s : State) (g : Gang) (a : VReg), modeEtype g.regs.mode = 6 →
      (∀ (d : SReg) (k : VredKind), Runs s g .u [a.toNat] → VredKind.float k = true →
        (g.active = 0 → exec (.vred k d a) s = .next (s.retires (g.setS d (if k = .fadd then 0 else 0x7FC00000)))) ∧
        (∀ x l, (g.vredFloat k a).1 = l ++ [x] →
          exec (.vred k d a) s = .next (s.retires ((g.vredFloat k a).2.setS d (BitVec.ofNat 64 x.2))))) ∧
      (∀ d : VReg, Runs s g .u [d.toNat, a.toNat] →
        ∃ r : Lanes Word, exec (.vscan .fadd d a) s = .next (s.retires ((g.vredFloat .fadd a).2.setVAll d r)) ∧
          (∀ n, Mask.has g.active n = false → r[n] = (g.v d)[n]) ∧
          ∀ x ∈ (g.vredFloat .fadd a).1, r[x.1] = BitVec.ofNat 32 x.2))

/-- PLOG, opcode 0x45 with x 0 to 5, combines predicates in the active lanes; PTOS and PFROMS, opcode 0x46, move the mask of a
predicate over all lanes to an S register and the low half of one to every lane of P[d], whatever EXM holds; P0 discards the writes (08 R284, R285). SETEXM and ANDEXM write EXM under R27, which keeps the lanes of PKM out, and leave the mask stack alone (08 R260, R286). -/
def Spec.predicateAndMaskWrites : Prop :=
  (∀ d a b : PReg, ∀ x ∈ [(PlogOp.pand, 0), (.por, 1), (.pxor, 2), (.pandn, 3), (.pnot, 4), (.pmov, 5)],
      (encode (.plog x.1 d a b)).toNat = Spec.formA 0x45 d.toNat a.toNat b.toNat x.2 ∧
      (x.2 = 4 ∨ x.2 = 5 → ∀ w, decode w = some (.plog x.1 d a b) → a = 0)) ∧
  (∀ (d : SReg) (a : PReg), (encode (.ptos d a)).toNat = Spec.formA 0x46 d.toNat a.toNat 0 0 ∧
      (encode (.pfroms a d)).toNat = Spec.formA 0x46 a.toNat d.toNat 0 1) ∧
  (∀ (s : State) (g : Gang) (d : SReg) (a : PReg), Runs0 s g →
      exec (.ptos d a) s = .next (s.retires (g.setS d ((g.p a).zeroExtend 64)))) ∧
  (∀ (s : State) (g : Gang) (d a b : PReg) (x : SReg), Runs0 s g →
      exec (.plog .pand d a b) s = .next (s.retires (g.setPLanes d (g.p a &&& g.p b))) ∧
      exec (.plog .por d a b) s = .next (s.retires (g.setPLanes d (g.p a ||| g.p b))) ∧
      exec (.plog .pxor d a b) s = .next (s.retires (g.setPLanes d (g.p a ^^^ g.p b))) ∧
      exec (.plog .pandn d a b) s = .next (s.retires (g.setPLanes d (g.p a &&& ~~~ g.p b))) ∧
      exec (.plog .pnot d a b) s = .next (s.retires (g.setPLanes d (~~~ g.p b))) ∧
      exec (.plog .pmov d a b) s = .next (s.retires (g.setPLanes d (g.p b))) ∧
      exec (.pfroms d x) s = .next (s.retires (g.setP d ((g.s x).truncate 32)))) ∧
  (∀ (s : State) (g : Gang) (a : SReg) (b : PReg), Runs0 s g →
      exec (.setexm a) s = .next (s.retires { g with regs := { g.regs with exm := (g.s a).truncate 32 &&& ~~~ g.regs.pkm } }) ∧
      exec (.andexm b) s = .next (s.retires { g with regs := { g.regs with exm := g.regs.exm &&& g.p b &&& ~~~ g.regs.pkm } }))

/-! Mode and flags (08 R264 to R266). -/

/-- MODE values that R24 reserves nothing of: bits above 21, SCOPE 6 and 7, RND 6 and 7, ETYPE 9, 15 and 31. -/
abbrev Spec.modeOk (m : Word) : Prop :=
  m.toNat < 2 ^ 22 ∧ m.toNat / 2 ^ 14 % 8 < 6 ∧ m.toNat / 2 ^ 8 % 8 < 6 ∧ m.toNat / 8 % 32 ≠ 9 ∧ m.toNat / 8 % 32 ≠ 15 ∧
    m.toNat / 8 % 32 ≠ 31

/-- Code order of R217 with each field's lowest bit and width (01 R24, 08 R265). -/
def Spec.modeField : ModeField → Nat × Nat
  | .guard => (0, 3) | .etype => (3, 5) | .rnd => (8, 3) | .ftz => (11, 1)
  | .sat => (12, 1) | .oosz => (13, 1) | .scope => (14, 3) | .kresume => (17, 5)

/-- SETMODE writes MODE := S[A][31:0]; with S[A][63:32] nonzero or a field that R24 reserves it faults MODE_RESERVED with MODE
unchanged (08 R264). SETMF writes one field, every other bit standing; a value of 2^width or more, or one that R24 reserves, faults
MODE_RESERVED (R265). SETFS writes FSTAT := S[A][4:0]; a nonzero S[A][63:5] faults MODE_RESERVED with FSTAT unchanged (R266). -/
def Spec.modeAndFlagWrites : Prop :=
  (∀ (s : State) (g : Gang) (a : SReg), Runs0 s g →
      ((g.s a).toNat < 2 ^ 32 ∧ Spec.modeOk ((g.s a).truncate 32) →
        exec (.setmode a) s = .next (s.retires { g with regs := { g.regs with mode := (g.s a).truncate 32 } })) ∧
      (¬ ((g.s a).toNat < 2 ^ 32 ∧ Spec.modeOk ((g.s a).truncate 32)) →
        exec (.setmode a) s = .next (s.faults g (flt .modeReserved)))) ∧
  (∀ (s : State) (g : Gang) (f : ModeField) (v : BitVec 12), Runs0 s g → Spec.modeOk g.regs.mode →
      (let lo := (Spec.modeField f).1
       let w := (Spec.modeField f).2
       let bad := 2 ^ w ≤ v.toNat ∨ (f = .etype ∧ (v = 9 ∨ v = 15 ∨ v = 31)) ∨ (f = .rnd ∧ 5 < v.toNat) ∨ (f = .scope ∧ 5 < v.toNat)
       (bad → exec (.setmf f v) s = .next (s.faults g (flt .modeReserved))) ∧
       (¬ bad → ∃ m : Word, exec (.setmf f v) s = .next (s.retires { g with regs := { g.regs with mode := m } }) ∧
         m.toNat / 2 ^ lo % 2 ^ w = v.toNat ∧
         ∀ n, n < 32 → (n < lo ∨ lo + w ≤ n) → m.getLsbD n = g.regs.mode.getLsbD n))) ∧
  (∀ (s : State) (g : Gang) (a : SReg), Runs0 s g →
      ((g.s a).toNat < 32 →
        exec (.setfs a) s = .next (s.retires { g with regs := { g.regs with fstat := (g.s a).truncate 5 } })) ∧
      (32 ≤ (g.s a).toNat → exec (.setfs a) s = .next (s.faults g (flt .modeReserved))))

/-! Floating point (08 R288 to R293). -/

/-- The format of MODE.ETYPE for a float sub-op, where R252 accepts it. -/
def Spec.fpTakes (op : FopOp) (e : Nat) : Option Fmt :=
  if e = 6 then some f32 else if (op = .fexp2 ∨ op = .flog2) then none
  else if e = 7 then some f16 else if e = 8 then some bf16 else none

/-- The float instructions complete wherever R252 accepts MODE.ETYPE. FOP, FOPS and the V FMA family work element by element in
ascending order; only the active lanes of V[d] and of LFSR change, and flags are ORed into FSTAT (08 R251, R288, R289). SFOP and the
S forms of FMA and FCVT read the low bits of S registers, step lane 0's LFSR alone and raise flags whatever lanes are active (R290,
R293). FCMP writes active lanes of P[d] and ORs the flags of the active lanes; FCLASS raises no flag; the V form of FCVT takes any
ETYPE but 13 and 14 (R291 to R293). -/
def Spec.floatInstructionsComplete : Prop :=
  (∀ (s : State) (g : Gang) (d a : VReg) (f : Fmt),
      (let e (r : VReg) (n : Fin 32) (j : Nat) : Nat := (g.v r)[n].toNat / 2 ^ (f.width * j) % 2 ^ f.width
       let at_ (b : SReg) : Nat := (g.s b).toNat % 2 ^ f.width
       let runs (vs : List VReg) : Prop := Runs s g .u (vs.map BitVec.toNat)
       let out (h : Fin 32 → Nat → FpSt → Nat × FpSt) : Host.Outcome State Fault Refusal :=
         .next (s.retires (g.setFp d (fun n => fpLane f.width (h n))))
       (∀ op b, runs [d, a, b] → Spec.fpTakes op (modeEtype g.regs.mode) = some f →
         exec (.fop op d a b) s = out (fun n j => fopElem op f g.fpCfg (e a n j) (e b n j))) ∧
       (∀ op b, runs [d, a] → Spec.fpTakes op (modeEtype g.regs.mode) = some f →
         exec (.fops op d a b) s = out (fun n j => fopElem op f g.fpCfg (e a n j) (at_ b))) ∧
       (∀ op b, runs [d, a, b] → Spec.fpTakes .fadd (modeEtype g.regs.mode) = some f →
         exec (.fma op d a b) s = out (fun n j => fmaElem op f g.fpCfg (e a n j) (e b n j) (e d n j))) ∧
       (∀ op b, runs [d, a] → Spec.fpTakes .fadd (modeEtype g.regs.mode) = some f →
         exec (.fmaVs op d a b) s = out (fun n j => fmaElem op f g.fpCfg (e a n j) (at_ b) (e d n j))))) ∧
  (∀ (s : State) (g : Gang) (d a b : SReg), Runs0 s g →
      (let lo (r : SReg) : Nat := (g.s r).toNat % 2 ^ 32
       let out (h : FpSt → Nat × FpSt) (place : Nat → Nat) : Host.Outcome State Fault Refusal :=
         let x := h ⟨g.regs.lfsr[0], 0⟩
         .next (s.retires (({ g with regs := { g.regs with
           fstat := g.regs.fstat ||| x.2.flags, lfsr := g.regs.lfsr.set 0 x.2.lfsr } } : Gang).setS d (BitVec.ofNat 64 (place x.1))))
       (∀ op, exec (.sfop op d a b) s = out (fopElem op f32 g.fpCfg (lo a) (lo b)) id) ∧
       (∀ op, exec (.fmaS op d a b) s = out (fmaElem op f32 g.fpCfg (lo a) (lo b) (lo d)) id) ∧
       (∀ t u, exec (.fcvtS t u d a) s =
         out (fcvtElem t u g.fpCfg (modeSat g.regs.mode) (g.s a).toNat) (placeResult t 64)))) ∧
  (∀ (s : State) (g : Gang),
      (let cmp (op : FcmpOp) (d : PReg) (a : VReg) (b : Fin 32 → Nat) : Host.Outcome State Fault Refusal :=
         let r (n : Fin 32) := fpCompare op g.fpCfg (g.v a)[n].toNat (b n) ⟨0, 0⟩
         .next (s.retires ((g.setPLanes d (maskOf (fun n => (r n).1))).raise
           ((Mask.lanes g.active).foldl (fun k n => k ||| (r n).2.flags) 0)))
       (∀ op d a b, Runs s g .u [a.toNat, b.toNat] → modeEtype g.regs.mode = 6 →
         exec (.fcmp op d a b) s = cmp op d a (fun n => (g.v b)[n].toNat)) ∧
       (∀ op d a b, Runs s g .u [a.toNat] → modeEtype g.regs.mode = 6 →
         exec (.fcmpS op d a b) s = cmp op d a (fun _ => (g.s b).toNat % 2 ^ 32)) ∧
       (∀ d b, Runs s g .u [d.toNat, b.toNat] → modeEtype g.regs.mode = 6 →
         exec (.fclass d b) s = .next (s.retires (g.setV d (fun n => BitVec.ofNat 32 (fclassBits (g.v b)[n].toNat))))) ∧
       (∀ t u d a, Runs s g .u [d.toNat, a.toNat] → modeEtype g.regs.mode ≠ 13 → modeEtype g.regs.mode ≠ 14 →
         exec (.fcvt t u d a) s = .next (s.retires (g.setFp d (fun n st =>
           let x := fcvtElem t u g.fpCfg (modeSat g.regs.mode) (g.v a)[n].toNat st
           (BitVec.ofNat 32 (placeResult t 32 x.1), x.2)))))))

/-- The sign sub-ops act on the sign bit alone, raise no flag and step no LFSR, for each format and every pattern: fneg inverts it,
fabs clears it, fcpys copies that of b (08 R288, 03 R97). FCLASS sets exactly one of its ten bits, by sign, exponent field and
fraction (R292). -/
def Spec.signOpsAndClasses : Prop :=
  (∀ d b : VReg, (encode (.fclass d b)).toNat = Spec.formA 0x58 d.toNat 0 b.toNat 0) ∧
  (∀ (f : Fmt) (c : FpCfg) (a b : Nat) (t : FpSt), f ∈ [f32, f16, bf16] → a < 2 ^ f.width → b < 2 ^ f.width →
      (let h := 2 ^ (f.width - 1)
       fopElem .fneg f c a b t = (b % h + (if b < h then h else 0), t) ∧
       fopElem .fabs f c a b t = (b % h, t) ∧
       fopElem .fcpys f c a b t = (a % h + (if b < h then 0 else h), t))) ∧
  (∀ x : Nat, x < 2 ^ 32 →
      (let neg := 2 ^ 31 ≤ x
       let ex := x / 2 ^ 23 % 256
       let fr := x % 2 ^ 23
       fclassBits x =
         if ex = 255 then (if fr = 0 then (if neg then 1 else 128) else if fr < 2 ^ 22 then 256 else 512)
         else if ex = 0 then (if fr = 0 then (if neg then 8 else 16) else if neg then 4 else 32)
         else if neg then 2 else 64))

/-! The numbers that patterns stand for, and rounding, over the reals (03 R87 to R93). -/

/-- A pattern of a format that is finite stands for v; with FTZ a subnormal input is a zero (03 R87, R89). -/
def Spec.isNum (f : Fmt) (ftz : Bool) (x : Nat) (v : ℝ) : Prop :=
  let e := x / 2 ^ f.fbits % 2 ^ f.ebits
  let m := x % 2 ^ f.fbits
  ¬ (f.kind = .ieee ∧ e = 2 ^ f.ebits - 1) ∧ ¬ (f.kind = .e4m3 ∧ e = 15 ∧ m = 7) ∧
  v = (if x / 2 ^ (f.ebits + f.fbits) % 2 = 1 then -1 else 1) *
    (if e = 0 then (if ftz then 0 else (m : ℝ) * 2 ^ (1 - f.bias - f.fbits : ℤ))
     else (2 ^ f.fbits + m : ℝ) * 2 ^ (e - f.bias - f.fbits : ℤ))

/-- A pattern of a format is a NaN; a signalling one (03 R87, R88). -/
abbrev Spec.isNan (f : Fmt) (x : Nat) : Prop :=
  (f.kind = .ieee ∧ x / 2 ^ f.fbits % 2 ^ f.ebits = 2 ^ f.ebits - 1 ∧ x % 2 ^ f.fbits ≠ 0) ∨ (f.kind = .e4m3 ∧ x % 128 = 127)
abbrev Spec.isSnan (f : Fmt) (x : Nat) : Prop := f.kind = .ieee ∧ Spec.isNan f x ∧ x / 2 ^ (f.fbits - 1) % 2 = 0

/-- A pattern of a format is an infinity (03 R87). -/
abbrev Spec.isInf (f : Fmt) (x : Nat) : Prop :=
  f.kind = .ieee ∧ x / 2 ^ f.fbits % 2 ^ f.ebits = 2 ^ f.ebits - 1 ∧ x % 2 ^ f.fbits = 0

/-- The canonical NaN (03 R88), and what a NaN becomes in e2m1 (R98). -/
def Spec.nan (f : Fmt) : Nat :=
  match f.kind with
  | .ieee => if f = f32 then 0x7FC00000 else if f = f16 then 0x7E00 else if f = bf16 then 0x7FC0 else 0x7E
  | .e4m3 => 0x7F
  | .e2m1 => 0

/-- Whether a magnitude of q units goes up to the next whole number of them, in each mode of 03 R90; g the random bits of R92. -/
def Spec.goesUp (rnd : Nat) (neg : Bool) (q : ℝ) (g : Nat) : Prop :=
  match rnd with
  | 0 => 1 / 2 < Int.fract q ∨ (Int.fract q = 1 / 2 ∧ ⌊q⌋ % 2 = 1)
  | 1 => False
  | 2 => neg = true ∧ Int.fract q ≠ 0
  | 3 => neg = false ∧ Int.fract q ≠ 0
  | 4 => 1 / 2 ≤ Int.fract q
  | _ => 2 ^ 24 ≤ ⌊Int.fract q * 2 ^ 24⌋ + (g : ℤ)

/-- The state after a rounding: the LFSR steps under SR (03 R93), and NX, UF and OF are raised as given (R94). -/
def Spec.raises (c : FpCfg) (t t' : FpSt) (nx uf ovf : Prop) : Prop :=
  t'.lfsr = (if c.rnd = 5 then lfsrStep t.lfsr else t.lfsr) ∧ ∃ k : BitVec 5, t'.flags = t.flags ||| k ∧
    (k.getLsbD 4 = true ↔ nx) ∧ (k.getLsbD 3 = true ↔ uf) ∧ (k.getLsbD 2 = true ↔ ovf) ∧ k.getLsbD 1 = false ∧ k.getLsbD 0 = false

/-- r is the exact value x rounded into a format, zero with the sign z: a tiny value under FTZ is a zero that raises UF and NX (03 R89);
else the magnitude in units of the format's spacing at x is rounded in the mode (R90, R92), raises UF when tiny and inexact (R95), and
beyond the largest finite value overflows to infinity or to that value (R91). -/
def Spec.rounded (f : Fmt) (c : FpCfg) (x : ℝ) (z : Bool) (t : FpSt) (r : Nat × FpSt) : Prop :=
  let top : Nat := 2 ^ (f.ebits + f.fbits)
  let emin : ℤ := 1 - f.bias
  let largest : ℝ := match f.kind with
    | .ieee => (2 - 2 ^ (-f.fbits : ℤ)) * 2 ^ f.bias
    | .e4m3 => 448
    | .e2m1 => 6
  (x = 0 → r.1 = (if z then top else 0) ∧ Spec.raises c t r.2 False False False) ∧
  (x ≠ 0 → ∀ (neg : Bool) (k n : ℤ), (neg = true ↔ x < 0) → (2 : ℝ) ^ k ≤ |x| → |x| < 2 ^ (k + 1) →
    (let u : ℝ := 2 ^ (max k emin - f.fbits)
     let q : ℝ := |x| / u
     let up : Prop := Spec.goesUp c.rnd neg q (r.2.lfsr.toNat % 2 ^ 24)
     (c.ftz = true → k < emin → r.1 = (if neg then top else 0) ∧ Spec.raises c t r.2 True True False) ∧
     (c.ftz = false ∨ emin ≤ k → (up → n = ⌊q⌋ + 1) → (¬ up → n = ⌊q⌋) →
       ((n : ℝ) * u ≤ largest → Spec.isNum f false r.1 ((if neg then -1 else 1) * (n * u)) ∧ r.1 / top = (if neg then 1 else 0) ∧
         Spec.raises c t r.2 ((n : ℝ) * u ≠ |x|) (k < emin ∧ (n : ℝ) * u ≠ |x|) False) ∧
       (largest < (n : ℝ) * u → Spec.raises c t r.2 True False True ∧ r.1 = (if neg then top else 0) +
         (if f.kind = .ieee ∧ (c.rnd = 0 ∨ 4 ≤ c.rnd ∨ (c.rnd = 2 ∧ neg = true) ∨ (c.rnd = 3 ∧ neg = false))
          then (2 ^ f.ebits - 1) * 2 ^ f.fbits
          else match f.kind with
            | .ieee => (2 ^ f.ebits - 1) * 2 ^ f.fbits - 1
            | .e4m3 => 0x7E
            | .e2m1 => 7)))))

/-- Float arithmetic, for f32, f16 and bf16 in every mode of R90 (03 R90 to R97): sum, difference, product, quotient, square root and
the FMA family round the exact value once; an exact zero takes its sign by R97; min, max and compares order the values; a division by
zero raises DZ; NaN inputs and the invalid cases give the canonical NaN. -/
def Spec.floatArithmeticRounds : Prop :=
  ∀ (f : Fmt) (c : FpCfg) (t : FpSt) (a b d : Nat), f ∈ [f32, f16, bf16] → c.rnd ≤ 5 → a < 2 ^ f.width → b < 2 ^ f.width → d < 2 ^ f.width →
    (let sg (p : Nat) : Bool := decide (2 ^ (f.width - 1) ≤ p)
     let zero (p q : Bool) : Bool := if p = q then p else c.rnd == 2
     let inf (p : Bool) : Nat := (if p then 2 ^ (f.width - 1) else 0) + (2 ^ f.ebits - 1) * 2 ^ f.fbits
     let invalid : Nat × FpSt := (Spec.nan f, { t with flags := t.flags ||| 1 })
     let at_ (op : FopOp) (x : ℝ) (z : Bool) : Prop := Spec.rounded f c x z t (fopElem op f c a b t)
     (∀ x y : ℝ, Spec.isNum f c.ftz a x → Spec.isNum f c.ftz b y →
       at_ .fadd (x + y) (zero (sg a) (sg b)) ∧ at_ .fsub (x - y) (zero (sg a) (!sg b)) ∧ at_ .fmul (x * y) (sg a != sg b) ∧
       (y ≠ 0 → at_ .fdiv (x / y) (sg a != sg b)) ∧
       (y = 0 → x ≠ 0 → fopElem .fdiv f c a b t = (inf (sg a != sg b), { t with flags := t.flags ||| 2 })) ∧
       (y = 0 → x = 0 → fopElem .fdiv f c a b t = invalid) ∧
       (0 ≤ y → at_ .fsqrt (Real.sqrt y) (sg b)) ∧ (y < 0 → fopElem .fsqrt f c a b t = invalid) ∧
       Spec.isNum f c.ftz (fopElem .fmin f c a b t).1 (min x y) ∧ (fopElem .fmin f c a b t).2 = t ∧
       Spec.isNum f c.ftz (fopElem .fmax f c a b t).1 (max x y) ∧ (fopElem .fmax f c a b t).2 = t ∧
       (f = f32 → (∀ op, (fpCompare op c a b t).2 = t) ∧ ((fpCompare .feq c a b t).1 = true ↔ x = y) ∧
         ((fpCompare .fne c a b t).1 = true ↔ x ≠ y) ∧ ((fpCompare .flt c a b t).1 = true ↔ x < y) ∧
         ((fpCompare .fle c a b t).1 = true ↔ x ≤ y) ∧ ((fpCompare .fgt c a b t).1 = true ↔ y < x) ∧
         ((fpCompare .fge c a b t).1 = true ↔ y ≤ x)) ∧
       ∀ z : ℝ, Spec.isNum f c.ftz d z →
         (let fused (op : FmaOp) (v : ℝ) (s : Bool) : Prop := Spec.rounded f c v s t (fmaElem op f c a b d t)
          let p : Bool := sg a != sg b
          fused .fma (x * y + z) (zero p (sg d)) ∧ fused .fms (x * y - z) (zero p (!sg d)) ∧
          fused .fnma (-(x * y) + z) (zero (!p) (sg d)) ∧ fused .fnms (-(x * y) - z) (zero (!p) (!sg d)))) ∧
     (∀ op, op ∈ [FopOp.fadd, .fsub, .fmul, .fdiv] → Spec.isNan f a ∨ Spec.isNan f b →
       fopElem op f c a b t = (Spec.nan f, if Spec.isSnan f a ∨ Spec.isSnan f b then { t with flags := t.flags ||| 1 } else t)) ∧
     (Spec.isInf f a → Spec.isInf f b → fopElem .fadd f c a b t = if sg a = sg b then (inf (sg a), t) else invalid) ∧
     (Spec.isInf f a → Spec.isNum f c.ftz b 0 → fopElem .fmul f c a b t = invalid))

/-- The float types of FCVT, and its integer types by width and sign (07 R224). -/
def Spec.cvtFloat : CvtTy → Option Fmt
  | .f32 => some f32 | .f16 => some f16 | .bf16 => some bf16 | .e4m3 => some e4m3 | .e5m2 => some e5m2 | .e2m1 => some e2m1
  | _ => none
def Spec.cvtInt : CvtTy → Option (Nat × Bool)
  | .i32 => some (32, true) | .n32 => some (32, false) | .i16 => some (16, true) | .n16 => some (16, false)
  | .i8 => some (8, true) | .n8 => some (8, false) | .i64 => some (64, true) | .n64 => some (64, false) | _ => none

/-- FCVT of one value (03 R98): between floats rounded into the target, exactly and as no rounding to a wider one; an integer rounded
into a float; a float rounded onto the integers, and the nearer end of the type with NV outside it; between integers modulo 2^w or, with
SAT, clamped (R85). -/
def Spec.conversionsRound : Prop :=
  ∀ (tt st : CvtTy) (c : FpCfg) (sat : Bool) (p : Nat) (t : FpSt), c.rnd ≤ 5 →
    (let r := fcvtElem tt st c sat p t
     let least (w : Nat) (s : Bool) : Int := if s then -2 ^ (w - 1) else 0
     let most (w : Nat) (s : Bool) : Int := if s then 2 ^ (w - 1) - 1 else 2 ^ w - 1
     let read (w : Nat) (s : Bool) : Int := if s then signed w p else ((p % 2 ^ w : Nat) : Int)
     let pat (w : Nat) (v : Int) : Nat := (v % 2 ^ w).toNat
     let nv : FpSt := { t with flags := t.flags ||| 1 }
     (∀ f h, Spec.cvtFloat st = some f → Spec.cvtFloat tt = some h →
       (∀ x, Spec.isNum f c.ftz p x →
         Spec.rounded h ⟨if f.width < h.width then 0 else c.rnd, c.ftz⟩ x (p / 2 ^ (f.ebits + f.fbits) % 2 == 1) t r) ∧
       (Spec.isNan f p → r = (Spec.nan h, if Spec.isSnan f p ∨ h = e2m1 then nv else t))) ∧
     (∀ w s h, Spec.cvtInt st = some (w, s) → Spec.cvtFloat tt = some h → Spec.rounded h c (read w s : ℝ) false t r) ∧
     (∀ f w s, Spec.cvtFloat st = some f → Spec.cvtInt tt = some (w, s) →
       (Spec.isNan f p → r = (0, nv)) ∧
       (∀ x, Spec.isNum f c.ftz p x → ∀ (neg : Bool) (n v : ℤ), (neg = true ↔ x < 0) →
         (let up : Prop := Spec.goesUp c.rnd neg |x| (r.2.lfsr.toNat % 2 ^ 24)
          (up → n = ⌊|x|⌋ + 1) → (¬ up → n = ⌊|x|⌋) → v = (if neg then -n else n) →
          (least w s ≤ v → v ≤ most w s → r.1 = pat w v ∧ Spec.raises c t r.2 ((n : ℝ) ≠ |x|) False False) ∧
          (v < least w s → r.1 = pat w (least w s) ∧ r.2.flags = t.flags ||| 1) ∧
          (most w s < v → r.1 = pat w (most w s) ∧ r.2.flags = t.flags ||| 1)))) ∧
     (∀ v s w z, Spec.cvtInt st = some (v, s) → Spec.cvtInt tt = some (w, z) →
       r = (pat w (if sat then max (least w z) (min (most w z) (read v s)) else read v s), t)))

/-- The float accumulators of VRED and VSCAN (08 R281): one for each active lane, in ascending order; the first is the lowest lane's
value, read under FTZ, or the canonical NaN; each further one is the result of the kind's operation, as R90 to R97 round it, on the one
before and the lane's value, with that lane's LFSR. -/
def Spec.floatAccumulators : Prop :=
  ∀ (g : Gang) (a : VReg) (k : VredKind) (op : FopOp), (k, op) ∈ [(VredKind.fadd, FopOp.fadd), (.fmin, .fmin), (.fmax, .fmax)] →
    (let l := (g.vredFloat k a).1
     let x (n : Fin 32) : Nat := (g.v a)[n].toNat
     l.map Prod.fst = Mask.lanes g.active ∧
     (∀ n v rest, l = (n, v) :: rest → (Spec.isNan f32 (x n) → v = 0x7FC00000) ∧
       (∀ y : ℝ, Spec.isNum f32 (modeFtz g.regs.mode) (x n) y → Spec.isNum f32 false v y) ∧ (Spec.isInf f32 (x n) → v = x n)) ∧
     (∀ before n v m w rest, l = before ++ (n, v) :: (m, w) :: rest →
       (fopElem op f32 g.fpCfg v (x m) ⟨g.regs.lfsr[m], 0⟩).1 = w))

/-- Moves between lanes, reductions and prefixes (08). -/
def Obligations.LanesMoveAndReduce : Prop :=
  Spec.laneMoves ∧ Spec.reductionsAndPrefixes ∧ Spec.floatAccumulators

/-- Predicates, masks, MODE and FSTAT (08). -/
def Obligations.StatusWrites : Prop :=
  Spec.predicateAndMaskWrites ∧ Spec.modeAndFlagWrites

/-- Floating point (03, 08): which values the instructions write, and what those values are against exact reals. -/
def Obligations.FloatingPoint : Prop :=
  Spec.floatInstructionsComplete ∧ Spec.signOpsAndClasses ∧ Spec.floatArithmeticRounds ∧ Spec.conversionsRound

/-! Control (08 R253 to R263). -/

/-- T(i) of R254. -/
abbrev Spec.test (g : Gang) (c : Cond) (n : Fin 32) : Prop := Mask.has (g.p c.pred) n ≠ c.neg

/-- The lanes where T holds. -/
def Spec.testMask (g : Gang) (c : Cond) : Mask := if c.neg then ~~~ g.p c.pred else g.p c.pred

/-- A conditional branch and when it is taken (08 R254). -/
def Spec.branch (g : Gang) : Instr → Option (BitVec 20 × Prop)
  | .br c off => some (off, Spec.test g c 0)
  | .brany c off => some (off, ∃ n, Mask.has g.active n = true ∧ Spec.test g c n)
  | .brall c off => some (off, ∀ n, Mask.has g.active n = true → Spec.test g c n)
  | .brnone c off => some (off, ∀ n, Mask.has g.active n = true → ¬ Spec.test g c n)
  | _ => none

/-- The conditional branches complete: a branch that is taken goes to its target, any other to the next word; a subscriber
evaluates nothing and goes on with its stream (08 R254, R256). -/
def Spec.branchesTakeTheirTest : Prop :=
  ∀ (s : State) (g : Gang) (i : Instr) (off : BitVec 20) (p : Prop), Runs0 s g → Spec.branch g i = some (off, p) →
    (s.cur.stream = none → p → ∃ pc, exec i s = .next (s.jumps g pc) ∧
      bits pc 63 40 = bits g.regs.pc 63 40 ∧
      (bits pc 39 0 : Int) = ((bits g.regs.pc 39 0 : Int) + 4 * off.toInt) % 2 ^ 40) ∧
    (s.cur.stream = none → ¬ p → exec i s = .next (s.retires g)) ∧
    (s.cur.stream ≠ none → exec i s = .next (s.retires g))

/-- CALL, JMP, CALLR and RET complete outside a stream: CALL and CALLR leave the next word's address in S31; an indirect target
with a nonzero bit in [1:0] faults MISALIGNED with no effect; CALLR reads its target before it writes S31 (08 R255). In a subscriber
CALL and CALLR write S31 with the packet's PC + 4 and nothing jumps (R256). -/
def Spec.callsAndJumps : Prop :=
  (∀ (s : State) (g : Gang) (a : SReg) (off : BitVec 20), Runs0 s g → s.cur.stream = none →
      (∃ pc, exec (.call off) s = .next (s.jumps (g.setS 31 (g.regs.pc + 4)) pc) ∧ bits pc 63 40 = bits g.regs.pc 63 40 ∧
        (bits pc 39 0 : Int) = ((bits g.regs.pc 39 0 : Int) + 4 * off.toInt) % 2 ^ 40) ∧
      ((g.s a).toNat % 4 = 0 → exec (.jmp a) s = .next (s.jumps g (g.s a)) ∧
        exec (.callr a) s = .next (s.jumps (g.setS 31 (g.regs.pc + 4)) (g.s a))) ∧
      ((g.s a).toNat % 4 ≠ 0 → exec (.jmp a) s = .next (s.faults g (flt .misaligned)) ∧
        exec (.callr a) s = .next (s.faults g (flt .misaligned))) ∧
      ((g.s 31).toNat % 4 = 0 → exec .ret s = .next (s.jumps g (g.s 31))) ∧
      ((g.s 31).toNat % 4 ≠ 0 → exec .ret s = .next (s.faults g (flt .misaligned)))) ∧
  (∀ (s : State) (g : Gang) (a : SReg) (off : BitVec 20), Runs0 s g → s.cur.stream ≠ none →
      exec (.call off) s = .next (s.retires (g.setS 31 (g.regs.pc + 4))) ∧
      exec (.callr a) s = .next (s.retires (g.setS 31 (g.regs.pc + 4))) ∧
      exec (.jmp a) s = .next (s.retires g) ∧ exec .ret s = .next (s.retires g))

/-- Where a structured mask instruction leaves PC: at its target when the skip condition holds outside a stream, else at the
next word. -/
def Spec.after (s : State) (g' : Gang) (skip : Prop) [Decidable skip] (pc : DWord) : Host.Outcome State Fault Refusal :=
  if skip ∧ s.cur.stream = none then .next (s.jumps g' pc) else .next (s.retires g')

/-- IF, ELSE and ENDIF (08 R257 to R259): IF pushes EXM and keeps the lanes where T holds; ELSE turns the top entry into ELSE and
takes the lanes of its mask that are not in EXM; ENDIF pops and restores the mask; every write of EXM leaves out PKM. A full stack,
or a top entry of another kind, faults ILLEGAL with no effect. -/
def Spec.ifElseEndif : Prop :=
  ∀ (s : State) (g : Gang) (c : Cond) (off : BitVec 20), Runs0 s g →
    (let with_ (st : List Entry) (m : Mask) : Gang := { g with stack := st, regs := { g.regs with exm := m &&& ~~~ g.regs.pkm } }
     let pc := branchTarget g.regs.pc off
     (g.stack.length < 32 → exec (.if_ c off) s =
       Spec.after s (with_ (⟨g.regs.exm, .if_, 0⟩ :: g.stack) (g.regs.exm &&& Spec.testMask g c))
         (g.regs.exm &&& Spec.testMask g c &&& ~~~ g.regs.pkm = 0) pc) ∧
     (32 ≤ g.stack.length → exec (.if_ c off) s = .next (s.faults g (flt .illegal))) ∧
     (∀ e es, g.stack = e :: es → e.kind = .if_ → exec (.else_ off) s =
       Spec.after s (with_ ({ e with kind := .else_ } :: es) (e.mask &&& ~~~ g.regs.exm))
         (e.mask &&& ~~~ g.regs.exm &&& ~~~ g.regs.pkm = 0) pc) ∧
     ((∀ e es, g.stack = e :: es → e.kind ≠ .if_) → exec (.else_ off) s = .next (s.faults g (flt .illegal))) ∧
     (∀ e es, g.stack = e :: es → e.kind = .if_ ∨ e.kind = .else_ → exec .endif s = .next (s.retires (with_ es e.mask))) ∧
     ((∀ e es, g.stack = e :: es → e.kind ≠ .if_ ∧ e.kind ≠ .else_) → exec .endif s = .next (s.faults g (flt .illegal))))

/-- LOOP, ENDLOOP, BREAK and CONT (08 R258, R259). LOOP pushes EXM; ENDLOOP goes round again with the lanes of K where T holds and
records those where it does not, or pops and restores the mask; a subscriber takes the outcome from its packet's TAKEN. Where the
innermost LOOP entry has no TX entry above it, BREAK and CONT take the lanes of EXM where T holds out of EXM and every entry above
the LOOP, BREAK records them in the LOOP, and PC skips when EXM empties and the LOOP is the top entry. -/
def Spec.loops : Prop :=
  (∀ (s : State) (g : Gang) (c : Cond) (off : BitVec 20), Runs0 s g →
      (let with_ (st : List Entry) (m : Mask) : Gang := { g with stack := st, regs := { g.regs with exm := m &&& ~~~ g.regs.pkm } }
       let pc := branchTarget g.regs.pc off
       (g.stack.length < 32 → exec (.loop off) s =
         Spec.after s { g with stack := ⟨g.regs.exm, .loop, 0⟩ :: g.stack } (g.regs.exm = 0) pc) ∧
       (32 ≤ g.stack.length → exec (.loop off) s = .next (s.faults g (flt .illegal))) ∧
       (∀ e es, g.stack = e :: es → e.kind = .loop →
         (let k := e.mask &&& ~~~ e.brkm &&& ~~~ g.regs.pkm
          (s.cur.stream = none → k &&& Spec.testMask g c ≠ 0 → exec (.endloop c off) s =
            .next (s.jumps (with_ ({ e with brkm := e.brkm ||| (k &&& ~~~ Spec.testMask g c) } :: es) (k &&& Spec.testMask g c)) pc)) ∧
          (s.cur.stream = none → k &&& Spec.testMask g c = 0 → exec (.endloop c off) s = .next (s.retires (with_ es e.mask))) ∧
          (∀ p, s.cur.stream = some p → p.taken = true → exec (.endloop c off) s = .next (s.retires (with_ g.stack k))) ∧
          (∀ p, s.cur.stream = some p → p.taken = false → exec (.endloop c off) s = .next (s.retires (with_ es e.mask))))) ∧
       ((∀ e es, g.stack = e :: es → e.kind ≠ .loop) → exec (.endloop c off) s = .next (s.faults g (flt .illegal))))) ∧
  (∀ (s : State) (g : Gang) (c : Cond) (off : BitVec 20) (above below : List Entry) (l : Entry), Runs0 s g →
      g.stack = above ++ l :: below → l.kind = .loop → (∀ e ∈ above, e.kind = .if_ ∨ e.kind = .else_) →
      (let x := g.regs.exm &&& Spec.testMask g c
       let out (l' : Entry) : Gang :=
         { g with stack := above.map (fun e => { e with mask := e.mask &&& ~~~ x }) ++ l' :: below,
                  regs := { g.regs with exm := g.regs.exm &&& ~~~ x &&& ~~~ g.regs.pkm } }
       let skip : Prop := g.regs.exm &&& ~~~ x &&& ~~~ g.regs.pkm = 0 ∧ above = []
       let pc := branchTarget g.regs.pc off
       exec (.break_ c off) s = Spec.after s (out { l with brkm := l.brkm ||| x }) skip pc ∧
       exec (.cont c off) s = Spec.after s (out l) skip pc))

/-- NOP, YIELD and BEAT complete, and CONV with no parked lane and no replay: nothing of the gang's registers, mask stack or memory
changes but PC (01 R31, 08 R261, R263, 10 R371). -/
def Spec.nopYieldBeatConv : Prop :=
  ∀ (s : State) (g : Gang) (i : Instr), Runs0 s g →
    (i = .nop ∨ i = .yield ∨ i = .beat ∨ (i = .conv ∧ g.regs.pkm = 0 ∧ g.replay = false)) →
    ∃ t g', exec i s = .next t ∧ s.meIn t = some g' ∧ g'.regs = { g.regs with pc := g.regs.pc + 4 } ∧ g'.stack = g.stack ∧
      g'.status = .running ∧ g'.parked = g.parked ∧ SameMemory s t

/-- The end of the gang finds no copy of its shadow. -/
abbrev Spec.cutsNoCopies (s : State) (c : CoreId) (g : Gang) : Prop :=
  g.shadow = false → ∀ j, g.partner = some j → ∀ y ∈ (s.ctx c).copies, y.2.slot ≠ j

/-- A CONV met with parked lanes outside a replay freezes the gang at the CONV (01 R31). EXIT with no parked lane, no open
transaction construct and no engine command outstanding ends the gang: its slot is empty; with a command outstanding the gang waits
at the EXIT, and its end empties the slot when the last command has completed (08 R262). No byte of memory changes unless the end cuts
off copies of its shadow, whose chunks being written land (06 R178, log 85). -/
def Spec.convFreezesAndExitEnds : Prop :=
  (∀ (s : State) (g : Gang), Runs0 s g → g.regs.pkm ≠ 0 → g.replay = false →
      ∃ t g', exec .conv s = .next t ∧ s.meIn t = some g' ∧ g'.status = .frozen ∧ g'.regs = g.regs ∧ g'.stack = g.stack ∧
        g'.save = some ⟨g.regs.pc, g.regs.exm, g.stack⟩ ∧ SameMemory s t) ∧
  (∀ (s : State) (g : Gang), Runs0 s g → g.regs.pkm = 0 → (∀ e ∈ g.stack, e.kind ≠ .tx) →
    (s.engineBusy s.cur.core s.cur.slot = false →
      ∃ t, exec .exit s = .next t ∧ s.meIn t = none ∧ (Spec.cutsNoCopies s s.cur.core g → SameMemory s t)) ∧
    (s.engineBusy s.cur.core s.cur.slot = true →
      ∃ t g', exec .exit s = .next t ∧ s.meIn t = some g' ∧ g'.why? = some .exit ∧ g'.regs = g.regs ∧ SameMemory s t)) ∧
  (∀ (s : State) (c : CoreId) (k : SlotId) (g : Gang), s.gang? c k = some g → g.why? = some .exit → s.engineBusy c k = false →
    ∃ t, exec (.gangEnd c k) s = .next t ∧ t.gang? c k = none ∧ (Spec.cutsNoCopies s c g → SameMemory s t))

/-- Branches, calls and jumps (08). -/
def Obligations.ControlTransfers : Prop :=
  Spec.branchesTakeTheirTest ∧ Spec.callsAndJumps

/-- Structured control flow (08). -/
def Obligations.StructuredControl : Prop :=
  Spec.ifElseEndif ∧ Spec.loops

/-- NOP, YIELD, BEAT, CONV and EXIT (01, 08, 10). -/
def Obligations.IdleConvergeExit : Prop :=
  Spec.nopYieldBeatConv ∧ Spec.convFreezesAndExitEnds

/-! Frames of the instructions that act on the gang alone. -/

/-- What an instruction may write: its destination registers; FSTAT and LFSR (1: ORed, 2: any value); MODE; EXM and the mask stack;
the bit-address registers. -/
structure Spec.Writes where
  v : List VReg := []
  s : List SReg := []
  p : List PReg := []
  c : List CReg := []
  flags : Nat := 0
  mode : Bool := false
  mask : Bool := false
  ba : Bool := false

/-- The integer, lane, predicate, float, capability and bit-address instructions, the counters and identities (08, 09 R301, R305,
R306, 10 R369, R370). -/
def Spec.computes : Instr → Option Spec.Writes
  | .vop _ d .. | .vops _ d .. | .addImmV d .. | .mulImmV d .. | .andImmV d .. | .orImmV d .. | .xorImmV d .. | .shlImmV d ..
  | .shrImmV d .. | .sraImmV d .. | .sel d .. | .mad d .. | .dot2 d .. | .dot4 d .. | .shfl d .. | .shflUp d .. | .shflDown d ..
  | .shflXor d .. | .shflBcast d .. | .stov d .. | .laneid d | .fclass d _ | .widf d _ => some { v := [d] }
  | .wid d => some { v := [d, d + 1] }
  | .vscan k d _ => some { v := [d], flags := if k = .fadd then 1 else 0 }
  | .sop _ d .. | .addImmS d .. | .mulImmS d .. | .andImmS d .. | .orImmS d .. | .xorImmS d .. | .shlImmS d .. | .shrImmS d ..
  | .sraImmS d .. | .lil d _ | .lih d .. | .vote _ d _ | .ptos d _ | .getexm d | .getpkm d | .vtos d .. | .cget _ d _
  | .baget _ d | .rdcnt _ d | .getmode d | .getfs d | .chstat d => some { s := [d] }
  | .vred k d _ => some { s := [d], flags := if VredKind.float k then 1 else 0 }
  | .vcmp _ d .. | .vcmps _ d .. | .scmp _ d .. | .plog _ d .. | .pfroms d _ => some { p := [d] }
  | .fop _ d .. | .fops _ d .. | .fma _ d .. | .fmaVs _ d .. | .fcvt _ _ d _ => some { v := [d], flags := 1 }
  | .sfop _ d .. | .fmaS _ d .. | .fcvtS _ _ d _ => some { s := [d], flags := 1 }
  | .fcmp _ d .. | .fcmpS _ d .. => some { p := [d], flags := 1 }
  | .cinc d .. | .csetb d .. | .cperm d .. | .cmov d _ => some { c := [d] }
  | .baset .. | .baadd .. => some { ba := true }
  | _ => none

/-- The control instructions, the mask instructions, and those of MODE and FSTAT (08 R253 to R266, R286). -/
def Spec.controls : Instr → Option Spec.Writes
  | .br .. | .brany .. | .brall .. | .brnone .. | .jmp _ | .ret | .nop | .yield | .beat | .rendez _ => some {}
  | .call _ | .callr _ => some { s := [31] }
  | .if_ .. | .else_ _ | .endif | .loop _ | .endloop .. | .break_ .. | .cont .. | .conv | .setexm _ | .andexm _ =>
    some { mask := true }
  | .setmode _ | .setmf .. => some { mode := true }
  | .setfs _ => some { flags := 2 }
  | _ => none

/-- The frame of an instruction from a gang before it to the gang after it. -/
def Spec.frame (w : Spec.Writes) (s t : State) (g g' : Gang) : Prop :=
  KeepsRegs w.v w.s w.p w.c g g' ∧
  (w.flags = 0 → g'.regs.fstat = g.regs.fstat ∧ g'.regs.lfsr = g.regs.lfsr) ∧
  (w.flags = 1 → g.regs.fstat &&& g'.regs.fstat = g.regs.fstat) ∧
  (w.flags = 2 → g'.regs.lfsr = g.regs.lfsr) ∧
  (w.mode = false → g'.regs.mode = g.regs.mode) ∧
  (w.mask = false → g'.regs.exm = g.regs.exm ∧ g'.stack = g.stack) ∧
  (w.ba = false → g'.regs.ba = g.regs.ba) ∧
  g'.regs.pkm = g.regs.pkm ∧ g'.tx = g.tx ∧ g'.priv = g.priv ∧ SameMemory s t

/-- The frame of the instructions that act on the gang alone. Wherever one leaves its gang running, nothing has changed but: its
destination; for float operations FSTAT, ORed, and LFSR; S31 for CALL and CALLR; EXM and the mask stack for the structured mask
instructions, SETEXM and ANDEXM; MODE for SETMODE and SETMF; FSTAT for SETFS; the bit addresses for BASET and BAADD. No byte of memory
changes. -/
def Obligations.GangInstructionFrame : Prop :=
  ∀ (i : Instr) (w : Spec.Writes) (s t : State) (g g' : Gang), (Spec.computes i = some w ∨ Spec.controls i = some w) →
    s.me? = some g → exec i s = .next t → s.meIn t = some g' → g'.status = .running → Spec.frame w s t g g'

/-! Memory (09 R294 to R304, 05 R143). -/

/-- The word finishes: the gang runs on at the next word, its registers unchanged but for those named, and P holds of the new state
and of the gang in it. -/
def Spec.Finishes (s : State) (g : Gang) (o : Host.Outcome State Fault Refusal) (vs : List VReg) (ss : List SReg) (ps : List PReg)
    (cs : List CReg) (P : State → Gang → Prop) : Prop :=
  ∃ t g', o = .next t ∧ s.meIn t = some g' ∧ g'.status = .running ∧ g'.regs.pc = g.regs.pc + 4 ∧ KeepsRegs vs ss ps cs g g' ∧ P t g'

/-- The word waits: the gang stands at it with every register as before, waiting for w, and no byte of memory changes. -/
def Spec.Waits (s : State) (g : Gang) (o : Host.Outcome State Fault Refusal) (w : Why) : Prop :=
  ∃ t g', o = .next t ∧ s.meIn t = some g' ∧ g'.why? = some w ∧ g'.regs = g.regs ∧ SameMemory s t

/-- A sequentially consistent access waits at its word: for its turn in a deterministic partition, for its release, or for its window;
its registers stand but for FSTAT, and no byte of memory changes (05 R154, R155). -/
def Spec.Announces (s : State) (g : Gang) (o : Host.Outcome State Fault Refusal) : Prop :=
  ∃ t g' w, o = .next t ∧ s.meIn t = some g' ∧ g'.why? = some w ∧ (w = .ordered ∨ w = .fenceWrite ∨ ∃ n, w = .sc n) ∧
    g'.regs.pc = g.regs.pc ∧ KeepsRegs [] [] [] [] g g' ∧ SameMemory s t

/-- Registers that a V datum of a size takes (09 R298). -/
def Spec.data (d : VReg) (sz : Size) : List VReg := (List.range (sizeRegs sz)).map (fun k => d + BitVec.ofNat 6 k)

/-- The n bytes from a place. -/
def Spec.places (l : Loc) (n : Nat) : List Loc := (List.range n).map l.add

/-- An event takes place: it answers a next state, of which P holds. -/
def Spec.Occurs (o : Host.Outcome State Fault Refusal) (P : State → Prop) : Prop := ∃ t, o = .next t ∧ P t

/-- No lane reaches a debug window. -/
abbrev Spec.plain (ts : List (Fin 32 × LaneRes)) : Prop := ∀ t ∈ ts, t.2.window? = none

/-- P7, which a load of an object writes under MODE.OOSZ (09 R296). -/
def Spec.oosz (g : Gang) (r : Reach) : List PReg := if modeOosz g.regs.mode = true ∧ r.isObject = true then [7] else []

/-- Loads of V data outside transactions (09 R294 to R301). Where the gang-uniform checks and every active lane's target pass and no
watermark holds the load back, a plain load through any space but SYS finishes; a qualified one does when every granule it touches is
full and no older access to them is outstanding, and .fe leaves those granules empty. Nothing but the data registers, and P7 under
MODE.OOSZ, changes among the registers; no byte of memory changes. A qualified load of a granule that is not full waits, as a SYS load
does for its bytes, and an SC load for its turn, its release or its window. -/
def Spec.vectorLoads : Prop :=
  ∀ (s : State) (g : Gang) (i : Instr) (d : VReg) (m : VMem) (sz : Size) (q : LoadQ) (r : Reach),
    (i = .ld d m sz q ∨ i = .lds d m sz q) → Runs s g .u (vNames d (sizeRegs sz) m) → modeEtype g.regs.mode ≠ 13 →
    modeEtype g.regs.mode ≠ 14 → g.tx.active = false →
    (let z := sizeBytes sz
     let fe := q == .fe || q == .fk
     let ts := s.laneTargets g (g.c m.cap) m.cap.toNat m.am.toNat .load (modeOosz g.regs.mode) false (q == .sc) r z (g.vIndex m)
     let ls := ts.filterMap (fun t => t.2.loc?)
     s.openAccess g (g.c m.cap) m.cap.toNat m.am.toNat pR fe (q == .sc) false = .ok r → s.laneStops ts = none → Spec.plain ts →
     (q = .plain → (r.isSys = false ∨ ls = []) → s.belowMark r ls z = false → s.lostLanes ts z (g.c m.cap) m.cap.toNat = [] →
       Spec.Finishes s g (exec i s) (Spec.data d sz) [] (Spec.oosz g r) [] (fun t _ => SameMemory s t)) ∧
     (fe = true → s.allFull ls z = true → s.anyBusy ls z = false → s.lostLanes ts z (g.c m.cap) m.cap.toNat = [] →
       Spec.Finishes s g (exec i s) (Spec.data d sz) [] (Spec.oosz g r) [] (fun t _ => SameMemory s t ∧
         (q = .fe → ∀ l ∈ ls, ∀ x ∈ l.granules z, (t.ctx x.1).full.has x.2 = false))) ∧
     (fe = true → s.allFull ls z = false → Spec.Waits s g (exec i s) .full) ∧
     (q = .plain → s.belowMark r ls z = true → Spec.Waits s g (exec i s) .watermark) ∧
     (q = .plain → r.isSys = true → ls ≠ [] → s.belowMark r ls z = false → Spec.Waits s g (exec i s) .sysRead) ∧
     (q = .sc → Spec.Announces s g (exec i s)))

/-- Loads of S data outside transactions: the same, for the one target (09 R294, R298, R300). -/
def Spec.scalarLoads : Prop :=
  ∀ (s : State) (g : Gang) (i : Instr) (d : SReg) (m : SMem) (sz : Size) (q : LoadQ) (r : Reach),
    (i = .sld d m sz q ∨ i = .slds d m sz q) → Runs0 s g → g.txLane = none → ¬ (m.am = 3 ∧ m.idx = 31) →
    (let z := sizeBytes sz
     let fe := q == .fe || q == .fk
     let x := s.framed g false (q == .sc) z (g.c m.cap) m.cap.toNat
       (s.target s.cur.core (g.c m.cap) m.cap.toNat m.am.toNat .load (modeOosz g.regs.mode) r z (g.sIndex m).1 (g.sIndex m).2)
     let ls := x.loc?.toList
     s.openAccess g (g.c m.cap) m.cap.toNat m.am.toNat pR fe (q == .sc) false = .ok r → s.oneStop x = none → x.window? = none →
     (q = .plain → r.isSys = false → s.belowMark r ls z = false → s.lostLane x z = false →
       Spec.Finishes s g (exec i s) [] [d] (Spec.oosz g r) [] (fun t _ => SameMemory s t)) ∧
     (fe = true → s.allFull ls z = true → s.anyBusy ls z = false → s.lostLane x z = false →
       Spec.Finishes s g (exec i s) [] [d] (Spec.oosz g r) [] (fun t _ => SameMemory s t ∧
         (q = .fe → ∀ l ∈ ls, ∀ y ∈ l.granules z, (t.ctx y.1).full.has y.2 = false))) ∧
     (fe = true → s.allFull ls z = false → Spec.Waits s g (exec i s) .full) ∧
     (q = .plain → s.belowMark r ls z = true → Spec.Waits s g (exec i s) .watermark) ∧
     (q = .plain → r.isSys = true → s.belowMark r ls z = false → Spec.Waits s g (exec i s) .sysRead) ∧
     (q = .sc → Spec.Announces s g (exec i s)))

/-- Loads that meet a granule which stays uncorrectable (02 R60). A load whose granules are there, full where it asks for that, faults
DATA_ERROR: SLD, and LD where every active lane reads a lost granule, gang-wide; else the lanes that read one park with the code, EXM
loses them and PKM gains them, and the others finish. A scratchpad's DATA_ERROR is counted (15 R464). An error that strikes from outside
(log 15) is counted when it is corrected or rebuilt, and else makes its granule lost: no register and no cell of the scratchpad changes. -/
def Spec.lostGranules : Prop :=
  (∀ (s : State) (g : Gang) (i : Instr) (d : VReg) (m : VMem) (sz : Size) (q : LoadQ) (r : Reach),
    (i = .ld d m sz q ∨ i = .lds d m sz q) → Runs s g .u (vNames d (sizeRegs sz) m) → modeEtype g.regs.mode ≠ 13 →
    modeEtype g.regs.mode ≠ 14 → g.tx.active = false → (∀ n : Fin 32, (g.tx.lanes[n]).isOpen = false) → (∀ n : Fin 8, g.parked[n] = none) →
    (let z := sizeBytes sz
     let fe := q == .fe || q == .fk
     let ts := s.laneTargets g (g.c m.cap) m.cap.toNat m.am.toNat .load (modeOosz g.regs.mode) false (q == .sc) r z (g.vIndex m)
     let ls := ts.filterMap (fun t => t.2.loc?)
     let bad := laneMask ((s.lostLanes ts z (g.c m.cap) m.cap.toNat).map Prod.fst)
     let f := capFlt .dataError (g.c m.cap) m.cap.toNat
     s.openAccess g (g.c m.cap) m.cap.toNat m.am.toNat pR fe (q == .sc) false = .ok r → s.laneStops ts = none → Spec.plain ts →
     (q = .plain ∧ s.belowMark r ls z = false) ∨ (fe = true ∧ s.allFull ls z = true ∧ s.anyBusy ls z = false) → bad ≠ 0 →
     (bad = g.active → exec i s = .next (s.faults g f)) ∧
     (bad ≠ g.active → Spec.Finishes s g (exec i s) (Spec.data d sz) [] (Spec.oosz g r) [] (fun t g' => SameMemory s t ∧
       g'.regs.exm = g.regs.exm &&& ~~~ bad ∧ g'.regs.pkm = g.regs.pkm ||| bad ∧ (∀ n, Mask.has bad n = true → ∀ v, (g'.v v)[n] = (g.v v)[n]) ∧
       ∃ k, g'.parked[(0 : Fin 8)] = some k ∧ k.flt = f ∧ k.lanes = bad ∧ k.pc = g.regs.pc)))) ∧
  (∀ (s : State) (g : Gang) (i : Instr) (d : SReg) (m : SMem) (sz : Size) (q : LoadQ) (r : Reach),
    (i = .sld d m sz q ∨ i = .slds d m sz q) → Runs0 s g → g.txLane = none → ¬ (m.am = 3 ∧ m.idx = 31) →
    (let z := sizeBytes sz
     let fe := q == .fe || q == .fk
     let x := s.framed g false (q == .sc) z (g.c m.cap) m.cap.toNat
       (s.target s.cur.core (g.c m.cap) m.cap.toNat m.am.toNat .load (modeOosz g.regs.mode) r z (g.sIndex m).1 (g.sIndex m).2)
     let ls := x.loc?.toList
     s.openAccess g (g.c m.cap) m.cap.toNat m.am.toNat pR fe (q == .sc) false = .ok r → s.oneStop x = none → x.window? = none →
     (q = .plain ∧ s.belowMark r ls z = false) ∨ (fe = true ∧ s.allFull ls z = true ∧ s.anyBusy ls z = false) → s.lostLane x z = true →
     exec i s = .next (s.faults g (capFlt .dataError (g.c m.cap) m.cap.toNat)))) ∧
  (∀ (s : State),
    (let one (m : Mishap) (k : Fin 16) : Prop :=
       SameMemory s (s.strike m) ∧ (s.strike m).cores = s.cores ∧ (s.strike m).fount.counters[k] =
         if (s.fount.counters[k]).toNat = 2 ^ 64 - 1 then s.fount.counters[k] else s.fount.counters[k] + 1
     one .padCorrected 0 ∧ one .padRebuilt 1 ∧ one .dramCorrected 3 ∧ one .tarnCorrected 5 ∧
     (∀ c n, n < 0x4000 → s.noCore c = false →
       (let t := s.strike (.padLost c n)
        SameMemory s t ∧ (∀ o, t.lostAt (.pad c o) 1 = (s.lostAt (.pad c o) 1 || o / 16 == n)) ∧ (∀ e, e ≠ c → t.ctx e = s.ctx e) ∧
          ∀ k, t.gang? c k = s.gang? c k))))

/-- A LOCAL capability with a permission. -/
abbrev Spec.localCap (c : Cap) (perm : Nat) : Prop := c.tag = true ∧ c.space = 0 ∧ c.id = 0 ∧ holds c.perm perm = true

/-- n bytes at scratchpad offset o lie in the capability's range and outside the pool and the packet region, at a multiple of z
(09 R294, 06 R181, 05 R163). -/
abbrev Spec.inPad (c : Cap) (o : Int) (n z : Nat) : Prop :=
  0 ≤ o ∧ (c.origin : Int) ≤ o ∧ o + n ≤ (c.origin : Int) + c.length ∧ o + n ≤ 0x37000 ∧ o % z = 0

/-- No granule of the core's scratchpad is lost to an uncorrectable error (02 R60). -/
abbrev Spec.intact (s : State) (c : CoreId) : Prop := (s.ctx c).lost = []

/-- The core has no access outstanding, no declared copy channel and no lost granule. -/
abbrev Spec.quietAt (s : State) (c : CoreId) : Prop :=
  (s.ctx c).flights = [] ∧ (s.ctx c).buf = [] ∧ (∀ n : Fin 16, (s.ctx c).chans[n] = none) ∧ Spec.intact s c

/-- The same of the executing core. -/
abbrev Spec.quiet (s : State) : Prop := Spec.quietAt s s.cur.core

/-- A plain LOCAL load returns the scratchpad's bytes, least significant first: zero-extended, or sign-extended by LDS and SLDS, to a
lane or an S register; 8 and 16 bytes fill two and four V registers, low word first (09 R298, 00 R5, 02 R55). -/
def Spec.localLoadsReturnTheBytes : Prop :=
  ∀ (s : State) (g : Gang), Spec.quiet s → g.tx.active = false → g.txLane = none →
    (∀ (d : VReg) (m : VMem) (sz : Size) (sx : Bool), Runs s g .u (vNames d (sizeRegs sz) m) →
      modeEtype g.regs.mode ≠ 13 → modeEtype g.regs.mode ≠ 14 → m.am = 0 → Spec.localCap (g.c m.cap) pR →
      (let off (n : Fin 32) : Int := ((g.c m.cap).origin : Int) + (g.v m.idx)[n].toInt * sizeBytes sz
       let val (n : Fin 32) : Nat := ofBytes ((s.ctx s.cur.core).pad.read (off n).toNat (sizeBytes sz))
       (∀ n, Mask.has g.active n = true → Spec.inPad (g.c m.cap) (off n) (sizeBytes sz) (sizeBytes sz)) →
       Spec.Finishes s g (exec (if sx then .lds d m sz .plain else .ld d m sz .plain) s) (Spec.data d sz) [] [] [] (fun _ g' =>
         ∀ n, Mask.has g.active n = true →
           (sizeBytes sz ≤ 2 → (g'.v d)[n] =
             if sx then BitVec.ofInt 32 (signed (8 * sizeBytes sz) (val n)) else BitVec.ofNat 32 (val n)) ∧
           (4 ≤ sizeBytes sz → ∀ k, k < sizeRegs sz → (g'.v (d + BitVec.ofNat 6 k))[n] = BitVec.ofNat 32 (val n / 2 ^ (32 * k)))))) ∧
    (∀ (d : SReg) (m : SMem) (sz : Size) (sx : Bool), Runs0 s g → sz ≠ .q → m.am = 0 → Spec.localCap (g.c m.cap) pR →
      (let off : Int := ((g.c m.cap).origin : Int) + ((g.s m.idx).truncate 32).toInt * sizeBytes sz
       let val : Nat := ofBytes ((s.ctx s.cur.core).pad.read off.toNat (sizeBytes sz))
       Spec.inPad (g.c m.cap) off (sizeBytes sz) (sizeBytes sz) →
       Spec.Finishes s g (exec (if sx then .slds d m sz .plain else .sld d m sz .plain) s) [] [d] [] [] (fun _ g' =>
         d ≠ 0 → g'.s d = if sx then BitVec.ofInt 64 (signed (8 * sizeBytes sz) val) else BitVec.ofNat 64 val)))

/-- Plain stores outside transactions (09 R294, R299, 05 R143): where the checks and every target pass they finish and change no
register; a LOCAL store, which waits until no older access of the core to the bytes is outstanding, changes no byte outside its
targets; a NEAR, OBJECT or SYS store enters the store buffer and changes no byte yet. -/
def Obligations.StoresFinish : Prop :=
  (∀ (s : State) (g : Gang) (d : VReg) (m : VMem) (sz : Size) (r : Reach),
    Runs s g .u (vNames d (sizeRegs sz) m) → modeEtype g.regs.mode ≠ 13 → modeEtype g.regs.mode ≠ 14 → g.tx.active = false →
    (let z := sizeBytes sz
     let ts := s.laneTargets g (g.c m.cap) m.cap.toNat m.am.toNat .other false true false r z (g.vIndex m)
     let ls := ts.filterMap (fun t => t.2.loc?)
     s.openAccess g (g.c m.cap) m.cap.toNat m.am.toNat pW false false false = .ok r → s.laneStops ts = none → Spec.plain ts →
     (r.isLocal = true → s.anyBusy ls z = false → Spec.Finishes s g (exec (.st d m sz .plain) s) [] [] [] [] (fun t _ =>
       SameMemoryBut (ls.flatMap (fun l => Spec.places l z)) s t)) ∧
     (r.isLocal = true → s.anyBusy ls z = true → Spec.Waits s g (exec (.st d m sz .plain) s) .hazard) ∧
     (r.isLocal = false → Spec.Finishes s g (exec (.st d m sz .plain) s) [] [] [] [] (fun t _ =>
       SameMemory s t ∧ (t.ctx s.cur.core).buf.length = (s.ctx s.cur.core).buf.length + ls.length)))) ∧
  (∀ (s : State) (g : Gang) (d : SReg) (m : SMem) (sz : Size) (r : Reach),
    Runs0 s g → g.txLane = none → ¬ (m.am = 3 ∧ m.idx = 31) →
    (let z := sizeBytes sz
     let x := s.framed g true false z (g.c m.cap) m.cap.toNat
       (s.target s.cur.core (g.c m.cap) m.cap.toNat m.am.toNat .other false r z (g.sIndex m).1 (g.sIndex m).2)
     s.openAccess g (g.c m.cap) m.cap.toNat m.am.toNat pW false false false = .ok r → s.oneStop x = none → x.window? = none →
     (r.isLocal = true → s.anyBusy x.loc?.toList z = false → Spec.Finishes s g (exec (.sst d m sz .plain) s) [] [] [] [] (fun t _ =>
       SameMemoryBut (x.loc?.toList.flatMap (fun l => Spec.places l z)) s t)) ∧
     (r.isLocal = false → Spec.Finishes s g (exec (.sst d m sz .plain) s) [] [] [] [] (fun t _ =>
       SameMemory s t ∧ (t.ctx s.cur.core).buf.length = (s.ctx s.cur.core).buf.length + x.loc?.toList.length))))

/-- A LOCAL store leaves the low bytes of its data in the scratchpad, least significant first: SST those of S[d]; ST those of V[d]
and the registers after it, lane by lane, the highest lane's where lanes meet (09 R299, 00 R5). The other bytes stand, and the tags of
the granules touched are clear (02 R53). -/
def Spec.localStoresLeaveTheBytes : Prop :=
  ∀ (s : State) (g : Gang), Spec.quiet s → g.tx.active = false → g.txLane = none → Memory.wf (s.ctx s.cur.core).pad = true →
    (∀ (d : SReg) (m : SMem) (sz : Size), Runs0 s g → m.am = 0 → sz ≠ .q → Spec.localCap (g.c m.cap) pW →
      (let z := sizeBytes sz
       let off : Int := ((g.c m.cap).origin : Int) + ((g.s m.idx).truncate 32).toInt * z
       Spec.inPad (g.c m.cap) off z z →
       Spec.Finishes s g (exec (.sst d m sz .plain) s) [] [] [] [] (fun t _ =>
         (∀ j, j < z → (t.ctx s.cur.core).pad.get (off.toNat + j) = BitVec.ofNat 8 ((g.s d).toNat / 2 ^ (8 * j))) ∧
         (∀ b, (t.ctx s.cur.core).tags.has b = if b = off.toNat / 16 then false else (s.ctx s.cur.core).tags.has b) ∧
         (∀ c, c ≠ s.cur.core → (t.ctx c).tags = (s.ctx c).tags) ∧ t.dramTags = s.dramTags ∧
         SameMemoryBut (Spec.places (.pad s.cur.core off.toNat) z) s t))) ∧
    (∀ (d : VReg) (m : VMem) (sz : Size), Runs s g .u (vNames d (sizeRegs sz) m) → modeEtype g.regs.mode ≠ 13 →
      modeEtype g.regs.mode ≠ 14 → m.am = 0 → Spec.localCap (g.c m.cap) pW →
      (let z := sizeBytes sz
       let off (n : Fin 32) : Int := ((g.c m.cap).origin : Int) + (g.v m.idx)[n].toInt * z
       (∀ n, Mask.has g.active n = true → Spec.inPad (g.c m.cap) (off n) z z) →
       Spec.Finishes s g (exec (.st d m sz .plain) s) [] [] [] [] (fun t _ =>
         (∀ n, Mask.has g.active n = true → (∀ k, Mask.has g.active k = true → n < k → off k ≠ off n) →
           ∀ j, j < z → (t.ctx s.cur.core).pad.get ((off n).toNat + j) =
             BitVec.ofNat 8 ((g.v (d + BitVec.ofNat 6 (j / 4)))[n].toNat / 2 ^ (8 * (j % 4)))) ∧
         (∀ n, Mask.has g.active n = true → (t.ctx s.cur.core).tags.has ((off n).toNat / 16) = false) ∧
         (∀ b, (∀ n, Mask.has g.active n = true → (off n).toNat / 16 ≠ b) →
           (t.ctx s.cur.core).tags.has b = (s.ctx s.cur.core).tags.has b) ∧
         (∀ c, c ≠ s.cur.core → (t.ctx c).tags = (s.ctx c).tags) ∧ t.dramTags = s.dramTags ∧
         SameMemoryBut ((Mask.lanes g.active).flatMap (fun n => Spec.places (.pad s.cur.core (off n).toNat) z)) s t)))

/-- The fault of a LOCAL access of z bytes at scratchpad offset o, where the capability's range ends below the pool (09 R294 steps 4
and 6). -/
def Spec.padFault (c : Cap) (o : Int) (z : Nat) : Option Code :=
  if (c.origin : Int) ≤ o ∧ o + z ≤ (c.origin : Int) + c.length then (if o % z = 0 then none else some .misaligned) else some .capBounds

/-- The lanes of a mask that pass a test. -/
abbrev Spec.lanesOf (m : Mask) (p : Fin 32 → Bool) : Mask := maskOf (fun n => Mask.has m n && p n)

/-- Plain LD, LDS and ST through a LOCAL capability (09 R294): a lane outside the capability's range faults CAP_BOUNDS, one in it and not
aligned MISALIGNED. Where every active lane faults, the gang freezes before any effect with the lowest lane's fault and its OFFSET (01
R30). Where some do, those leave EXM and enter PKM, nothing of theirs is written, a parked-lane record for each code holds its lanes and
the PC, and the other lanes finish (01 R29, 07 R248). -/
def Spec.localLaneFaults : Prop :=
  ∀ (s : State) (g : Gang) (i : Instr) (d : VReg) (m : VMem) (sz : Size) (perm : Nat) (ds : List VReg),
    ((i = .ld d m sz .plain ∨ i = .lds d m sz .plain) ∧ perm = pR ∧ ds = Spec.data d sz) ∨ (i = .st d m sz .plain ∧ perm = pW ∧ ds = []) →
    Runs s g .u (vNames d (sizeRegs sz) m) → modeEtype g.regs.mode ≠ 13 → modeEtype g.regs.mode ≠ 14 → Spec.quiet s →
    Memory.wf (s.ctx s.cur.core).pad = true → g.tx.active = false → (∀ n : Fin 32, (g.tx.lanes[n]).isOpen = false) →
    (∀ n : Fin 8, g.parked[n] = none) → m.am = 0 → Spec.localCap (g.c m.cap) perm →
    (g.c m.cap).origin + (g.c m.cap).length ≤ 0x37000 →
    (let z := sizeBytes sz
     let off (n : Fin 32) : Int := ((g.c m.cap).origin : Int) + (g.v m.idx)[n].toInt * z
     let code (n : Fin 32) := Spec.padFault (g.c m.cap) (off n) z
     let f (n : Fin 32) (c : Code) : Flt := { flt c with creg := m.cap.toNat, offset := BitVec.ofInt 64 (off n) }
     let bad := Spec.lanesOf g.active (fun n => (code n).isSome)
     (∀ n c, bad = g.active → Mask.has g.active n = true → (∀ k, k < n → Mask.has g.active k = false) → code n = some c →
       exec i s = .next (s.faults g (f n c))) ∧
     (bad ≠ 0 → bad ≠ g.active → Spec.Finishes s g (exec i s) ds [] [] [] (fun t g' =>
       g'.regs.exm = g.regs.exm &&& ~~~ bad ∧ g'.regs.pkm = g.regs.pkm ||| bad ∧
       (∀ n, Mask.has bad n = true → ∀ v, (g'.v v)[n] = (g.v v)[n]) ∧
       (∀ n c, Mask.has g.active n = true → code n = some c →
         (∀ k, k < n → Mask.has g.active k = true → code k ≠ some c) →
         ∃ j r, g'.parked[(j : Fin 8)] = some r ∧ r.flt = f n c ∧ r.pc = g.regs.pc ∧ r.stack = columns r.lanes g.stack ∧
           r.lanes = Spec.lanesOf g.active (fun k => code k == some c)) ∧
       SameMemoryBut (if ds = [] then (Mask.lanes (g.active &&& ~~~ bad)).flatMap (fun n => Spec.places (.pad s.cur.core (off n).toNat) z)
         else []) s t)))

/-- SLD, SLDS and SST the same, for their one target: gang-wide, whatever lanes are active (09 R294). -/
def Spec.localScalarFaults : Prop :=
  ∀ (s : State) (g : Gang) (i : Instr) (d : SReg) (m : SMem) (sz : Size) (perm : Nat) (c : Code),
    ((i = .sld d m sz .plain ∨ i = .slds d m sz .plain) ∧ perm = pR) ∨ (i = .sst d m sz .plain ∧ perm = pW) → Runs0 s g →
    g.txLane = none → sz ≠ .q → m.am = 0 → Spec.localCap (g.c m.cap) perm → (g.c m.cap).origin + (g.c m.cap).length ≤ 0x37000 →
    (let off : Int := ((g.c m.cap).origin : Int) + ((g.s m.idx).truncate 32).toInt * sizeBytes sz
     Spec.padFault (g.c m.cap) off (sizeBytes sz) = some c →
     exec i s = .next (s.faults g { flt c with creg := m.cap.toNat, offset := BitVec.ofInt 64 off }))

/-- An access of an OBJECT whose flat index ORIGIN + index is below 0 or not below the product of SHAPE faults OUT_OF_SHAPE with that
index as its OFFSET (02 R64, R69 step 7): LD, LDS and ST gang-wide where every active lane's is, but for a load under MODE.OOSZ; SLD, SLDS
and SST alike. -/
def Spec.objectShapeFaults : Prop :=
  ∀ (s : State) (g : Gang) (r : ObjRec), g.tx.active = false → g.txLane = none → (∀ n : Fin 32, (g.tx.lanes[n]).isOpen = false) →
    (let outside (f : Int) : Prop := f < 0 ∨ ((r.dims.foldl (· * ·) 1 : Nat) : Int) ≤ f
     let dims : Prop := r.dims ≠ [] ∧ ∀ x ∈ r.dims, 0 < x
     (∀ (i : Instr) (d : VReg) (m : VMem) (sz : Size) (perm : Nat) (n : Fin 32),
       ((i = .ld d m sz .plain ∨ i = .lds d m sz .plain) ∧ perm = pR ∧ modeOosz g.regs.mode = false) ∨ (i = .st d m sz .plain ∧ perm = pW) →
       Runs s g .u (vNames d (sizeRegs sz) m) → modeEtype g.regs.mode ≠ 13 → modeEtype g.regs.mode ≠ 14 → m.am = 0 → dims →
       s.openAccess g (g.c m.cap) m.cap.toNat 0 perm false false false = .ok (.object r) →
       (∀ k, Mask.has g.active k = true → outside (((g.c m.cap).origin : Int) + (g.v m.idx)[k].toInt)) →
       Mask.has g.active n = true → (∀ k, k < n → Mask.has g.active k = false) →
       ∃ f, f.code = .outOfShape ∧ f.offset = BitVec.ofInt 64 (((g.c m.cap).origin : Int) + (g.v m.idx)[n].toInt) ∧
         exec i s = .next (s.faults g f)) ∧
     (∀ (i : Instr) (d : SReg) (m : SMem) (sz : Size) (perm : Nat),
       ((i = .sld d m sz .plain ∨ i = .slds d m sz .plain) ∧ perm = pR ∧ modeOosz g.regs.mode = false) ∨ (i = .sst d m sz .plain ∧ perm = pW) →
       Runs0 s g → sz ≠ .q → m.am = 0 → dims → s.openAccess g (g.c m.cap) m.cap.toNat 0 perm false false false = .ok (.object r) →
       outside (((g.c m.cap).origin : Int) + ((g.s m.idx).truncate 32).toInt) →
       ∃ f, f.code = .outOfShape ∧ f.offset = BitVec.ofInt 64 (((g.c m.cap).origin : Int) + ((g.s m.idx).truncate 32).toInt) ∧
         exec i s = .next (s.faults g f)))

/-- Loads of V and S data (09), and those that meet an uncorrectable error (02). -/
def Obligations.LoadsComplete : Prop :=
  Spec.vectorLoads ∧ Spec.scalarLoads ∧ Spec.lostGranules

/-- What LOCAL loads return and LOCAL stores leave, and where such accesses, and those of objects, fault for the address they reach (09,
02 R69). -/
def Obligations.LocalBytes : Prop :=
  Spec.localLoadsReturnTheBytes ∧ Spec.localStoresLeaveTheBytes ∧ Spec.localLaneFaults ∧ Spec.localScalarFaults ∧ Spec.objectShapeFaults

/-- LDC and STC of LOCAL scratchpad (09 R304, 02 R53): LDC takes the 16 bytes, tagged only where the granule is and the capability used
holds K; STC leaves C[d]'s bits and its tag in the granule and changes no other byte, no other tag and no register. -/
def Spec.capabilityLoadsAndStores : Prop :=
  ∀ (s : State) (g : Gang) (d : CReg) (m : SMem), Spec.quiet s → g.tx.active = false → g.txLane = none → Runs0 s g → m.am = 0 →
    Memory.wf (s.ctx s.cur.core).pad = true →
    (let c := g.c m.cap
     let off : Int := (c.origin : Int) + ((g.s m.idx).truncate 32).toInt * 16
     Spec.inPad c off 16 16 →
     (Spec.localCap c pR →
       Spec.Finishes s g (exec (.ldc d m) s) [] [] [] [d] (fun t g' => SameMemory s t ∧
         (g'.c d).val = BitVec.ofNat 128 (ofBytes ((s.ctx s.cur.core).pad.read off.toNat 16)) ∧
         (g'.c d).tag = ((s.ctx s.cur.core).tags.has (off.toNat / 16) && holds c.perm pK))) ∧
     (Spec.localCap c (pW + pK) →
       Spec.Finishes s g (exec (.stc d m) s) [] [] [] [] (fun t _ =>
         SameMemoryBut (Spec.places (.pad s.cur.core off.toNat) 16) s t ∧
         (t.ctx s.cur.core).pad.read off.toNat 16 = toBytes 16 (g.c d).val.toNat ∧
         (∀ b, (t.ctx s.cur.core).tags.has b = if b = off.toNat / 16 then (g.c d).tag else (s.ctx s.cur.core).tags.has b) ∧
         (∀ c', c' ≠ s.cur.core → (t.ctx c').tags = (s.ctx c').tags) ∧ t.dramTags = s.dramTags)))

/-- LDB and STB of LOCAL scratchpad (09 R302, 02 R76, R77): lane n's field of w bits lies at bit 8 ORIGIN + BA[k] + n w, bit b lowest;
LDB zero-extends it into V[d]; STB leaves it in memory, no bit outside the active lanes' fields changes, here or elsewhere, and of the tags
those of the granules that the fields meet are clear, no other changed (02 R53); with INC, BA[k] moves on
by 32 w, modulo 2^48. -/
def Spec.bitFieldLoadsAndStores : Prop :=
  ∀ (s : State) (g : Gang) (cap : CReg) (d : VReg) (k : BaReg) (w1 : BitVec 5) (inc : Bool), Spec.quiet s → g.tx.active = false →
    Runs s g .u [d.toNat] → modeEtype g.regs.mode ≠ 13 → modeEtype g.regs.mode ≠ 14 → Memory.wf (s.ctx s.cur.core).pad = true →
    (let c := g.c cap
     let w := w1.toNat + 1
     let bit (n : Fin 32) : Nat := 8 * c.origin + (g.regs.ba[k.toFin]).toNat + n.val * w
     let inc' : BitVec 48 := if inc then g.regs.ba[k.toFin] + BitVec.ofNat 48 (32 * w) else g.regs.ba[k.toFin]
     let bitAt (t : State) (b : Nat) : Bool := ((t.ctx s.cur.core).pad.get (b / 8)).getLsbD (b % 8)
     (∀ n, Mask.has g.active n = true →
       Spec.inPad c ((bit n / 8 : Nat) : Int) ((bit n + w - 1) / 8 - bit n / 8 + 1) 1) →
     (Spec.localCap c pR → Spec.Finishes s g (exec (.ldb cap d k w1 inc) s) [d] [] [] [] (fun t g' =>
       SameMemory s t ∧ g'.regs.ba[k.toFin] = inc' ∧
       ∀ n, Mask.has g.active n = true → ∀ j, j < 32 → (g'.v d)[n].getLsbD j = (decide (j < w) && bitAt s (bit n + j)))) ∧
     (Spec.localCap c pW → Spec.Finishes s g (exec (.stb cap d k w1 inc) s) [] [] [] [] (fun t g' =>
       g'.regs.ba[k.toFin] = inc' ∧
       (∀ n, Mask.has g.active n = true → ∀ j, j < w → bitAt t (bit n + j) = (g.v d)[n].getLsbD j) ∧
       (∀ b, (∀ n, Mask.has g.active n = true → b < bit n ∨ bit n + w ≤ b) → bitAt t b = bitAt s b) ∧
       (∀ c', c' ≠ s.cur.core → (t.ctx c').pad = (s.ctx c').pad ∧ (t.ctx c').tags = (s.ctx c').tags) ∧ t.dramTags = s.dramTags ∧
       (∀ l : Loc, (∀ o, l ≠ .pad s.cur.core o) → t.byteAt l = s.byteAt l) ∧
       (let met (b : Nat) : Prop := ∃ n, Mask.has g.active n = true ∧ bit n / 128 ≤ b ∧ b ≤ (bit n + w - 1) / 128
        ∀ b, (met b → (t.ctx s.cur.core).tags.has b = false) ∧ (¬ met b → (t.ctx s.cur.core).tags.has b = (s.ctx s.cur.core).tags.has b)))))

/-- The bit-address registers (09 R303): BASET takes S[b][47:0] and faults ILLEGAL with a higher bit set; BAADD adds S[b] modulo 2^48.
CMOV copies value and tag (R306). -/
def Spec.bitAddressesAndCapabilityMoves : Prop :=
  ∀ (s : State) (g : Gang) (k : BaReg) (b : SReg) (d a : CReg), Runs0 s g →
    ((g.s b).toNat < 2 ^ 48 → Spec.Finishes s g (exec (.baset k b) s) [] [] [] [] (fun _ g' =>
      ∀ j : BaReg, g'.regs.ba[j.toFin] = if j = k then (g.s b).truncate 48 else g.regs.ba[j.toFin])) ∧
    (2 ^ 48 ≤ (g.s b).toNat → exec (.baset k b) s = .next (s.faults g (flt .illegal))) ∧
    Spec.Finishes s g (exec (.baadd k b) s) [] [] [] [] (fun _ g' =>
      ∀ j : BaReg, g'.regs.ba[j.toFin] = if j = k then BitVec.ofInt 48 ((g.regs.ba[k.toFin]).toNat + (g.s b).toInt)
        else g.regs.ba[j.toFin]) ∧
    exec (.cmov d a) s = .next (s.retires (g.setC d (g.c a)))

/-- A capability with the fields given. -/
abbrev Spec.isCap (c : Cap) (space perm id origin length : Nat) : Prop :=
  c.tag = true ∧ c.space = space ∧ c.perm = perm ∧ c.id = id ∧ c.origin = origin ∧ c.length = length

/-- CINC, CSETB and CPERM derive a tagged capability of the same space and ID whose range and permissions lie within the source's; an
untagged source faults CAP_TAG, a range that grows or an origin past 2^47 - 1 CAP_BOUNDS, a permission the source lacks CAP_PERM, a
reserved bit ILLEGAL, and a fault changes no C register (09 R305, 02 R54). -/
def Obligations.DerivedCapabilitiesNeverGrow : Prop :=
  ∀ (s : State) (g : Gang) (d a : CReg) (b : SReg), Runs0 s g →
    (let c := g.c a
     let x := g.s b
     let makes (i : Instr) (perm origin length : Nat) : Prop :=
       Spec.Finishes s g (exec i s) [] [] [] [d] (fun _ g' => Spec.isCap (g'.c d) c.space perm c.id origin length)
     let stops (i : Instr) (code : Code) : Prop := ∃ f, f.code = code ∧ exec i s = .next (s.faults g f)
     (c.tag = false → stops (.cinc d a b) .capTag ∧ stops (.csetb d a b) .capTag ∧ stops (.cperm d a b) .capTag) ∧
     (c.tag = true →
       (if 0 ≤ x.toInt ∧ x.toInt ≤ c.length ∧ (c.origin : Int) + x.toInt < 2 ^ 47
         then makes (.cinc d a b) c.perm (c.origin + x.toNat) (c.length - x.toNat)
         else stops (.cinc d a b) .capBounds) ∧
       (if x.toNat ≤ c.length then makes (.csetb d a b) c.perm c.origin x.toNat else stops (.csetb d a b) .capBounds) ∧
       (if 64 ≤ x.toNat then stops (.cperm d a b) .illegal
         else if x.toNat &&& c.perm = x.toNat then makes (.cperm d a b) x.toNat c.origin c.length
         else stops (.cperm d a b) .capPerm)))

/-- The record that a query of a capability meets, where steps 1, 2, 4 and 5 of 02 R69 pass. -/
abbrev Spec.queries (s : State) (c : Cap) (code : Bool) : Prop :=
  (let p := s.part s.cur.core
   c.tag = true ∧ (c.space = 2 ∨ (code = true ∧ c.space = 3)) ∧ c.id < p.ortSize ∧
     ((s.record p c.id).state = 1 ∨ (s.record p c.id).state = 2))

/-- A map entry that exists and shows RESIDENT, with no reserved bit (02 R67, 09 R309). -/
abbrev Spec.shown (e : Nat) : Prop := e.testBit 32 = true ∧ e.testBit 34 = false ∧ e < 2 ^ 38

/-- OBJINFO, OBJRES, OBJVIEW and OBJSUM complete where their checks pass: OBJINFO gives a word of the record; OBJRES a bit for each map
entry from S[b] on that exists, shows RESIDENT and has no reserved bit; OBJVIEW a tagged capability over the whole view record with the
permissions asked for, which both records hold; OBJSUM outside a transaction loads. None changes a byte of memory (09 R307 to R310). -/
def Spec.objectQueries : Prop :=
  ∀ (s : State) (g : Gang) (a d' : CReg) (d b : SReg) (v : VReg) (n : BitVec 3),
    (let c := g.c a
     let p := s.part s.cur.core
     let o := s.record p c.id
     (Runs0 s g → Spec.queries s c true →
       Spec.Finishes s g (exec (.objinfo d a n) s) [] [d] [] [] (fun t g' => SameMemory s t ∧
         (d ≠ 0 → g'.s d = BitVec.ofNat 64 (ofBytes (((s.recordImage p c.id).drop (8 * n.toNat)).take 8))))) ∧
     (Runs0 s g → Spec.queries s c true → holds c.perm pR = true → holds o.perm pR = true →
       Spec.Finishes s g (exec (.objres d a b) s) [] [d] [] [] (fun t g' => SameMemory s t ∧
         (d ≠ 0 → ∀ k, k < 64 → ((g'.s d).getLsbD k = true ↔
           (g.s b).toNat + k < o.nsub ∧ Spec.shown (s.mapEntry p c.id ((g.s b).toNat + k) o))))) ∧
     (Runs0 s g → Spec.queries s c false → c.origin = 0 → c.length = o.size → (g.s b).toNat < 2 ^ 30 →
       (let w := s.record p (bits (g.s b) 23 0)
        let want := bits (g.s b) 29 24
        bits (g.s b) 23 0 < p.ortSize → w.state = 1 → w.map = o.map → w.nsub ≤ o.nsub → holds c.perm want = true →
        holds o.perm want = true → holds w.perm want = true →
        Spec.Finishes s g (exec (.objview d' a b) s) [] [] [] [d'] (fun t g' => SameMemory s t ∧
          Spec.isCap (g'.c d') 2 want (bits (g.s b) 23 0) 0 w.size))) ∧
     (Runs s g .u [v.toNat] → g.tx.active = false → modeEtype g.regs.mode ≠ 13 → modeEtype g.regs.mode ≠ 14 → Spec.queries s c true →
       holds c.perm pR = true → holds o.perm pR = true → o.side ≠ 0 → o.side % 256 = 0 → bits (g.s b) 63 33 = 0 →
       bits (g.s b) 31 0 < o.shape.getD 0 0 →
       Spec.Finishes s g (exec (.objsum v a b) s) [v] [] [] [] (fun t _ => SameMemory s t)))

/-- Loads and stores of capabilities and of bit fields (09). -/
def Obligations.CapabilityAndFieldAccesses : Prop :=
  Spec.capabilityLoadsAndStores ∧ Spec.bitFieldLoadsAndStores

/-- Bit addresses, capability moves and queries of objects (02, 09). -/
def Obligations.CapabilityMovesAndQueries : Prop :=
  Spec.bitAddressesAndCapabilityMoves ∧ Spec.objectQueries

/-! Channels (01 R37 to R49, 08 R267 to R271). -/

/-- The event takes place, the gang of a slot among what it leaves. -/
def Spec.Leaves (o : Host.Outcome State Fault Refusal) (c : CoreId) (k : SlotId) (P : State → Gang → Prop) : Prop :=
  ∃ t g', o = .next t ∧ t.gang? c k = some g' ∧ P t g'

/-- A fault with its OFFSET. -/
def Spec.faultsAt (s : State) (g : Gang) (o : Host.Outcome State Fault Refusal) (code : Code) (off : Nat) : Prop :=
  o = .next (s.faults g { flt code with offset := BitVec.ofNat 64 off })

/-- The number of a role (01 R49). -/
def Spec.roleNum : Role → Nat
  | .none => 0
  | .publisher => 1
  | .waiting => 2
  | .subscriber => 3

/-- The word has moved the gang on: it runs at the next word, no register but those named has changed, nor a byte of memory. -/
abbrev Spec.MovedOn (s : State) (g : Gang) (ss : List SReg) (t : State) (g' : Gang) : Prop :=
  s.meIn t = some g' ∧ g'.status = .running ∧ g'.regs.pc = g.regs.pc + 4 ∧ KeepsRegs [] ss [] [] g g' ∧ SameMemory s t

/-- The lanes where the condition of an UNSUB holds are all the active lanes. -/
abbrev Spec.allTake (g : Gang) (c : Cond) : Prop := ∀ n, Mask.has g.active n = true → Spec.test g c n

/-- Words of channels outside a transaction, where each completes and where it faults (01 R37 to R49, 08 R268 to R271). PUBLISH makes
the gang its core's one publisher, and changes nothing for a publisher or a subscriber; where another gang of the core publishes it
faults with cause 5. UNPUBLISH, and an UNSUB that every active lane takes, lead out of the cohort; an UNSUB of a gang in no cohort
faults with cause 8. RENDEZ completes and changes nothing. CHSTAT gives the fields of R49. SUBSCRIBE and RESUB begin the wait for a
registration, PC unmoved, that ends within the bounds of R39, where the channel is of the partition, its site stands, and, on another
die, a Runnel circuit joins the dies and fewer than 32 other channels come in; else they fault with causes 3, 1, 4, 2 and 7, and with
NOT_MAPPED where the channel's site has gone, the model's choice of log 60. -/
def Obligations.ChannelWords : Prop :=
  ∀ (s : State) (g : Gang), Runs0 s g → g.tx.active = false →
    (g.chan.role = .publisher ∨ g.chan.role = .subscriber ∨ (∀ k h, s.gang? s.cur.core k = some h → h.chan.role ≠ .publisher) →
      ∃ t g', exec .publish s = .next t ∧ Spec.MovedOn s g [] t g' ∧
        g'.chan.role = if g.chan.role = .subscriber then .subscriber else .publisher) ∧
    (g.chan.role ≠ .publisher → g.chan.role ≠ .subscriber → (∃ k h, s.gang? s.cur.core k = some h ∧ h.chan.role = .publisher) →
      Spec.faultsAt s g (exec .publish s) .channel 5) ∧
    (∃ t g', exec .unpublish s = .next t ∧ Spec.MovedOn s g [] t g' ∧
      g'.chan.role = if g.chan.role = .subscriber ∨ g.chan.role = .publisher then .none else g.chan.role) ∧
    (∀ c, g.chan.role = .subscriber ∨ g.chan.role = .publisher →
      ∃ t g', exec (.unsub c) s = .next t ∧ Spec.MovedOn s g [] t g' ∧
        (g.chan.role = .subscriber → Spec.allTake g c → g'.chan.role = .none) ∧
        (g.chan.role = .publisher ∨ ¬ Spec.allTake g c → g'.chan.role = g.chan.role)) ∧
    (∀ c, g.chan.role ≠ .subscriber → g.chan.role ≠ .publisher → Spec.faultsAt s g (exec (.unsub c) s) .channel 8) ∧
    (∀ x, ∃ t g', exec (.rendez x) s = .next t ∧ Spec.MovedOn s g [] t g' ∧ g'.chan.role = g.chan.role) ∧
    (∀ a, ∃ t g', exec (.chstat a) s = .next t ∧ Spec.MovedOn s g [a] t g' ∧ (a ≠ 0 → g.chan.buf.length ≤ 96 →
      bits (g'.s a) 2 0 = Spec.roleNum g.chan.role ∧ bits (g'.s a) 30 15 = g.chan.tag.toNat ∧
      bits (g'.s a) 37 31 = (if g.chan.role = .subscriber then g.chan.buf.length else 0) ∧ bits (g'.s a) 63 40 = 0 ∧
      ((g'.s a).getLsbD 38 = true ↔ g.chan.role = .publisher ∧ g.chan.held = true) ∧
      ((g'.s a).getLsbD 39 = true ↔ (g.chan.role = .waiting ∨ g.chan.role = .subscriber) ∧
        dieOf g.chan.chan ≠ dieOf s.cur.core) ∧
      (g.chan.role = .publisher → bits (g'.s a) 14 3 = (g.channelAt s.cur.core).toNat) ∧
      (g.chan.role = .waiting ∨ g.chan.role = .subscriber → bits (g'.s a) 14 3 = g.chan.chan.toNat))) ∧
    (∀ (i : Instr) (a b : SReg), i = .subscribe a b ∨ i = .resub a b →
      (let c : CoreId := (g.s a).truncate 12
       let me := s.cur.core
       let far : Prop := dieOf c ≠ dieOf me
       let joined : Prop := s.joined (s.partNo me) 1 (dieOf c).val (dieOf me).val = true
       let room : Prop := c ∈ s.inbound me ∨ (s.inbound me).length < 32
       ((g.s a).toNat < 2 ^ 12 → (g.s b).toNat < 2 ^ 16 → g.chan.role ≠ .publisher → s.samePart me c = true → s.noCore c = false →
         s.gone c = false → (far → joined ∧ room) →
         ∃ t g', exec i s = .next t ∧ s.meIn t = some g' ∧ g'.why? = some .registration ∧ g'.regs = g.regs ∧ SameMemory s t ∧
           g'.chan.role = .waiting ∧ g'.chan.chan = c ∧ g'.chan.tag = (g.s b).truncate 16 ∧ g'.chan.buf = [] ∧
           s.now me < g'.chan.reg ∧ g'.chan.reg ≤ s.now me + (if dieOf c = dieOf me then 16 else 128)) ∧
       (2 ^ 12 ≤ (g.s a).toNat ∨ 2 ^ 16 ≤ (g.s b).toNat → exec i s = .next (s.faults g (flt .illegal))) ∧
       ((g.s a).toNat < 2 ^ 12 → (g.s b).toNat < 2 ^ 16 →
         (g.chan.role = .publisher → Spec.faultsAt s g (exec i s) .channel 3) ∧
         (g.chan.role ≠ .publisher →
           (s.samePart me c = false → Spec.faultsAt s g (exec i s) .channel 1) ∧
           (s.samePart me c = true →
             (s.noCore c = true → Spec.faultsAt s g (exec i s) .channel 4) ∧
             (s.noCore c = false → s.gone c = true → Spec.faultsAt s g (exec i s) .notMapped c.toNat) ∧
             (s.noCore c = false → s.gone c = false → far →
               (¬ joined → Spec.faultsAt s g (exec i s) .channel 2) ∧
               (joined → ¬ room → Spec.faultsAt s g (exec i s) .channel 7)))))))

/-- Every buffer of the subscribers of the channel that g publishes on core c holds 64 entries or fewer, and none of another die has a packet on its way. -/
abbrev Spec.lifts (s : State) (c : CoreId) (g : Gang) : Prop :=
  ∀ d k h, s.samePart c d = true → s.gang? d k = some h → h.chan.role = .waiting ∨ h.chan.role = .subscriber →
    h.chan.chan = g.channelAt c → h.chan.buf.length ≤ 64 ∧ (dieOf d = dieOf c ∨ h.chan.due = [])

/-- Steps of the Runnel tree (01 R39, R44, R45). A registration whose TICK has come leaves the gang waiting for its RENDEZ; a packet
whose TICK has come enters the buffer, at most 96 deep; the RENDEZ of its tag, entering at or after the TICK of the registration, completes the
SUBSCRIBE: the gang runs on as a subscriber after that packet's PC, its other registers unchanged; another packet passes a waiting gang by. A
publisher's hold takes effect at its TICK while a buffer stands above 64, and lifts when none does. A packet that comes to a die after
its entry time, which is an outside event (log 22), is marked late where it is on its way to that die's subscriber, and nothing else of any
gang changes; one so marked freezes its subscriber with CHANNEL, OFFSET 6 (LATE), in place of being executed (01 R46). -/
def Obligations.StreamSteps : Prop :=
  ∀ (s : State) (c : CoreId) (k : SlotId) (g : Gang), s.gang? c k = some g →
    (g.why? = some .registration → g.chan.reg ≤ s.now c →
      Spec.Leaves (exec (.subscribeRegistration c k) s) c k (fun t g' =>
        g'.why? = some .rendez ∧ g'.regs = g.regs ∧ g'.chan = g.chan ∧ SameMemory s t)) ∧
    (∀ x p rest, g.chan.due = (x, p) :: rest → x ≤ s.now c →
      (g.chan.role = .subscriber → g.chan.buf.length < 96 →
        Spec.Leaves (exec (.streamPacketEntry c k) s) c k (fun t g' =>
          g'.chan.buf = g.chan.buf ++ [p] ∧ g'.chan.due = rest ∧ g'.regs = g.regs ∧ g'.status = g.status ∧ SameMemory s t)) ∧
      (g.chan.role = .waiting → g.why? = some .rendez ∨ g.why? = some .registration → p.word = 0x15000000 ||| g.chan.tag.zeroExtend 32 → g.chan.reg ≤ x →
        Spec.Leaves (exec (.streamPacketEntry c k) s) c k (fun t g' =>
          g'.chan.role = .subscriber ∧ g'.chan.due = rest ∧ g'.status = .running ∧ g'.regs = { g.regs with pc := p.pc + 4 } ∧
            SameMemory s t)) ∧
      (g.chan.role = .waiting → p.word ≠ 0x15000000 ||| g.chan.tag.zeroExtend 32 →
        Spec.Leaves (exec (.streamPacketEntry c k) s) c k (fun t g' =>
          g'.chan.due = rest ∧ g'.chan.buf = g.chan.buf ∧ g'.regs = g.regs ∧ g'.status = g.status ∧ SameMemory s t))) ∧
    (g.chan.role = .publisher →
      (∀ x, g.chan.held = false → g.chan.holdAt = some x → x ≤ s.now c → ¬ Spec.lifts s c g →
        Spec.Leaves (exec (.publisherHold c) s) c k (fun _ g' => g'.chan.held = true ∧ g'.regs = g.regs)) ∧
      (g.chan.held = true → Spec.lifts s c g →
        Spec.Leaves (exec (.publisherHold c) s) c k (fun _ g' => g'.chan.held = false ∧ g'.chan.holdAt = none ∧ g'.regs = g.regs))) ∧
    (∀ p rest, s.nextMove = .issue c k → g.chan.role = .subscriber → g.replay = false → g.chan.buf = p :: rest → p.late = true →
      g.tx.active = false →
      Spec.Leaves (step s) c k (fun t g' => g'.status = .frozen ∧ g'.fcode = .channel ∧
        (∃ r, g'.rec_ = some r ∧ r.flt.code = .channel ∧ r.flt.offset = 6 ∧ r.gangw = true) ∧ g'.regs = { g.regs with pc := p.pc } ∧
        SameMemory s t)) ∧
    (∀ x p rest, s.samePart c c = true → g.chan.role = .waiting ∨ g.chan.role = .subscriber → dieOf g.chan.chan ≠ dieOf c →
      (∀ y ∈ s.gangsOf (s.part c), dieOf y.1 = dieOf c → y.2.2.chan.role = .waiting ∨ y.2.2.chan.role = .subscriber →
        y.2.2.chan.chan = g.chan.chan → y = (c, k, g)) →
      g.chan.due = (x, p) :: rest → (∀ e ∈ rest, e.2.seq ≠ p.seq) →
      (let t := s.strike (.packetLate g.chan.chan (dieOf c))
       t.gang? c k = some { g with chan := { g.chan with due := (x, { p with late := true }) :: rest } } ∧
       (∀ d j, (d, j) ≠ (c, k) → t.gang? d j = s.gang? d j) ∧ SameMemory s t))

/-! Synchronisation (05 R146 to R153, 09 R318 to R322, 01 R36, 02 R58 to R62). -/

/-- The gang waits for a reason at an instruction. -/
abbrev Spec.stands (g : Gang) (w : Why) (i : Instr) : Prop := g.why? = some w ∧ decode g.waitWord = some i

/-- The event lets a waiting gang complete its word: it runs on at the next word with every numbered register as before but for
those named. -/
def Spec.GoesOn (c : CoreId) (k : SlotId) (g : Gang) (o : Host.Outcome State Fault Refusal) (vs : List VReg) (P : State → Gang → Prop) :
    Prop :=
  Spec.Leaves o c k (fun t g' => g'.status = .running ∧ g'.regs.pc = g.regs.pc + 4 ∧ KeepsRegs vs [] [] [] g g' ∧ P t g')

/-- No load or atomic of the gang is outstanding. -/
abbrev Spec.loaded (s : State) (c : CoreId) (k : SlotId) : Prop := ∀ f ∈ (s.ctx c).flights, f.2.slot ≠ k

/-- Every write that the gang made or observed is performed. -/
abbrev Spec.stored (s : State) (c : CoreId) (k : SlotId) : Prop := ∀ e ∈ (s.ctx c).buf, e.seen.getLsbD k.val = false

/-- The number of the scope that a FENCE names, or of MODE.SCOPE (05 R146, 09 R318). -/
def Spec.scope (g : Gang) : Option Scope → Nat
  | some .gang => 0
  | some .core => 1
  | some .crew => 2
  | some .die => 3
  | some .pkg => 4
  | some .sys => 5
  | none => modeScope g.regs.mode

/-- FENCE (05 R147, 09 R318, 03 R108). It completes, or goes on from its wait, when the gang's loads have returned and, for kinds rel
and full at CREW or wider, every write that it made or observed is performed; at SYS those kinds wait besides for their flushing
read. Kinds acq and full at CREW or wider leave the core's read cache empty; rel and full at DIE or wider put the held flags of
reductions into FSTAT. Otherwise the gang waits, nothing changed. -/
def Obligations.FencesWaitForAccesses : Prop :=
  ∀ (s : State) (g : Gang) (kind : FenceKind) (sc : Option Scope), g.tx.active = false → Spec.scope g sc ≤ 5 →
    (let n := Spec.scope g sc
     let wide : Prop := kind ≠ .acq ∧ 2 ≤ n
     let met (c : CoreId) (k : SlotId) : Prop := Spec.loaded s c k ∧ (wide → Spec.stored s c k)
     let effect (c : CoreId) (t : State) (g' : Gang) : Prop := SameMemory s t ∧ (kind ≠ .rel → 2 ≤ n → (t.core c).cache = []) ∧
       g'.regs.fstat = if kind ≠ .acq ∧ 3 ≤ n then g.regs.fstat ||| g.held else g.regs.fstat
     (Runs0 s g → met s.cur.core s.cur.slot → ¬ (kind ≠ .acq ∧ n = 5) →
       Spec.Finishes s g (exec (.fence kind sc) s) [] [] [] [] (effect s.cur.core)) ∧
     (Runs0 s g → g.cnt.relOk = false → ¬ met s.cur.core s.cur.slot ∨ (kind ≠ .acq ∧ n = 5) →
       Spec.Waits s g (exec (.fence kind sc) s) (if wide then (if n = 5 then .fenceSys else .fenceWrite) else .fenceRead)) ∧
     (∀ c k, s.gang? c k = some g → (∃ w, (w = .fenceRead ∨ w = .fenceWrite ∨ w = .fenceSys) ∧ Spec.stands g w (.fence kind sc)) →
       Spec.loaded s c k → Spec.stored s c k → Spec.GoesOn c k g (exec (.fenceComplete c k) s) [] (effect c)))

/-- The gang has nothing outstanding of the classes of an XFENCE's from mask: memory accesses, copies, tile operations, select inputs
(05 R150). -/
abbrev Spec.settled (s : State) (c : CoreId) (k : SlotId) (g : Gang) (f : BitVec 4) : Prop :=
  (f.getLsbD 0 = true → Spec.loaded s c k ∧ Spec.stored s c k) ∧
  (f.getLsbD 1 = true → ∀ y ∈ (s.ctx c).copies, y.2.slot ≠ k) ∧
  (f.getLsbD 2 = true → ∀ o ∈ (s.ctx c).ops, o.slot = k → o.held = true) ∧
  (f.getLsbD 3 = true → g.selIn = [])

/-- XFENCE, BARARV and BARWT outside a transaction (05 R148, R150, 01 R36, 09 R319, R320). XFENCE completes when the classes of its
from mask are done, or when a mask is empty. BARARV counts an arrival once the gang's loads have returned and its writes are
performed. BARWT of a gang that has not arrived completes; it completes, with the read cache empty, when every resident gang of
its crew, in phase I those of its die, has arrived as often and the gang's own loads have returned; else the gang waits, and the
release lets it go on. -/
def Obligations.EngineFencesAndBarriers : Prop :=
  ∀ (s : State) (g : Gang), g.tx.active = false →
    (∀ f t : BitVec 4, Runs0 s g → (f = 0 ∨ t = 0 ∨ Spec.settled s s.cur.core s.cur.slot g f) →
      Spec.Finishes s g (exec (.xfence f t) s) [] [] [] [] (fun u _ => SameMemory s u)) ∧
    (∀ f t : BitVec 4, Runs0 s g → f ≠ 0 → t ≠ 0 → ¬ Spec.settled s s.cur.core s.cur.slot g f →
      Spec.Waits s g (exec (.xfence f t) s) (.xfence f t s.clock)) ∧
    (∀ c k f t n, s.gang? c k = some g → Spec.stands g (.xfence f t n) (.xfence f t) → Spec.settled s c k g f →
      Spec.GoesOn c k g (exec (.xfenceComplete c k) s) [] (fun u _ => SameMemory s u)) ∧
    (Runs0 s g → Spec.loaded s s.cur.core s.cur.slot → Spec.stored s s.cur.core s.cur.slot →
      Spec.Finishes s g (exec .bararv s) [] [] [] [] (fun t g' => SameMemory s t ∧ g'.cnt.arrived = g.cnt.arrived + 1)) ∧
    (let there (c : CoreId) (x : Bool) : Prop := ∀ y ∈ s.residents (s.partNo c), y.2.2.ident.crew = g.ident.crew →
       (x = false → dieOf y.1 = dieOf (s.origin c)) → g.cnt.arrived ≤ y.2.2.cnt.arrived
     ∀ x : Bool,
       (let i := if x then Instr.barwtX else .barwtI
        let w := if x then Why.barX else .barI
        (Runs0 s g → g.cnt.arrived = 0 → Spec.Finishes s g (exec i s) [] [] [] [] (fun t _ => SameMemory s t)) ∧
        (Runs0 s g → g.cnt.arrived ≠ 0 → there s.cur.core x → Spec.loaded s s.cur.core s.cur.slot →
          Spec.Finishes s g (exec i s) [] [] [] [] (fun t _ => SameMemory s t ∧ (t.core s.cur.core).cache = [])) ∧
        (Runs0 s g → g.cnt.arrived ≠ 0 → ¬ (there s.cur.core x ∧ Spec.loaded s s.cur.core s.cur.slot) → Spec.Waits s g (exec i s) w) ∧
        (∀ c k, s.gang? c k = some g → g.cnt.arrived ≠ 0 → Spec.stands g w i → there c x → Spec.loaded s c k →
          Spec.GoesOn c k g (exec (.barwtRelease c k) s) [] (fun t _ => SameMemory s t ∧ (t.core c).cache = []))))

/-- FESET, FECLR and FEWAIT of a LOCAL range, WMSET and WMWAIT, outside a transaction (02 R58, R61, R62, 09 R321, R322). FESET, after
its release, leaves every granule of the range full, FECLR every one empty, and no other granule of any core changes; over an empty
range FESET and FEWAIT complete at once and change nothing; FEWAIT completes
when every granule is full and under no accepted copy, else waits. WMSET declares or removes a channel, and faults MISALIGNED, CAP_BOUNDS and
COPY_OVERLAP, and waits while copies toward its channel are outstanding; WMWAIT completes when the watermark has reached S[a], faults ILLEGAL with no channel and CAP_BOUNDS past its range,
else waits. A waiting gang goes on when its condition has come. -/
def Obligations.FullBitsAndWatermarks : Prop :=
  ∀ (s : State) (g : Gang), g.tx.active = false →
    (let gran (a : CReg) : List Nat := granulesOf (g.c a).origin (g.c a).length
     let range (a : CReg) (perm : Nat) : Prop := Spec.localCap (g.c a) perm ∧ (g.c a).origin + (g.c a).length ≤ 0x37000
     let full (c : CoreId) (n : Nat) : Prop := (s.ctx c).full.has n = true ∧ s.covered c n = false
     let put (b : Bool) (a : CReg) (t : State) : Prop := ∀ c n, (t.ctx c).full.has n =
       if c = s.cur.core ∧ n ∈ gran a then b else (s.ctx c).full.has n
     (∀ a, Runs0 s g → range a pW →
       (modeScope g.regs.mode < 5 → Spec.loaded s s.cur.core s.cur.slot → Spec.stored s s.cur.core s.cur.slot →
         Spec.Finishes s g (exec (.feset a) s) [] [] [] [] (fun t _ => SameMemory s t ∧ put true a t)) ∧
       Spec.Finishes s g (exec (.feclr a) s) [] [] [] [] (fun t _ => SameMemory s t ∧ put false a t)) ∧
     (∀ a, Runs0 s g → (g.c a).length = 0 →
       (range a pW → Spec.Finishes s g (exec (.feset a) s) [] [] [] [] (fun t g' => SameMemory s t ∧ put true a t ∧
         g'.regs.fstat = g.regs.fstat ∧ (t.core s.cur.core).cache = (s.core s.cur.core).cache)) ∧
       (range a pR → Spec.Finishes s g (exec (.fewait a) s) [] [] [] [] (fun t _ => SameMemory s t ∧
         (t.core s.cur.core).cache = (s.core s.cur.core).cache))) ∧
     (∀ a, Runs0 s g → range a pR →
       ((∀ n ∈ gran a, full s.cur.core n) → Spec.Finishes s g (exec (.fewait a) s) [] [] [] [] (fun t _ => SameMemory s t)) ∧
       ((∃ n ∈ gran a, ¬ full s.cur.core n) → Spec.Waits s g (exec (.fewait a) s) .fewait)) ∧
     (∀ c k a, s.gang? c k = some g → Spec.stands g .fewait (.fewait a) → range a pR → (∀ n ∈ gran a, full c n) →
       Spec.GoesOn c k g (exec (.fewaitComplete c k) s) [] (fun t _ => SameMemory s t)) ∧
     (∀ (ch : BitVec 4) (a b : SReg), Runs0 s g →
       (let base := (g.s a).toNat
        let len := (g.s b).toNat
        let meets : Prop := ∃ (n : Fin 16) (x : CopyChan), n ≠ ch.toFin ∧ (s.ctx s.cur.core).chans[n] = some x ∧
          base < x.base + x.len ∧ x.base < base + len
        (¬ (16 ∣ base ∧ 16 ∣ len) → exec (.wmset ch a b) s = .next (s.faults g (flt .misaligned))) ∧
        (16 ∣ base → 16 ∣ len → 0x37000 < base + len → Spec.faultsAt s g (exec (.wmset ch a b) s) .capBounds base) ∧
        (16 ∣ base → 16 ∣ len → base + len ≤ 0x37000 → len ≠ 0 → meets →
          exec (.wmset ch a b) s = .next (s.faults g (flt .copyOverlap))) ∧
        (16 ∣ base → 16 ∣ len → base + len ≤ 0x37000 → len = 0 ∨ ¬ meets → s.copiesToward s.cur.core ch.toNat = false →
          Spec.Finishes s g (exec (.wmset ch a b) s) [] [] [] [] (fun t _ => SameMemory s t ∧ ∀ n : Fin 16,
            (t.ctx s.cur.core).chans[n] =
              if n = ch.toFin then (if len = 0 then none else some { base := base, len := len }) else (s.ctx s.cur.core).chans[n])) ∧
        (16 ∣ base → 16 ∣ len → base + len ≤ 0x37000 → len = 0 ∨ ¬ meets → s.copiesToward s.cur.core ch.toNat = true →
          Spec.Waits s g (exec (.wmset ch a b) s) .wmset))) ∧
     (∀ (ch : BitVec 4) (a : SReg), Runs0 s g →
       ((s.ctx s.cur.core).chans[ch.toFin] = none → exec (.wmwait ch a) s = .next (s.faults g (flt .illegal))) ∧
       (∀ x, (s.ctx s.cur.core).chans[ch.toFin] = some x →
         (x.base + x.len < (g.s a).toNat → Spec.faultsAt s g (exec (.wmwait ch a) s) .capBounds (g.s a).toNat) ∧
         ((g.s a).toNat ≤ x.base + x.len → (g.s a).toNat ≤ x.mark →
           Spec.Finishes s g (exec (.wmwait ch a) s) [] [] [] [] (fun t _ => SameMemory s t)) ∧
         ((g.s a).toNat ≤ x.base + x.len → x.mark < (g.s a).toNat → Spec.Waits s g (exec (.wmwait ch a) s) .wmwait))) ∧
     (∀ c k (ch : BitVec 4) (a : SReg) x, s.gang? c k = some g → Spec.stands g .wmwait (.wmwait ch a) →
       (s.ctx c).chans[ch.toFin] = some x → (g.s a).toNat ≤ x.base + x.len → (g.s a).toNat ≤ x.mark →
       Spec.GoesOn c k g (exec (.wmwaitComplete c k) s) [] (fun t _ => SameMemory s t)))

/-! Accesses in flight (05 R143, R144) and waiting accesses (09 R300, 02 R62, 12 R417, 05 R154, R155, 06 R199). -/

/-- No access of the core that is older than number n and still outstanding meets z bytes at a place. -/
abbrev Spec.clear (s : State) (c : CoreId) (n : Nat) (l : Loc) (z : Nat) : Prop :=
  (∀ y ∈ (s.ctx c).flights, y.1 < n → l.meets z y.2.loc y.2.size = false) ∧
  (∀ e ∈ (s.ctx c).buf, e.seq < n → l.meets z e.loc e.size = false)

/-- The place is in this module or in host memory, and in no debug window. -/
abbrev Spec.here (l : Loc) : Prop :=
  (match l with | .phys a => isPeer a || isWindow a | _ => false) = false

/-- The memory of a place has its canonical form. -/
def Spec.placeOk (s : State) : Loc → Prop
  | .pad c _ => Memory.wf (s.ctx c).pad = true
  | .phys _ => Memory.wf s.dram = true
  | .host _ => Memory.wf s.host = true

/-- The number that n bytes at a place hold, least significant first (00 R5). -/
def Spec.value (s : State) (l : Loc) (n : Nat) : Nat := ofBytes ((List.range n).map (fun j => s.byteAt (l.add j)))

/-- Accesses that nothing older of their core meets are performed (05 R143, R144). A load gives its register the bytes at the place,
sign-extended or zero-extended, those of 8 and 16 bytes two and four V registers, low word first, and a capability load the bits and
the tag; no other register and no byte of memory changes. A buffered
store leaves its bytes at the place, with clear tags, or a capability with its tag, and leaves the buffer; no other byte changes. The
two halves of a capability that is no one granule leave together. A load or store that an older one of the core meets stays. A
read-cache line leaves at 65,536 TICKs and not before. -/
def Obligations.AccessesArePerformed : Prop :=
  ∀ (s : State) (c : CoreId) (n : Nat),
    (∀ (f : Flight) (g : Gang), Tbl.get? (s.ctx c).flights n = some f → s.gang? c f.slot = some g → f.cached = false → Spec.here f.loc →
      g.late = [] → Spec.clear s c n f.loc f.size →
      (let v := Spec.value s f.loc f.size
       let lands (P : Gang → Prop) (vs : List VReg) (ss : List SReg) (cs : List CReg) : Prop :=
         Spec.Leaves (exec (.loadPerform c n) s) c f.slot (fun t g' => SameMemory s t ∧ KeepsRegs vs ss [] cs g g' ∧
           g'.regs.pc = g.regs.pc ∧ (t.ctx c).flights = Tbl.del (s.ctx c).flights n ∧ P g')
       (∀ d, f.dst = .s d → f.act = .load false → f.size ≤ 8 → lands (fun g' => d ≠ 0 → g'.s d = BitVec.ofNat 64 v) [] [d] []) ∧
       (∀ d, f.dst = .s d → f.act = .load true → f.size ≤ 8 → lands (fun g' => d ≠ 0 → g'.s d = BitVec.ofInt 64 (signed (8 * f.size) v)) [] [d] []) ∧
       (∀ d sx sz, f.dst = .v d → f.act = .load sx → f.size = sizeBytes sz → lands (fun g' => ∀ i : Fin 32,
         ((∀ a ∈ f.lanes, a.lane ≠ i) → ∀ r, (g'.v r)[i] = (g.v r)[i]) ∧
         ((∃ a ∈ f.lanes, a.lane = i) →
           (f.size ≤ 2 → (g'.v d)[i] = if sx then BitVec.ofInt 32 (signed (8 * f.size) v) else BitVec.ofNat 32 v) ∧
           (4 ≤ f.size → ∀ k, k < sizeRegs sz → (g'.v (d + BitVec.ofNat 6 k))[i] = BitVec.ofNat 32 (v / 2 ^ (32 * k)))))
         (Spec.data d sz) [] []) ∧
       (∀ d k, f.dst = .c d → f.act = .capLoad k → f.size = 16 → lands (fun g' =>
         (g'.c d).val = BitVec.ofNat 128 v ∧ (g'.c d).tag = (s.getTag f.loc && k)) [] [] [d]))) ∧
    (∀ f, Tbl.get? (s.ctx c).flights n = some f → (∃ y ∈ (s.ctx c).flights, y.1 < n ∧ f.loc.meets f.size y.2.loc y.2.size = true) →
      exec (.loadPerform c n) s = .next s) ∧
    (∀ e, (s.ctx c).buf.find? (fun e => e.seq == n) = some e → Spec.here e.loc → Spec.placeOk s (s.landing c e.loc) →
      Spec.clear s c n e.loc e.size →
      (let l := s.landing c e.loc
       let goes (d : List Byte) (P : State → Prop) : Prop := Spec.Occurs (exec (.storePerform c n) s) (fun t =>
         (∀ j (h : j < d.length), t.byteAt (l.add j) = d[j]) ∧ SameMemoryBut (Spec.places l d.length) s t ∧
         (t.ctx c).buf = (s.ctx c).buf.filter (fun x => x != e) ∧ P t)
       (∀ d, e.kind = .bytes d → goes d (fun t => ∀ j, j < d.length → t.getTag (l.add j) = false)) ∧
       (∀ d k, e.kind = .cap d k → (∀ a, l ≠ .host a) → goes d (fun t => t.getTag l = k)))) ∧
    (∀ e, (s.ctx c).buf.find? (fun e => e.seq == n) = some e → (∀ d k m, e.kind ≠ .half d k m) → ¬ Spec.clear s c n e.loc e.size →
      exec (.storePerform c n) s = .next s) ∧
    (∀ e y d b k j m, (s.ctx c).buf.find? (fun e => e.seq == n) = some e → (s.ctx c).buf.find? (fun e => e.seq == m) = some y → n < m →
      e.kind = .half d k m → y.kind = .half b j n →
      (let l := s.landing c e.loc
       let h := s.landing c y.loc
       Spec.here l → Spec.here h → Spec.placeOk s l → Spec.placeOk s h → l.meets d.length h b.length = false →
       Spec.clear s c n e.loc e.size → Spec.clear s c m y.loc y.size →
       Spec.Occurs (exec (.storePerform c n) s) (fun t => (∀ i (p : i < d.length), t.byteAt (l.add i) = d[i]) ∧
         (∀ i (p : i < b.length), t.byteAt (h.add i) = b[i]) ∧ SameMemoryBut (Spec.places l d.length ++ Spec.places h b.length) s t ∧
         (t.ctx c).buf = (s.ctx c).buf.filter (fun x => x != e && x != y)))) ∧
    (∀ l, Tbl.get? (s.core c).cache n = some l →
      (l.fill + 65536 ≤ s.now c → Spec.Occurs (exec (.readCacheLineExpiry c n) s) (fun t => SameMemory s t ∧
        (t.core c).cache = Tbl.del (s.core c).cache n)) ∧
      (s.now c < l.fill + 65536 → exec (.readCacheLineExpiry c n) s = .next s))

/-- The LOCAL offset of an S-index access with AM 0. -/
def Spec.offset (g : Gang) (m : SMem) (z : Nat) : Int := ((g.c m.cap).origin : Int) + ((g.s m.idx).truncate 32).toInt * z

/-- What SLD (sx false) or SLDS gives its register for a value of z bytes (09 R298). -/
def Spec.extended (z : Nat) (sx : Bool) (v : Nat) : DWord :=
  if sx then BitVec.ofInt 64 (signed (8 * z) v) else BitVec.ofNat 64 v

/-- Waiting loads and stores go on. A LOCAL .fe or .fk load whose granules are full, and a plain one under no watermark, take the
bytes, .fe leaving the granules empty and .fk full (09 R300, 02 R62). A SYS load takes the host's bytes when its read completes, and
faults NOT_MAPPED when it is refused and DATA_ERROR when it is poisoned or times out (12 R417). The one sequentially consistent
store of a partition's earliest window is at its home when the window completes, and not before (05 R154, R155). An ordered event is
released when no gang of its partition stands before it in LT, site and slot that runs, or whose wait, of those that R199 passes over,
has come to its end (06 R199). -/
def Obligations.WaitingAccessesComplete : Prop :=
  ∀ (s : State) (c : CoreId) (k : SlotId) (g : Gang), s.gang? c k = some g → g.tx.active = false → g.txLane = none →
    (∀ (d : SReg) (m : SMem) (sz : Size) (sx : Bool) (q : LoadQ), Spec.quietAt s c → sz ≠ .q → m.am = 0 → Spec.localCap (g.c m.cap) pR →
      (let i := if sx then Instr.slds d m sz q else .sld d m sz q
       let z := sizeBytes sz
       let o := Spec.offset g m z
       let took (out : Host.Outcome State Fault Refusal) (full : Bool) : Prop := Spec.Leaves out c k (fun t g' =>
         g'.status = .running ∧ g'.regs.pc = g.regs.pc + 4 ∧ KeepsRegs [] [d] [] [] g g' ∧ SameMemory s t ∧
         (d ≠ 0 → g'.s d = Spec.extended z sx (ofBytes ((s.ctx c).pad.read o.toNat z))) ∧
         ∀ n ∈ granulesOf o.toNat z, full = true → (t.ctx c).full.has n = (q == .fk))
       Spec.inPad (g.c m.cap) o z z →
       (q = .fe ∨ q = .fk → Spec.stands g .full i →
         (∀ n ∈ granulesOf o.toNat z, (s.ctx c).full.has n = true ∧ s.covered c n = false) →
         took (exec (.qualifiedLoadComplete c k) s) true) ∧
       (q = .plain → Spec.stands g .watermark i → took (exec (.watermarkLoadRelease c k) s) false))) ∧
    (∀ (d : SReg) (m : SMem) (sz : Size) (sx : Bool) (a : Nat), Spec.quietAt s c → ¬ (m.am = 3 ∧ m.idx = 31) →
      (let i := if sx then Instr.slds d m sz .plain else .sld d m sz .plain
       let z := sizeBytes sz
       let freezes (o : Host.Outcome State Fault Refusal) (code : Code) : Prop := Spec.Leaves o c k (fun t g' =>
         g'.status = .frozen ∧ g'.fcode = code ∧ g'.regs = g.regs ∧ SameMemory s t)
       Spec.stands g .sysRead i → (g.c m.cap).tag = true → (g.c m.cap).space = 4 →
       s.reach c (g.c m.cap) m.cap.toNat m.am.toNat pR = .ok .sys →
       s.target c (g.c m.cap) m.cap.toNat m.am.toNat .load (modeOosz g.regs.mode) .sys z (g.sIndex m).1 (g.sIndex m).2 = .at_ (.host a) 0 →
       (sz ≠ .q → Spec.Leaves (exec (.sysReadCompletion c k .ok) s) c k (fun t g' => g'.status = .running ∧ g'.regs.pc = g.regs.pc + 4 ∧
         KeepsRegs [] [d] [] [] g g' ∧ SameMemory s t ∧ (d ≠ 0 → g'.s d = Spec.extended z sx (ofBytes (s.host.read a z))))) ∧
       freezes (exec (.sysReadCompletion c k .refused) s) .notMapped ∧
       freezes (exec (.sysReadCompletion c k .poisoned) s) .dataError ∧
       freezes (exec (.sysReadTimeout c k) s) .dataError)) ∧
    (∀ (p : Fin 4) (w : Nat) (d : SReg) (m : SMem) (sz : Size), s.samePart c c = true → s.partNo c = p → Spec.quietAt s c → sz ≠ .q → m.am = 0 →
      Spec.localCap (g.c m.cap) pW → s.noNotify c = false → Memory.wf (s.ctx c).pad = true → Spec.stands g (.sc w) (.sst d m sz .sc) →
      (∀ c' k' h, s.samePart c c' = true → s.gang? c' k' = some h → (∃ x, h.why? = some (.sc x)) → c' = c ∧ k' = k) →
      (let z := sizeBytes sz
       let o := Spec.offset g m z
       Spec.inPad (g.c m.cap) o z z →
       (32 * (w + 1) + 96 ≤ (s.parts[p]).tick → Spec.GoesOn c k g (exec (.scWindowComplete p) s) [] (fun t _ =>
         (∀ j, j < z → (t.ctx c).pad.get (o.toNat + j) = BitVec.ofNat 8 ((g.s d).toNat / 2 ^ (8 * j))) ∧
         SameMemoryBut (Spec.places (.pad c o.toNat) z) s t ∧ (t.core c).cache = [])) ∧
       ((s.parts[p]).tick < 32 * (w + 1) + 96 → exec (.scWindowComplete p) s = .next s))) ∧
    (g.why? = some .ordered →
      (let before (h : CoreId × SlotId × Gang) : Prop := h.2.2.cnt.lt < g.cnt.lt ∨ (h.2.2.cnt.lt = g.cnt.lt ∧
         (h.1.toNat < (s.origin c).toNat ∨ (h.1 = s.origin c ∧ h.2.1.val < k.val)))
       let first : Prop := (∀ h ∈ s.residents (s.partNo c), before h → h.2.2.lets = true) ∧
         ∀ h ∈ s.gangsOf s.parts[s.partNo c], before (s.origin h.1, h.2) → h.2.2.lets = true → s.wakeDue h.1 h.2.1 h.2.2 = false
       (first → Spec.Leaves (exec (.orderedEventRelease c k) s) c k (fun t g' => g'.status = .running ∧ g'.cnt.ordOk = true ∧
         g'.regs = g.regs ∧ SameMemory s t)) ∧
       (¬ first → exec (.orderedEventRelease c k) s = .next s)))

/-! Atomics, reductions and routines (05 R157 to R161, 09 R311 to R314, 07 R227). -/

/-- The new value of an atomic operation: integers wrap; f32 sums, minima and maxima are those of round-to-nearest with subnormals
honoured (05 R158). -/
def Spec.combine (op : AtomOp) (ty : AtomTy) (old v : Nat) : Nat :=
  let n := if ty = .i64 ∨ ty = .n64 then 64 else 32
  let read (x : Nat) : Int := if ty = .i32 ∨ ty = .i64 then signed n x else ((x % 2 ^ n : Nat) : Int)
  let wrap (x : Int) : Nat := (x % (2 ^ n : Nat)).toNat
  match op with
  | .swap => v
  | .and => old &&& v
  | .or => old ||| v
  | .xor => old ^^^ v
  | .add => if ty = .f32 then (fpAdd f32 ⟨0, false⟩ old v ⟨0, 0⟩).1 else wrap (read old + read v)
  | .min => if ty = .f32 then (fpMinMax false f32 ⟨0, false⟩ old v ⟨0, 0⟩).1 else wrap (min (read old) (read v))
  | .max => if ty = .f32 then (fpMinMax true f32 ⟨0, false⟩ old v ⟨0, 0⟩).1 else wrap (max (read old) (read v))

/-- What one lane of an atomic makes of the value it meets. -/
def Spec.atomStep (a : Act) (old : Nat) (x : LaneArg) : Nat :=
  match a with
  | .atom op ty => Spec.combine op ty old x.a
  | .cas => if old = x.b then x.a else old
  | _ => old

/-- The word of an atomic with an ordering qualifier. -/
def Spec.atomWord (q : AtomQ) (op : AtomOp) (d : VReg) (m : VMem) (sz : Size) : Instr :=
  match q with
  | .none => .atom op d m sz
  | .acq => .atomAcq op d m sz
  | .rel => .atomRel op d m sz
  | .ar => .atomAr op d m sz
  | .sc => .atomSc op d m sz

/-- An atomic word of an ordering qualifier, its V registers, the operations legal for it, and its access. -/
def Spec.isAtomic (i : Instr) (q : AtomQ) (d : VReg) (m : VMem) (sz : Size) (vs : List Nat) (legal : AtomTy → Bool)
    (mk : AtomTy → Act) : Prop :=
  (∃ op, i = Spec.atomWord q op d m sz ∧ vs = vNames d (sizeRegs sz * 2) m ∧ legal = atomLegal op ∧ mk = Act.atom op) ∨
  (i = .atomc q d m sz ∧ vs = vNames d (sizeRegs sz * 2) m ∧ legal = (fun _ => true) ∧ mk = (fun _ => .cas))

/-- Every active lane's place has an access of the executing gang in flight, or in the buffer for a reduction. -/
def Spec.sent (s t : State) (ts : List (Fin 32 × LaneRes)) (P : Act → Prop) : Prop :=
  ∀ x ∈ ts, ∀ l, x.2.loc? = some l → ∃ f ∈ (t.ctx s.cur.core).flights, f.2.loc = l ∧ f.2.slot = s.cur.slot ∧ P f.2.act ∧
    ∃ a ∈ f.2.lanes, a.lane = x.1

/-- The words, where the type, permission, space and target checks of 09 R311 pass (State.atomTargets). ATOM and ATOMC retire with
their accesses in flight, no register and no byte changed; with .rel or .ar, and RED.REL, they first wait at the word as a FENCE.rel at
MODE.SCOPE does (05 R159): for the gang's loads, from CREW on for its writes too, and at SYS for the flushing read whatever is done,
nothing changed by then, and go on when that is over; with
.acq or .ar they wait at the word, and go on, the read cache empty at CREW or wider, when the results have returned; with .sc they are announced. RED and RED.REL
retire with their reductions buffered, ATOMR with its lines in flight where its slot holds a routine, and faults ILLEGAL where it
holds none (09 R312 to R314, 05 R159 to R161). -/
def Obligations.AtomicWords : Prop :=
  ∀ (s : State) (g : Gang), g.tx.active = false →
    (let n := modeScope g.regs.mode
     let released : Prop := g.cnt.relOk = true ∨ (n < 5 ∧ Spec.loaded s s.cur.core s.cur.slot ∧ (2 ≤ n → Spec.stored s s.cur.core s.cur.slot))
     let older : Why := if n < 2 then .fenceRead else if n < 5 then .fenceWrite else .fenceSys
     (∀ i q d m sz vs legal mk ty ts, Spec.isAtomic i q d m sz vs legal mk → Runs s g .u vs →
       s.atomTargets g m sz legal (q == .sc) = .ok (ty, ts) →
       (q = .none ∨ (q = .rel ∧ released) → Spec.Finishes s g (exec i s) [] [] [] [] (fun t _ =>
         SameMemory s t ∧ Spec.sent s t ts (fun a => a = mk ty))) ∧
       (q = .acq ∨ (q = .ar ∧ released) → ∃ t g', exec i s = .next t ∧ s.meIn t = some g' ∧ g'.why? = some .acquire ∧
         g'.regs.pc = g.regs.pc ∧ KeepsRegs [] [] [] [] g g' ∧ SameMemory s t ∧ Spec.sent s t ts (fun a => a = mk ty)) ∧
       (q = .rel ∨ q = .ar → ¬ released → Spec.Waits s g (exec i s) older) ∧
       (q = .sc → Spec.Announces s g (exec i s))) ∧
     (∀ c k, s.gang? c k = some g → g.why? = some .fenceRead ∨ g.why? = some .fenceWrite ∨ g.why? = some .fenceSys →
       (∀ kind sc, decode g.waitWord ≠ some (.fence kind sc)) → Spec.loaded s c k → Spec.stored s c k →
       Spec.Leaves (exec (.fenceComplete c k) s) c k (fun t g' => g'.status = .running ∧ g'.cnt.relOk = true ∧ g'.regs = g.regs ∧
         SameMemory s t)) ∧
     (∀ c k, s.gang? c k = some g → g.why? = some .acquire → Spec.loaded s c k →
       Spec.GoesOn c k g (exec (.fenceComplete c k) s) [] (fun t _ => SameMemory s t ∧
         (2 ≤ modeScope g.regs.mode → (t.core c).cache = []))) ∧
     (∀ i op d m sz ty ts, (i = .red op d m sz ∨ i = .redRel op d m sz) → Runs s g .u (vNames d (sizeRegs sz) m) →
       s.atomTargets g m sz (atomLegal op) false = .ok (ty, ts) →
       (i = .redRel op d m sz → ¬ released → Spec.Waits s g (exec i s) older) ∧
       (i = .red op d m sz ∨ released → Spec.Finishes s g (exec i s) [] [] [] [] (fun t _ => SameMemory s t ∧
         ∀ x ∈ ts, ∀ l, x.2.loc? = some l → ∃ e ∈ (t.ctx s.cur.core).buf, ∃ vals, e.loc = l ∧ e.slot = s.cur.slot ∧
           e.kind = .red op ty vals))) ∧
     (∀ cap v x n, Runs s g .u [v.toNat, v.toNat + 1, x.toNat] → modeEtype g.regs.mode ≠ 13 → modeEtype g.regs.mode ≠ 14 →
       (Tbl.get? (s.part s.cur.core).routines n.toNat = none → exec (.atomr cap v x n) s = .next (s.faults g (flt .illegal))) ∧
       (∀ code o, Tbl.get? (s.part s.cur.core).routines n.toNat = some code → (g.c cap).space = 2 →
         s.reach s.cur.core (g.c cap) cap.toNat 0 (pA + pR + pW) = .ok (.object o) →
         (let ts := s.laneTargets g (g.c cap) cap.toNat 0 .other false true true (.object o) (fmtBits o.fmt / 8)
            (fun i => ((g.v x)[i].toInt, 0))
          s.laneStops ts = none → Spec.Finishes s g (exec (.atomr cap v x n) s) [] [] [] [] (fun t _ => SameMemory s t)))))

/-- Performing atomics (05 R157, R160, R161). At the home the lanes apply one after another to one place: each lane takes the value
that it met, the place ends with the last one's, and no other byte changes, whatever else happens. A reduction applies its values the
same way and writes no register. A routine changes no byte and no tag of a granule that it has not stored to. A sequentially consistent atomic of LOCAL scratchpad, alone in its partition's earliest window,
completes with the window. -/
def Obligations.AtomicsArePerformed : Prop :=
  (∀ (s : State) (c : CoreId) (n : Nat),
    (∀ (f : Flight) (g : Gang) (d : VReg), Tbl.get? (s.ctx c).flights n = some f → s.gang? c f.slot = some g → f.dst = .v d →
      ((∃ op ty, f.act = .atom op ty) ∨ f.act = .cas) → f.size = 4 ∨ f.size = 8 → Spec.here f.loc → Spec.placeOk s (s.landing c f.loc) →
      (f.lanes.map LaneArg.lane).Nodup → g.late = [] → Spec.clear s c n f.loc f.size →
      s.lostAt (s.landing c f.loc) f.size = false →
      (let l := s.landing c f.loc
       let met (j : Nat) : Nat := (f.lanes.take j).foldl (Spec.atomStep f.act) (Spec.value s l f.size)
       Spec.Leaves (exec (.atomicPerform c n) s) c f.slot (fun t g' =>
         Spec.value t l f.size = met f.lanes.length % 2 ^ (8 * f.size) ∧ SameMemoryBut (Spec.places l f.size) s t ∧
         (t.ctx c).flights = Tbl.del (s.ctx c).flights n ∧ KeepsRegs (if f.size = 4 then [d] else [d, d + 1]) [] [] [] g g' ∧
         (∀ j (h : j < f.lanes.length), (g'.v d)[(f.lanes[j]).lane] = BitVec.ofNat 32 (met j) ∧
           (f.size = 8 → (g'.v (d + 1))[(f.lanes[j]).lane] = BitVec.ofNat 32 (met j / 2 ^ 32)))))) ∧
    (∀ (f : Flight) (code : List Word) (q : Nat), Tbl.get? (s.ctx c).flights n = some f → f.act = .routine code → f.size = 128 →
      f.loc = .phys (128 * q) → Spec.here f.loc → Memory.wf s.dram = true → Spec.clear s c n f.loc f.size →
      (let e := runRoutine code (s.homeRead f.loc 128) f.lanes
       let stored := (List.range 8).filter (fun i => e.wrote.contains i)
       Spec.Occurs (exec (.atomicPerform c n) s) (fun t => (t.ctx c).flights = Tbl.del (s.ctx c).flights n ∧
         SameMemoryBut (stored.flatMap (fun i => Spec.places (.phys (128 * q + 16 * i)) 16)) s t ∧
         ∀ i, i < 8 → i ∉ stored → t.getTag (.phys (128 * q + 16 * i)) = s.getTag (.phys (128 * q + 16 * i))))) ∧
    (∀ e op ty vals, (s.ctx c).buf.find? (fun e => e.seq == n) = some e → e.kind = .red op ty vals → e.size = 4 ∨ e.size = 8 →
      Spec.here e.loc → Spec.placeOk s (s.landing c e.loc) → Spec.clear s c n e.loc e.size → s.lostAt (s.landing c e.loc) e.size = false →
      (let l := s.landing c e.loc
       Spec.Occurs (exec (.reductionPerform c n) s) (fun t =>
         Spec.value t l e.size = vals.foldl (Spec.combine op ty) (Spec.value s l e.size) % 2 ^ (8 * e.size) ∧
         SameMemoryBut (Spec.places l e.size) s t ∧ (t.ctx c).buf = (s.ctx c).buf.filter (fun x => x.seq != n) ∧
         ∀ d j h, s.gang? d j = some h → ∃ h', t.gang? d j = some h' ∧ h'.regs = h.regs)))) ∧
  (∀ (s : State) (c : CoreId) (k : SlotId) (g : Gang) (w : Nat) i d m sz vs legal mk ty,
    s.gang? c k = some g → g.tx.active = false → s.samePart c c = true → Spec.quietAt s c → Spec.stands g (.sc w) i →
    Spec.isAtomic i .sc d m sz vs legal mk → atomTy sz (modeEtype g.regs.mode) = some ty → legal ty = true → m.am = 0 →
    Spec.localCap (g.c m.cap) (pA + pR + pW) → s.noNotify c = false → 32 * (w + 1) + 96 ≤ s.now c →
    (∀ c' k' h, s.samePart c c' = true → s.gang? c' k' = some h → (∃ x, h.why? = some (.sc x)) → c' = c ∧ k' = k) →
    (let z := sizeBytes sz
     let off (n : Fin 32) : Int := ((g.c m.cap).origin : Int) + (g.v m.idx)[n].toInt * z
     (∀ n, Mask.has g.active n = true → Spec.inPad (g.c m.cap) (off n) z z) →
     Spec.GoesOn c k g (exec (.scWindowComplete (s.partNo c)) s) (Spec.data d sz) (fun t _ =>
       SameMemoryBut ((laneList.filter (Mask.has g.active)).flatMap (fun n => Spec.places (.pad c (off n).toNat) z)) s t)))

/-! Transactions (05 R163 to R172, 09 R315 to R317). -/

/-- The gang has issued nothing that the release before a transaction's ends waits for (05 R147). -/
abbrev Spec.drained (s : State) (c : CoreId) (k : SlotId) : Prop := Spec.loaded s c k ∧ Spec.stored s c k

/-- What TXBEGIN leaves: a TX entry with EXM, an open empty transaction in each lane of EXM, TXSTAT OPEN there, the other lanes' as
before, and the core's log taken (05 R163, R164). -/
def Spec.begun (t : State) (c : CoreId) (k : SlotId) (g g' : Gang) : Prop :=
  g'.stack = ⟨g.regs.exm, .tx, 0⟩ :: g.stack ∧ g'.tx.active = true ∧ g'.tx.irrev = none ∧ g'.tx.begin_ = g.regs.pc ∧
  (t.ctx c).txOwner = some k ∧ ∀ i : Fin 32,
    g'.tx.lanes[i] = (if Mask.has g.regs.exm i then { isOpen := true } else g.tx.lanes[i]) ∧
    g'.tx.stat[i] = (if Mask.has g.regs.exm i then 0x8000 else g.tx.stat[i])

/-- TXBEGIN, TXABORT and TXSTAT (05 R163, R164, R167, R172, 09 R315 to R317). TXBEGIN opens where the core's log is free, waits where another gang
holds it, and faults ILLEGAL inside a transaction, in a subscriber, and with a full mask stack; the grant of the log opens that of its
one waiter. TXABORT takes the active open lanes, but an irrevocable one, out of EXM with CAUSE 3 and its code, their logs
discarded, and faults ILLEGAL outside; TXSTAT gives the active lanes their status. No byte of memory changes. -/
def Spec.transactionsOpenAndAbort : Prop :=
  (∀ (s : State) (g : Gang), Runs0 s g →
    (let c := s.cur.core
     let k := s.cur.slot
     (g.tx.active = true ∨ g.chan.role = .subscriber ∨ 32 ≤ g.stack.length →
       exec .txbegin s = .next (s.faults g (flt .illegal))) ∧
     (g.tx.active = false → g.chan.role ≠ .subscriber → g.stack.length < 32 → Spec.drained s c k →
       ((s.ctx c).txOwner = some k ∨ ((s.ctx c).txOwner = none ∧ ∀ j h, s.gang? c j = some h → h.why? ≠ some .txLog) →
         Spec.Finishes s g (exec .txbegin s) [] [] [] [] (fun t g' => SameMemory s t ∧ Spec.begun t c k g g')) ∧
       (∀ j, (s.ctx c).txOwner = some j → j ≠ k → ∃ t g', exec .txbegin s = .next t ∧ s.meIn t = some g' ∧ g'.why? = some .txLog ∧
         g'.regs.pc = g.regs.pc ∧ g'.tx = g.tx ∧ g'.stack = g.stack ∧ SameMemory s t)) ∧
     (∀ code : BitVec 8, (∀ e ∈ g.stack, e.kind ≠ .tx) → exec (.txabort code) s = .next (s.faults g (flt .illegal))) ∧
     (∀ code : BitVec 8, (∃ e ∈ g.stack, e.kind = .tx) →
       (let out (i : Fin 32) : Bool := Mask.has g.active i && (g.tx.lanes[i]).isOpen && g.tx.irrev != some i
        Spec.Finishes s g (exec (.txabort code) s) [] [] [] [] (fun t g' => SameMemory s t ∧
          g'.regs.exm = g.regs.exm &&& ~~~ maskOf out ∧ g'.stack.length = g.stack.length ∧ ∀ i : Fin 32,
            (out i = false → g'.tx.lanes[i] = g.tx.lanes[i] ∧ g'.tx.stat[i] = g.tx.stat[i]) ∧
            (out i = true → (g'.tx.lanes[i]).isOpen = false ∧ (g'.tx.lanes[i]).reads = [] ∧ (g'.tx.lanes[i]).writes = [] ∧
              bits (g'.tx.stat[i]) 3 0 = 3 ∧ bits (g'.tx.stat[i]) 16 15 = 0 ∧ bits (g'.tx.stat[i]) 24 17 = code.toNat)))))) ∧
  (∀ (s : State) (g : Gang) (d : VReg), Runs s g .u [d.toNat] → modeEtype g.regs.mode ≠ 13 → modeEtype g.regs.mode ≠ 14 →
    exec (.txstat d) s = .next (s.retires (g.setV d (fun i => g.tx.stat[i])))) ∧
  (∀ (s : State) (c : CoreId) (k : SlotId) (g : Gang), s.gang? c k = some g → s.unstopped c g = true → Spec.stands g .txLog .txbegin → (s.ctx c).txOwner = none →
    (∀ j h, s.gang? c j = some h → h.why? = some .txLog → j = k) → g.tx.active = false → g.chan.role ≠ .subscriber →
    g.stack.length < 32 → Spec.drained s c k →
    Spec.GoesOn c k g (exec (.txLogGrant c) s) [] (fun t g' => SameMemory s t ∧ Spec.begun t c k g g'))

/-- TXEND of a gang with one open lane n (05 R167, R169, R170, 09 R315). Where every word that the lane read still holds the value read,
its written bytes are in memory and no others change, the entry is popped, EXM is the entry's mask, and the construct is closed;
where a word differs no byte changes, and the lane, with CAUSE 1 and TRIES one up, runs again alone from the word after TXBEGIN, or
from 8 tries on waits for the irrevocable token, whose grant lets it run with its accesses unlogged. With no TX entry on top it faults
ILLEGAL. -/
def Spec.transactionsCommitOrRetry : Prop :=
  (∀ (s : State) (g : Gang) (off : BitVec 20), Runs0 s g → (∀ e es, g.stack = e :: es → e.kind ≠ .tx) →
    exec (.txend off) s = .next (s.faults g (flt .illegal))) ∧
  (∀ (s : State) (g : Gang) (off : BitVec 20) (e : Entry) (es : List Entry) (n : Fin 32), Runs0 s g → g.stack = e :: es → e.kind = .tx →
    (∀ i : Fin 32, ((g.tx.lanes[i]).isOpen = true ↔ i = n) ∧ (g.tx.lanes[i]).held = none ∧ (g.tx.stat[i]).getLsbD 16 = false) →
    Mask.has g.regs.exm n = true → g.tx.irrev = none → (s.part s.cur.core).token = false → (s.part s.cur.core).det = false →
    (s.ctx s.cur.core).flights = [] → (s.ctx s.cur.core).buf = [] →
    (let x := g.tx.lanes[n]
     let stat := g.tx.stat[n]
     let valid : Prop := ∀ r ∈ x.reads, Spec.here r.1 ∧ Spec.value s r.1 8 = r.2.toNat
     let stale : Prop := ∃ r ∈ x.reads, Spec.here r.1 ∧ Spec.value s r.1 8 ≠ r.2.toNat
     let wrote : List Loc := x.writes.flatMap (fun w => ((List.range 8).filter (fun j => w.2.2.getLsbD j)).map w.1.add)
     (valid → (∀ w ∈ x.writes, Spec.here w.1 ∧ Spec.here (w.1.add 7) ∧ Spec.placeOk s w.1) →
       x.writes.Pairwise (fun a b => a.1.meets 8 b.1 8 = false) →
       Spec.Finishes s g (exec (.txend off) s) [] [] [] [] (fun t g' =>
         g'.stack = es ∧ g'.tx.active = false ∧ g'.regs.exm = e.mask &&& ~~~ g.regs.pkm ∧ (t.ctx s.cur.core).txOwner = none ∧
         (g'.tx.stat[n]).getLsbD 15 = false ∧ bits (g'.tx.stat[n]) 3 0 = 0 ∧ (t.core s.cur.core).cache = [] ∧
         (∀ w ∈ x.writes, ∀ j, j < 8 → w.2.2.getLsbD j = true →
           t.byteAt (w.1.add j) = BitVec.ofNat 8 (w.2.1.toNat / 2 ^ (8 * j))) ∧
         SameMemoryBut wrote s t)) ∧
     (stale → bits stat 13 10 < 7 → ∃ t g', exec (.txend off) s = .next t ∧ s.meIn t = some g' ∧ g'.status = .running ∧
       g'.regs.pc = branchTarget g.regs.pc off + 4 ∧ g'.regs.exm = BitVec.twoPow 32 n.val &&& ~~~ g.regs.pkm ∧
       g'.tx.active = true ∧ g'.tx.lanes[n] = { isOpen := true } ∧ bits (g'.tx.stat[n]) 3 0 = 1 ∧
       bits (g'.tx.stat[n]) 13 10 = bits stat 13 10 + 1 ∧ bits (g'.tx.stat[n]) 16 15 = 1 ∧ KeepsRegs [] [] [] [] g g' ∧
       SameMemory s t) ∧
     (stale → 7 ≤ bits stat 13 10 → ∃ t g', exec (.txend off) s = .next t ∧ s.meIn t = some g' ∧ g'.why? = some .token ∧
       g'.regs.pc = g.regs.pc ∧ (g'.tx.lanes[n]).isOpen = false ∧ SameMemory s t))) ∧
  (∀ (s : State) (c : CoreId) (k : SlotId) (g : Gang) (off : BitVec 20) (e : Entry) (es : List Entry) (n : Fin 32),
    s.gang? c k = some g → s.samePart c c = true → Spec.stands g .token (.txend off) → g.stack = e :: es → e.kind = .tx →
    (∀ i : Fin 32, (g.tx.lanes[i]).isOpen = false) → (s.part c).token = false → g.tx.irrev = none → s.unstopped c g = true → (s.part c).det = false →
    (∀ d j h, s.samePart c d = true → s.gang? d j = some h → h.why? = some .token → d = c ∧ j = k) →
    (s.ctx c).flights = [] → (s.ctx c).buf = [] → g.tokenLane = some n →
    Spec.Leaves (exec (.irrevocableTokenGrant (s.partNo c)) s) c k (fun t g' => g'.status = .running ∧
      g'.regs.pc = branchTarget g.regs.pc off + 4 ∧ g'.tx.irrev = some n ∧ (g'.tx.stat[n]).getLsbD 14 = true ∧
      (t.part c).token = true ∧ KeepsRegs [] [] [] [] g g' ∧ SameMemory s t))

/-- The 8-byte word of a scratchpad that holds offset b (05 R165). -/
def Spec.txWord (c : CoreId) (b : Nat) : Loc := .pad c (b / 8 * 8)

/-- The words that z bytes at o touch, aligned to z. -/
def Spec.txWords (c : CoreId) (o z : Nat) : List Loc := (List.range ((z + 7) / 8)).map (fun i => .pad c (o / 8 * 8 + 8 * i))

/-- A lane's transaction has written byte b. -/
def Spec.txWrote (x : LaneTx) (c : CoreId) (b : Nat) : Bool :=
  match x.writeOf (Spec.txWord c b) with
  | some (_, m) => m.getLsbD (b % 8)
  | none => false

/-- Byte b as the transaction sees it: what it has written, else what its read entry holds, else the home's. -/
def Spec.txByte (s : State) (x : LaneTx) (c : CoreId) (b : Nat) : Byte :=
  let old : Byte := match x.readOf (Spec.txWord c b) with
    | some v => BitVec.ofNat 8 (v.toNat / 2 ^ (8 * (b % 8)))
    | none => s.byteAt (.pad c b)
  match x.writeOf (Spec.txWord c b) with
  | some (v, m) => if m.getLsbD (b % 8) then BitVec.ofNat 8 (v.toNat / 2 ^ (8 * (b % 8))) else old
  | none => old

/-- The words for which a load of z bytes at o needs a read entry. -/
def Spec.txAsks (x : LaneTx) (c : CoreId) (o z : Nat) : List Loc :=
  (Spec.txWords c o z).filter (fun w =>
    (x.readOf w).isNone && (List.range z).any (fun j => Spec.txWord c (o + j) == w && !Spec.txWrote x c (o + j)))

/-- The words for which a store needs a write entry. -/
def Spec.txNew (x : LaneTx) (c : CoreId) (o z : Nat) : List Loc := (Spec.txWords c o z).filter (fun w => (x.writeOf w).isNone)

/-- What a logged load of z bytes at o returns, and what a lane's log is after it and after a logged store of bytes d: x before,
y after. -/
def Spec.txValue (s : State) (x : LaneTx) (c : CoreId) (o z : Nat) : Nat :=
  ofBytes ((List.range z).map (fun j => Spec.txByte s x c (o + j)))
def Spec.txLoaded (s : State) (x y : LaneTx) (c : CoreId) (o z : Nat) : Prop :=
  y.isOpen = true ∧ y.writes = x.writes ∧
    y.reads = x.reads ++ (Spec.txAsks x c o z).map (fun w => (w, BitVec.ofNat 64 (Spec.value s w 8)))
def Spec.txStored (s : State) (x y : LaneTx) (c : CoreId) (o z : Nat) (d : Nat → Byte) : Prop :=
  y.isOpen = true ∧ y.reads = x.reads ∧ y.writes.map Prod.fst = x.writes.map Prod.fst ++ Spec.txNew x c o z ∧
    (∀ w, w ∉ Spec.txWords c o z → y.writeOf w = x.writeOf w) ∧
    (∀ b, if o ≤ b ∧ b < o + z then Spec.txWrote y c b = true ∧ Spec.txByte s y c b = d (b - o)
      else Spec.txWrote y c b = Spec.txWrote x c b ∧ (Spec.txWrote x c b = true → Spec.txByte s y c b = Spec.txByte s x c b))

/-- Lane n has aborted with CAPACITY, to be retried (05 R165, R167, R172). -/
def Spec.txFull (g g' : Gang) (n : Fin 32) : Prop :=
  (g'.tx.lanes[n]).isOpen = false ∧ (g'.tx.lanes[n]).reads = [] ∧ (g'.tx.lanes[n]).writes = [] ∧ Mask.has g'.regs.exm n = false ∧
    bits (g'.tx.stat[n]) 3 0 = 2 ∧ bits (g'.tx.stat[n]) 16 15 = 2 ∧ bits (g'.tx.stat[n]) 13 10 = min 15 (bits (g.tx.stat[n]) 13 10 + 1)

/-- Lane n's transaction and status stand. -/
abbrev Spec.txStands (g g' : Gang) (n : Fin 32) : Prop := g'.tx.lanes[n] = g.tx.lanes[n] ∧ g'.tx.stat[n] = g.tx.stat[n]

/-- LD, LDS and ST of LOCAL scratchpad in an open transaction (05 R165): an access of each active lane, each in its own log, changes no
memory. A load returns what the lane has written, and else what it has read or now reads at the home; a lane that needs a 17th read
entry or a 9th write entry aborts with CAPACITY, writes no register and leaves EXM, and the other lanes finish. -/
def Spec.transactionalLanes : Prop :=
  ∀ (s : State) (g : Gang) (d : VReg) (m : VMem) (sz : Size), Runs s g .u (vNames d (sizeRegs sz) m) →
    modeEtype g.regs.mode ≠ 13 → modeEtype g.regs.mode ≠ 14 → Spec.quiet s → g.tx.active = true → g.tx.irrev = none →
    (∀ n, Mask.has g.active n = true → (g.tx.lanes[n]).isOpen = true) → m.am = 0 → Spec.localCap (g.c m.cap) (pA + pR + pW) →
    (let c := s.cur.core
     let z := sizeBytes sz
     let off (n : Fin 32) : Int := ((g.c m.cap).origin : Int) + (g.v m.idx)[n].toInt * z
     let o (n : Fin 32) : Nat := (off n).toNat
     let x (n : Fin 32) : LaneTx := g.tx.lanes[n]
     (∀ n, Mask.has g.active n = true → Spec.inPad (g.c m.cap) (off n) z z) →
     (∀ sx : Bool, Spec.Finishes s g (exec (if sx then .lds d m sz .plain else .ld d m sz .plain) s) (Spec.data d sz) [] [] [] (fun t g' =>
       SameMemory s t ∧ ∀ n : Fin 32,
         (Mask.has g.active n = false → Spec.txStands g g' n ∧ ∀ r, (g'.v r)[n] = (g.v r)[n]) ∧
         (Mask.has g.active n = true → (x n).reads.length + (Spec.txAsks (x n) c (o n) z).length ≤ 16 →
           (let v := Spec.txValue s (x n) c (o n) z
            Spec.txLoaded s (x n) (g'.tx.lanes[n]) c (o n) z ∧ g'.tx.stat[n] = g.tx.stat[n] ∧
            Mask.has g'.regs.exm n = Mask.has g.regs.exm n ∧
            (z ≤ 2 → (g'.v d)[n] = if sx then BitVec.ofInt 32 (signed (8 * z) v) else BitVec.ofNat 32 v) ∧
            (4 ≤ z → ∀ k, k < sizeRegs sz → (g'.v (d + BitVec.ofNat 6 k))[n] = BitVec.ofNat 32 (v / 2 ^ (32 * k))))) ∧
         (Mask.has g.active n = true → 16 < (x n).reads.length + (Spec.txAsks (x n) c (o n) z).length →
           Spec.txFull g g' n ∧ ∀ r, (g'.v r)[n] = (g.v r)[n]))) ∧
     Spec.Finishes s g (exec (.st d m sz .plain) s) [] [] [] [] (fun t g' => SameMemory s t ∧ ∀ n : Fin 32,
       (Mask.has g.active n = false → Spec.txStands g g' n) ∧
       (Mask.has g.active n = true → (x n).writes.length + (Spec.txNew (x n) c (o n) z).length ≤ 8 →
         Spec.txStored s (x n) (g'.tx.lanes[n]) c (o n) z
           (fun j => BitVec.ofNat 8 ((g.v (d + BitVec.ofNat 6 (j / 4)))[n].toNat / 2 ^ (8 * (j % 4)))) ∧
         g'.tx.stat[n] = g.tx.stat[n] ∧ Mask.has g'.regs.exm n = Mask.has g.regs.exm n) ∧
       (Mask.has g.active n = true → 8 < (x n).writes.length + (Spec.txNew (x n) c (o n) z).length → Spec.txFull g g' n)))

/-- SLD, SLDS and SST of LOCAL scratchpad in an open transaction (05 R165, R170): accesses of the lowest active lane n that has a
transaction open, logged the same way; where that lane holds the irrevocable token they read and write the scratchpad itself and no
log changes. -/
def Spec.transactionalScalars : Prop :=
  ∀ (s : State) (g : Gang) (d : SReg) (m : SMem) (sz : Size) (n : Fin 32), Runs0 s g → Spec.quiet s → g.tx.active = true →
    Mask.has g.active n = true → (g.tx.lanes[n]).isOpen = true → (∀ k, k < n → Mask.has g.active k = true → (g.tx.lanes[k]).isOpen = false) →
    sz ≠ .q → m.am = 0 → Spec.localCap (g.c m.cap) (pA + pR + pW) → Memory.wf (s.ctx s.cur.core).pad = true →
    (let c := s.cur.core
     let z := sizeBytes sz
     let off : Int := ((g.c m.cap).origin : Int) + ((g.s m.idx).truncate 32).toInt * z
     let o := off.toNat
     let x := g.tx.lanes[n]
     let load (sx : Bool) : Instr := if sx then .slds d m sz .plain else .sld d m sz .plain
     let others (g' : Gang) : Prop := ∀ k, k ≠ n → Spec.txStands g g' k
     let byte (j : Nat) : Byte := BitVec.ofNat 8 ((g.s d).toNat / 2 ^ (8 * j))
     Spec.inPad (g.c m.cap) off z z →
     (g.tx.irrev ≠ some n →
       (∀ sx, x.reads.length + (Spec.txAsks x c o z).length ≤ 16 → Spec.Finishes s g (exec (load sx) s) [] [d] [] [] (fun t g' =>
         SameMemory s t ∧ (d ≠ 0 → g'.s d = Spec.extended z sx (Spec.txValue s x c o z)) ∧
         Spec.txLoaded s x (g'.tx.lanes[n]) c o z ∧ g'.tx.stat = g.tx.stat ∧ others g')) ∧
       (∀ sx, 16 < x.reads.length + (Spec.txAsks x c o z).length → Spec.Finishes s g (exec (load sx) s) [] [] [] [] (fun t g' =>
         SameMemory s t ∧ Spec.txFull g g' n ∧ others g')) ∧
       (x.writes.length + (Spec.txNew x c o z).length ≤ 8 → Spec.Finishes s g (exec (.sst d m sz .plain) s) [] [] [] [] (fun t g' =>
         SameMemory s t ∧ Spec.txStored s x (g'.tx.lanes[n]) c o z byte ∧ g'.tx.stat = g.tx.stat ∧ others g')) ∧
       (8 < x.writes.length + (Spec.txNew x c o z).length → Spec.Finishes s g (exec (.sst d m sz .plain) s) [] [] [] [] (fun t g' =>
         SameMemory s t ∧ Spec.txFull g g' n ∧ others g'))) ∧
     (g.tx.irrev = some n →
       (∀ sx, Spec.Finishes s g (exec (load sx) s) [] [d] [] [] (fun t g' => SameMemory s t ∧ g'.tx = g.tx ∧
         (d ≠ 0 → g'.s d = Spec.extended z sx (ofBytes ((s.ctx c).pad.read o z))))) ∧
       Spec.Finishes s g (exec (.sst d m sz .plain) s) [] [] [] [] (fun t g' => g'.tx = g.tx ∧
         (∀ j, j < z → (t.ctx c).pad.get (o + j) = byte j) ∧ SameMemoryBut (Spec.places (.pad c o) z) s t)))

/-- Transactions (05, 09): their instructions, and loads and stores inside one. Taken from the model and not from the rules (log 34):
what TXSTAT shows of a lane that TXBEGIN opens, and the order of TXEND's steps around the token. -/
def Obligations.Transactions : Prop :=
  Spec.transactionsOpenAndAbort ∧ Spec.transactionsCommitOrRetry ∧ Spec.transactionalLanes ∧ Spec.transactionalScalars

/-! The copy engine (02 R78 to R81, R468, 09 R323 to R332, 10 R353 to R355). -/

/-- The command that CPY, CPYM, CPYO, GATHE or SCATE makes of its descriptor (09 R324). -/
def Spec.copyOf (s : State) (g : Gang) (op : CopyOp) (r : VReg) (dst src : CReg) (cmpl skip : Bool) : Copy :=
  let d (k : Nat) : Nat := (((g.v r).toList[k]?).getD 0).toNat
  let ir := if op = .gathe ∨ op = .scate then d 11 % 16 else 0
  { slot := s.cur.slot, op := op, words := (g.v r).toList.take 13, dst := g.c dst, src := g.c src, idx := g.c (BitVec.ofNat 4 ir),
    dreg := dst.toNat, sreg := src.toNat, ireg := ir, cmpl := cmpl, skip := skip, tag := BitVec.ofNat 16 (d 6),
    chan := if (d 5).testBit 4 then some (d 5 % 16) else none, pc := g.regs.pc, word := s.cur.word, dests := [], cover := [],
    lt := g.cnt.lt, seed := s.clock }

/-- The command that PRUNE, PLANE or UNPLANE makes of S[b] and S[b + 1] (10 R353). -/
def Spec.convOf (s : State) (g : Gang) (op : CopyOp) (ci co : CReg) (b : SReg) : Copy :=
  let hi := (g.s (b + 1)).toNat
  { slot := s.cur.slot, op := op,
    words := [(g.s b).truncate 32, ((g.s b) >>> 32).truncate 32, BitVec.ofNat 32 hi, BitVec.ofNat 32 (hi / 2 ^ 32)],
    dst := g.c co, src := g.c ci, idx := Cap.null, dreg := co.toNat, sreg := ci.toNat, cmpl := hi.testBit 16, tag := BitVec.ofNat 16 hi,
    pc := g.regs.pc, word := s.cur.word, dests := [], cover := [], lt := g.cnt.lt, seed := s.clock }

/-- A command word, its V register and its command, where the descriptor's reserved fields are zero. -/
abbrev Spec.commands (s : State) (g : Gang) (i : Instr) (vs : List Nat) (y : Copy) : Prop :=
  (∃ op r dst src cmpl skip, vs = [r.toNat] ∧ y = Spec.copyOf s g op r dst src cmpl skip ∧
    modeEtype g.regs.mode ≠ 13 ∧ modeEtype g.regs.mode ≠ 14 ∧
    (let d (k : Nat) : Nat := (((g.v r).toList[k]?).getD 0).toNat
     d 5 < 64 ∧ d 6 < 2 ^ 16 ∧ (op = .gathe ∨ op = .scate → d 11 < 16) ∧ ((d 5).testBit 4 = true → (g.c dst).space ≠ 2)) ∧
    ((op = .cpy ∧ skip = false ∧ i = .cpy r dst src cmpl) ∨ (op = .cpym ∧ i = .cpym r dst src cmpl skip) ∨
     (op = .cpyo ∧ skip = false ∧ i = .cpyo r dst src cmpl) ∨ (op = .gathe ∧ skip = false ∧ i = .gathe r dst src cmpl) ∨
     (op = .scate ∧ skip = false ∧ i = .scate r dst src cmpl))) ∨
  (∃ op ci co b, vs = [] ∧ y = Spec.convOf s g op ci co b ∧ b ≠ 31 ∧
    ((op = .prune ∧ (g.s (b + 1)).toNat < 2 ^ 17 ∧ i = .prune ci co b) ∨
     ((op = .plane ∨ op = .unplane) ∧ (g.s (b + 1)).toNat < 2 ^ 48 ∧ bits (g.s (b + 1)) 31 17 = 0 ∧
       i = if op = .plane then .plane ci co b else .unplane ci co b)))

/-- Command words outside a transaction (02 R78, 09 R323, R331). Where the checks of R323 pass and Q8 and the engine have room, the
command is accepted and the word retires: no register and no byte changes, and a command that has something to write stands in the
engine with nothing sent. Without room the gang waits. CPYCAN, with S[a] at most 65,535, ends the gang's commands of that tag that have no
chunk under way, and retires when none is left; else it waits. -/
def Obligations.CopyCommandsAreAccepted : Prop :=
  ∀ (s : State) (g : Gang), g.tx.active = false →
    (∀ i vs y p, Spec.commands s g i vs y → Runs s g .u vs → s.plan s.cur.core y = .ok p → s.acceptable y p = .ok () →
      (s.copyRoom s.cur.core s.cur.slot = true → Spec.Finishes s g (exec i s) [] [] [] [] (fun t _ => SameMemory s t ∧
        ((∃ d ∈ p.dests, d.total ≠ 0) → ∃ n y', t.copy? s.cur.core n = some y' ∧ y'.op = y.op ∧ y'.slot = s.cur.slot ∧
          y'.tag = y.tag ∧ y'.dests = p.dests ∧ y'.sent = [] ∧ y'.next = 0))) ∧
      (s.copyRoom s.cur.core s.cur.slot = false → Spec.Waits s g (exec i s) .copySpace)) ∧
    (∀ i vs y f, Spec.commands s g i vs y → Runs s g .u vs → s.plan s.cur.core y = .error f → exec i s = .next (s.faults g f)) ∧
    (∀ a, Runs0 s g →
      (let mine (y : Copy) : Prop := y.slot = s.cur.slot ∧ y.tag = (g.s a).truncate 16
       (2 ^ 16 ≤ (g.s a).toNat → exec (.cpycan a) s = .next (s.faults g (flt .illegal))) ∧
       ((g.s a).toNat < 2 ^ 16 → Tbl.rising (s.ctx s.cur.core).copies = true →
         ((∀ y ∈ (s.ctx s.cur.core).copies, mine y.2 → y.2.sent = []) →
           Spec.Finishes s g (exec (.cpycan a) s) [] [] [] [] (fun t _ => SameMemory s t ∧
             ∀ y ∈ (t.ctx s.cur.core).copies, ¬ mine y.2)) ∧
         ((∃ y ∈ (s.ctx s.cur.core).copies, mine y.2 ∧ y.2.sent ≠ []) → Spec.Waits s g (exec (.cpycan a) s) .hazard))))

/-- The checks of R323 for a LOCAL to LOCAL CPY of n bytes, both runs multiples of 16 within their capabilities, which do not meet. -/
abbrev Spec.localCopy (y : Copy) (n : Nat) : Prop :=
  y.op = .cpy ∧ y.d 4 = n ∧ y.d 5 = 0 ∧ y.chan = none ∧ Spec.localCap y.src pR ∧ Spec.localCap y.dst pW ∧
  16 ∣ n ∧ 16 ∣ y.srcAt ∧ 16 ∣ y.dstAt ∧ y.srcAt + n ≤ y.src.origin + y.src.length ∧ y.dstAt + n ≤ y.dst.origin + y.dst.length ∧
  y.srcAt + n ≤ 0x37000 ∧ y.dstAt + n ≤ 0x37000 ∧
  (y.dst.origin + y.dst.length ≤ y.src.origin ∨ y.src.origin + y.src.length ≤ y.dst.origin)

/-- The engine's chunks (02 R81, R61, R468, 09 R323, R330). The plan of a legal LOCAL CPY is one run of its bytes at its destination; its
next chunk sends the source's bytes as they stand, at most 4,096; no byte changes then. A chunk that a check stops leaves the
command stopped at that chunk with a copy fault's packet raised. A chunk lands, once no granted read claim covers its granules: its
bytes are in the scratchpad and no others change, its granules are full; the last chunk ends the command, with a
completion token of kind 1 in Q9 where CMPL is set. -/
def Obligations.CopyChunksLand : Prop :=
  ∀ (s : State) (c : CoreId) (n : Nat) (y : Copy),
    (∀ k, Spec.localCopy y k →
      ∃ e : Ext, s.plan c y = .ok ⟨[{ core := some c, first := y.dstAt, total := k }], [(c, e)]⟩ ∧ e.granules = granulesOf y.dstAt k) ∧
    (s.copy? c n = some y → (s.core c).stopped = false → y.stop = none → y.dying = false → y.held = false → y.walk = none → y.next < y.chunks →
      y.op ≠ .prune →
      (∀ k dn, Spec.localCopy y k → y.dests = [{ core := some c, first := y.dstAt, total := k, done := dn }] →
        s.unreached c c = false → Spec.intact s c →
        (let at_ := y.next * 4096
         Spec.Occurs (exec (.copyChunk c n) s) (fun t => SameMemory s t ∧ ∃ y' x, t.copy? c n = some y' ∧ y'.next = y.next + 1 ∧
           y'.sent = y.sent ++ [x] ∧ x.dest = 0 ∧ x.chunk = y.next ∧ x.puts = (List.range (min 4096 (k - at_))).map (fun j =>
             (Loc.pad c (y.dstAt + at_ + j), (s.ctx c).pad.get (y.srcAt + at_ + j), (0xFF : Byte)))))) ∧
      (∀ f g, s.chunkPuts c y y.next = .error (.fault f) → s.gang? c y.slot = some g →
        Spec.Occurs (exec (.copyChunk c n) s) (fun t => SameMemory s t ∧ (∃ y', t.copy? c n = some y' ∧ y'.stop = some (f, y.next)) ∧
          ∃ p, Tbl.get? (t.ctx c).packets (s.ctx c).seq = some p ∧ p.rec_.copy = true ∧ p.rec_.flt = f ∧ p.rec_.tag = y.tag ∧
            p.rec_.chunk = 4096 * y.next ∧ p.rec_.pc = y.pc))) ∧
    (∀ dest x, s.copy? c n = some y → y.sent.find? (fun z => z.dest == dest) = some x → Memory.wf (s.ctx c).pad = true →
      (∀ p ∈ x.puts, p.2.2 = 0xFF ∧ ∃ o, p.1 = .pad c o) → (x.puts.map Prod.fst).Nodup →
      (let touched (o : Nat) : Prop := ∃ p ∈ x.puts, ∃ a, p.1 = .pad c a ∧ a / 16 = o
       ((∃ o, touched o ∧ s.claimed (c, o) = true) → exec (.copyChunkComplete c n dest) s = .next s) ∧
       ((∀ o, touched o → s.claimed (c, o) = false) →
         Spec.Occurs (exec (.copyChunkComplete c n dest) s) (fun t => (∀ p ∈ x.puts, t.byteAt p.1 = p.2.1) ∧
           SameMemoryBut (x.puts.map Prod.fst) s t ∧ (y.op ≠ .unplane → ∀ o, touched o → (t.ctx c).full.has o = true))) ∧
       ((∀ o, touched o → s.claimed (c, o) = false) → Tbl.rising (s.ctx c).copies = true → y.sent = [x] → y.dying = false →
         (∀ m (h : m < y.dests.length), (y.dests[m].total + 4095) / 4096 ≤ y.dests[m].done + if m = dest then 1 else 0) →
         Spec.Occurs (exec (.copyChunkComplete c n dest) s) (fun t => t.copy? c n = none ∧
           ∀ g, s.gang? c y.slot = some g → y.cmpl = true → g.tokens = [] → g.q[9].length < 32 →
             ∃ g', t.gang? c y.slot = some g' ∧ g'.regs = g.regs ∧
               g'.q[9] = g.q[9] ++ [Lanes.all (BitVec.ofNat 32 (2 ^ 28 + y.tag.toNat))]))))

/-! Queue registers and the select unit (06 R179, 09 R333 to R337). -/

/-- Depths of Q0 to Q15 (06 R179). -/
def Spec.depth : List Nat := [8, 8, 8, 8, 8, 8, 8, 8, 16, 32, 8, 8, 32, 8, 4, 4]

/-- The parameter of SELK is legal: reserved bits zero, KEY 0 to 2, a selection open or START set, no START over unread results
(09 R333). -/
abbrev Spec.selects (g : Gang) (p : DWord) : Prop :=
  bits p 31 13 = 0 ∧ bits p 8 7 ≠ 3 ∧ (p.getLsbD 10 = true ∨ g.selOpen = true) ∧ (p.getLsbD 10 = true → g.selUnread = false)

/-- Queue words outside a transaction, under any ETYPE but 13 and 14 (09 R333, R335 to R337, 06 R178, R179). SELK pushes its lanes,
mask, parameter and MODE.FTZ, waits with 32 inputs queued, and faults ILLEGAL on an illegal parameter; SELRES pops a result into the active
lanes, faults ILLEGAL with none to come, else waits. QPUSH and QPOP of Q0 to Q7 reach a pair's window; a word that names one in a gang of no pair faults ILLEGAL before it is published
(07 R215): QPUSH adds all lanes, or waits at 8; QPOP takes the oldest into the active lanes, or waits; QPOP of Q11 and Q14 likewise from
the gang's own; a queue that takes no such operation faults ILLEGAL. QSTAT gives COUNT, DEPTH, EMPTY and FULL. -/
def Spec.queueWords : Prop :=
  ∀ (s : State) (g : Gang) (d : VReg), Runs s g .u [d.toNat] → modeEtype g.regs.mode ≠ 13 → modeEtype g.regs.mode ≠ 14 →
    g.tx.active = false →
    (let core := s.cur.core
     let popped (g' : Gang) (e : Lanes Word) : Prop := ∀ n : Fin 32, (g'.v d)[n] = if Mask.has g.active n = true then e[n] else (g.v d)[n]
     let w : SlotId := if g.shadow = true then g.partner.getD s.cur.slot else s.cur.slot
     (∀ b, ¬ Spec.selects g (g.s b) → exec (.selk d b) s = .next (s.faults g (flt .illegal))) ∧
     (∀ b, Spec.selects g (g.s b) → g.selIn.length < 32 → Spec.Finishes s g (exec (.selk d b) s) [] [] [] [] (fun t g' =>
       SameMemory s t ∧ g'.selIn = g.selIn ++ [{ vals := g.v d, mask := g.active, param := g.s b, ftz := g.regs.mode.getLsbD 11, lt := g.cnt.lt }])) ∧
     (∀ b, Spec.selects g (g.s b) → 32 ≤ g.selIn.length → Spec.Waits s g (exec (.selk d b) s) (.queue 12)) ∧
     (∀ e es, g.q[13] = e :: es → Spec.Finishes s g (exec (.selres d) s) [d] [] [] [] (fun t g' => SameMemory s t ∧ popped g' e ∧
       (g.sel = none → g'.q[13] = es))) ∧
     (g.q[13] = [] → g.sel = none → g.selIn = [] → exec (.selres d) s = .next (s.faults g (flt .illegal))) ∧
     (g.q[13] = [] → g.sel ≠ none ∨ g.selIn ≠ [] → Spec.Waits s g (exec (.selres d) s) (.queue 13)) ∧
     (∀ q : QReg, 8 ≤ q.toNat → exec (.qpush q d) s = .next (s.faults g (flt .illegal))) ∧
     (∀ (q : QReg) (x : SReg), q.toNat < 8 → g.partner = none → ∀ i, i = .qpush q d ∨ i = .qpop d q ∨ i = .qstat x q →
       exec i s = .next (s.freeze core s.cur.slot (flt .illegal) g.active s.cur.word)) ∧
     (∀ (q : QReg) (h : Gang), q.toNat < 8 → g.partner ≠ none → s.gang? core w = some h →
       (h.q[q.toFin].length < 8 → Spec.Finishes s g (exec (.qpush q d) s) [] [] [] [] (fun t _ => SameMemory s t ∧
         ∃ h', t.gang? core w = some h' ∧ h'.q[q.toFin] = h.q[q.toFin] ++ [g.v d])) ∧
       (8 ≤ h.q[q.toFin].length → Spec.Waits s g (exec (.qpush q d) s) (.queue q.toNat)) ∧
       (∀ e es, h.q[q.toFin] = e :: es → Spec.Finishes s g (exec (.qpop d q) s) [d] [] [] [] (fun t g' => SameMemory s t ∧
         popped g' e ∧ ∃ h', t.gang? core w = some h' ∧ h'.q[q.toFin] = es)) ∧
       (h.q[q.toFin] = [] → Spec.Waits s g (exec (.qpop d q) s) (.queue q.toNat))) ∧
     (∀ q : QReg, q = 11 ∨ q = 14 → ∀ e es, g.q[q.toFin] = e :: es → Spec.Finishes s g (exec (.qpop d q) s) [d] [] [] [] (fun t g' =>
       SameMemory s t ∧ popped g' e ∧ g'.q[q.toFin] = es)) ∧
     (g.q[11] = [] → Spec.Waits s g (exec (.qpop d 11) s) (.queue 11)) ∧
     (∀ q : QReg, q = 8 ∨ q = 10 ∨ q = 12 ∨ q = 15 →
       exec (.qpop d q) s = .next (s.faults g (flt .illegal))) ∧
     (∀ (q : QReg) (x : SReg), 8 ≤ q.toNat ∨ g.partner ≠ none → (s.part core).det = false →
       Spec.Finishes s g (exec (.qstat x q) s) [] [x] [] [] (fun t g' => SameMemory s t ∧ (x ≠ 0 →
         (let n := s.queueCount core s.cur.slot g q.toFin
          let z := Spec.depth.getD q.toNat 0
          bits (g'.s x) 5 0 = min n 63 ∧ bits (g'.s x) 11 6 = z ∧ ((g'.s x).getLsbD 12 = true ↔ n = 0) ∧
            ((g'.s x).getLsbD 13 = true ↔ z ≤ n))))))

/-- Signed 32-bit keys: lane a ranks before lane b, the greater key first, ties by the lower lane (09 R334). -/
abbrev Spec.ranks (v : Lanes Word) (a b : Fin 32) : Prop := v[b].toInt < v[a].toInt ∨ (v[a].toInt = v[b].toInt ∧ a < b)

/-- Moves of the queues (09 R334, R335, 06 R179, 10 R349). An input that is a selection by itself, of one result row of signed keys with K at most
32, gives the indices of its active lanes in rank order, all ones past the last; a drain's next entry enters Q11 when there is room; a
gang that waits at a QPOP of Q0 to Q7 or Q11 is ready at its word again when an entry has come, one at a QPUSH when there is room: it
takes or pushes it when it next issues (06 R192). -/
def Spec.queuesMove : Prop :=
  ∀ (s : State) (c : CoreId) (k : SlotId) (g : Gang), s.gang? c k = some g →
    (∀ i rest, g.selIn = i :: rest → (s.core c).stopped = false → g.sel = none → g.q[13] = [] → i.param.getLsbD 10 = true →
      i.param.getLsbD 11 = true → i.param.getLsbD 9 = false → i.param.getLsbD 12 = false → bits i.param 8 7 = 1 →
      i.param.getLsbD 6 = false → bits i.param 5 0 < 32 →
      Spec.Leaves (exec (.selectInputConsume c k) s) c k (fun t g' => SameMemory s t ∧ g'.regs = g.regs ∧ g'.selIn = rest ∧
        ∃ e : Lanes Word, g'.q[13] = [e] ∧
          (let size := min (popCount i.mask) (bits i.param 5 0 + 1)
           ∃ top : List (Fin 32), top.length = size ∧ top.Nodup ∧ (∀ x ∈ top, Mask.has i.mask x = true) ∧
             top.Pairwise (Spec.ranks i.vals) ∧
             (∀ x ∈ top, ∀ y : Fin 32, Mask.has i.mask y = true → y ∉ top → Spec.ranks i.vals x y) ∧
             ∀ r : Fin 32, e[r] = match top[r.val]? with
               | some x => BitVec.ofNat 32 (x.val + bits i.param 63 32)
               | none => 0xFFFFFFFF))) ∧
    (∀ e es, g.drainOut = e :: es → g.q[11].length < 8 → (s.core c).stopped = false →
      Spec.Leaves (exec (.drainQ11Push c k) s) c k (fun t g' => SameMemory s t ∧ g'.regs = g.regs ∧ g'.drainOut = es ∧
        g'.q[11] = g.q[11] ++ [e])) ∧
    (∀ (d : VReg) (q : QReg) e es, modeEtype g.regs.mode ≠ 13 → modeEtype g.regs.mode ≠ 14 → g.shadow = false →
      q = 11 ∨ (q.toNat < 8 ∧ g.partner ≠ none) → g.q[q.toFin] = e :: es → Spec.stands g (.queue q.toNat) (.qpop d q) →
      Spec.Leaves (exec (.queueWake c k) s) c k (fun t g' => g'.status = .running ∧ g'.regs = g.regs ∧ g'.q = g.q ∧ SameMemory s t)) ∧
    (∀ (d : VReg) (q : QReg), modeEtype g.regs.mode ≠ 13 → modeEtype g.regs.mode ≠ 14 → g.shadow = false → q.toNat < 8 →
      g.partner ≠ none → g.q[q.toFin].length < 8 → Spec.stands g (.queue q.toNat) (.qpush q d) →
      Spec.Leaves (exec (.queueWake c k) s) c k (fun t g' => g'.status = .running ∧ g'.regs = g.regs ∧ g'.q = g.q ∧ SameMemory s t))

/-- Queues and select engines (06, 10). -/
def Obligations.Queues : Prop :=
  Spec.queueWords ∧ Spec.queuesMove

/-! Records: inboxes and rings (06 R180 to R191, 10 R357 to R363). -/

/-- The word waits: the gang stands at it with every register as before but FSTAT, which a release may have written, waiting for w. -/
def Spec.Stalls (s : State) (g : Gang) (o : Host.Outcome State Fault Refusal) (w : Why) (P : State → Prop) : Prop :=
  ∃ t g', o = .next t ∧ s.meIn t = some g' ∧ g'.why? = some w ∧ g'.regs.pc = g.regs.pc ∧ KeepsRegs [] [] [] [] g g' ∧
    SameMemory s t ∧ P t

/-- The record that a gang's lanes 0 to 15 make: the hardware writes words 2 and 3, which give SENDER, SLOT, HOST 0, the sender's PRIO,
KIND and TS (06 R180). -/
def Spec.recordAt (s : State) (c : CoreId) (k : SlotId) (g : Gang) (v : VReg) (kind ts : Nat) : Rec :=
  let prio := bits (g.v v)[2] 20 16
  let info := (s.origin c).toNat + k.val * 2 ^ 12 + prio * 2 ^ 16 + kind * 2 ^ 21 + ts % 2 ^ 40 * 2 ^ 24
  (List.range 16).map (fun n => if n = 2 then BitVec.ofNat 32 info else if n = 3 then BitVec.ofNat 32 (info / 2 ^ 32)
    else ((g.v v).toList.getD n 0))

/-- The record that a gang posts now. -/
abbrev Spec.recordOf (s : State) (c : CoreId) (k : SlotId) (g : Gang) (v : VReg) (kind : Nat) : Rec :=
  Spec.recordAt s c k g v kind (s.now c)

/-- Word j of a record whose TS is that of its posting: TICK bits 39 to 0 in bits 63 to 24 of bytes 8 to 15 (06 R180). -/
def Spec.posted (r : Rec) (ts j : Nat) : Nat :=
  let w := (r.getD j 0).toNat
  if j = 2 then w % 2 ^ 24 + ts % 2 ^ 8 * 2 ^ 24 else if j = 3 then ts / 2 ^ 8 % 2 ^ 32 else w

/-- PRIO of a record. -/
def Spec.prio (r : Rec) : Nat := bits (r.getD 2 0) 20 16

/-- An inbox with a record: ahead of the first record of lower PRIO, behind the others (06 R182). -/
def Spec.inboxWith (r : Rec) (l : List Rec) : List Rec :=
  l.takeWhile (fun x => decide (Spec.prio r ≤ Spec.prio x)) ++ r :: l.dropWhile (fun x => decide (Spec.prio r ≤ Spec.prio x))

/-- A site that a message of a core reaches: in its partition, and with a core that answers (06 R182, 01 R15). -/
abbrev Spec.reaches (s : State) (c site : CoreId) : Prop := s.samePart c site = true ∧ s.unreached c site = false

/-- The accesses of the gang that a release at DIE waits for are done. -/
abbrev Spec.released (s : State) (c : CoreId) (k : SlotId) : Prop := Spec.loaded s c k ∧ Spec.stored s c k

/-- The gang took a record: S16 to S23 are its doublewords, the PC is its ENTRY, the inbox holds the rest, and a scope of CREW or wider
left the read cache empty (06 R183, 10 R360). -/
def Spec.tookRecord (c : CoreId) (g : Gang) (r : Rec) (rest : List Rec) (s t : State) (g' : Gang) : Prop :=
  g'.status = .running ∧ KeepsRegs [] ((List.range 8).map (fun j => BitVec.ofNat 5 (16 + j))) [] [] g g' ∧
  (∀ j, j < 8 → g'.s (BitVec.ofNat 5 (16 + j)) =
    BitVec.ofNat 64 ((r.getD (2 * j) 0).toNat + 2 ^ 32 * (r.getD (2 * j + 1) 0).toNat)) ∧
  g'.regs.pc = BitVec.ofNat 64 ((r.getD 0 0).toNat + 2 ^ 32 * (r.getD 1 0).toNat) ∧
  (t.ctx c).inbox = rest ∧ SameMemory s t ∧ (2 ≤ modeScope g.regs.mode → (t.core c).cache = [])

/-- No gang of the core stands in its inbox line, at WAITMSG or at a pop of Q14. -/
abbrev Spec.lineEmpty (s : State) (c : CoreId) : Prop :=
  ∀ k h, s.gang? c k = some h → h.why? ≠ some .inbox ∧ h.why? ≠ some .q14

/-- Record words outside a transaction and outside a deterministic partition, those with V data under any ETYPE but 13 and 14 (06 R182, R183, R187 to R189, 10 R359 to R363). SEND to a
site that it reaches puts its record into the inbox when there is room and no sender waits, waits when 64 records are there, faults NOT_MAPPED
for a site outside the partition; that a new sender takes no room while another waits is the model's choice (log 53). WAITMSG takes the first record when no gang stands before it, waits when there is none, and changes
nothing at a subscriber. RINGMK of a LOCAL backing makes an open, empty ring under a number that no ring had and gives its
handle. RINGDES of an open ring that holds records leaves it draining, of one that holds none, by the model's reading (log 52, DEDUCED), ends
it at once, and lets every waiting push go, and every waiting pop of an empty ring. RPUSH and RPOP stand as requests at the ring's core, the record with no TS before it is posted. -/
def Obligations.RecordWords : Prop :=
  ∀ (s : State) (g : Gang), g.tx.active = false → (s.part s.cur.core).det = false →
    (let me := s.cur.core
     let k := s.cur.slot
     (∀ v a, Runs s g .u [v.toNat] → modeEtype g.regs.mode ≠ 13 → modeEtype g.regs.mode ≠ 14 → bits (g.s a) 63 12 = 0 →
       (let site : CoreId := (g.s a).truncate 12
        let d := s.route site
        (Spec.reaches s me site → Spec.released s me k → (s.ctx d).inbox.length < 64 → s.senders d = [] →
          Spec.Finishes s g (exec (.send v a) s) [] [] [] [] (fun t _ => SameMemory s t ∧
            (t.ctx d).inbox = Spec.inboxWith (Spec.recordOf s me k g v 0) (s.ctx d).inbox)) ∧
        (Spec.reaches s me site → Spec.released s me k → 64 ≤ (s.ctx d).inbox.length →
          Spec.Stalls s g (exec (.send v a) s) (.send d) (fun t => (t.ctx d).inbox = (s.ctx d).inbox)) ∧
        (s.samePart me site = false → Spec.faultsAt s g (exec (.send v a) s) .notMapped site.toNat))) ∧
     (Runs0 s g → s.cur.stream = none →
       (∀ r rest, (s.ctx me).inbox = r :: rest → Spec.lineEmpty s me →
         ∃ t g', exec .waitmsg s = .next t ∧ s.meIn t = some g' ∧ Spec.tookRecord me g r rest s t g') ∧
       ((s.ctx me).inbox = [] → Spec.Waits s g (exec .waitmsg s) .inbox)) ∧
     (Runs0 s g → s.cur.stream ≠ none → Spec.Finishes s g (exec .waitmsg s) [] [] [] [] (fun t _ => SameMemory s t)) ∧
     (∀ (cap : CReg) (d p : SReg), Runs0 s g →
       (let c := g.c cap
        let logn := bits (g.s p) 3 0
        let boff := bits (g.s p) 63 32
        Spec.localCap c (pR + pW) → bits (g.s p) 31 15 = 0 → 1 ≤ logn → logn ≤ 12 → bits (g.s p) 14 4 ≤ 1024 →
        64 ∣ c.origin + boff → boff + 64 * 2 ^ logn ≤ c.length → c.origin + boff + 64 * 2 ^ logn ≤ 0x37000 →
        Tbl.rising (s.ctx me).rings = true → (s.ctx me).rings.length < 64 →
        Spec.Finishes s g (exec (.ringmk cap d p) s) [] [d] [] [] (fun t g' => SameMemory s t ∧
          ∃ n r, n < 64 ∧ Tbl.get? (s.ctx me).rings n = none ∧ Tbl.get? (t.ctx me).rings n = some r ∧ r.state = .open_ ∧ r.places = [] ∧
            r.logn = logn ∧ r.lend = bits (g.s p) 14 4 ∧ r.cap = c ∧ r.boff = boff ∧
            (∀ m, m ≠ n → Tbl.get? (t.ctx me).rings m = Tbl.get? (s.ctx me).rings m) ∧
            (d ≠ 0 → g'.s d = BitVec.ofNat 64 (me.toNat + n * 2 ^ 12 + r.gen.toNat * 2 ^ 18))))) ∧
     (∀ a, Runs0 s g → bits (g.s a) 63 26 = 0 → Spec.reaches s me ((g.s a).truncate 12) →
       (let d := s.route ((g.s a).truncate 12)
        let n := bits (g.s a) 17 12
        ∀ r, Tbl.get? (s.ctx d).rings n = some r → r.gen.toNat = bits (g.s a) 25 18 → r.state = .open_ → Tbl.rising (s.ctx d).rings = true →
          (∀ q ∈ (s.ctx d).ringReqs, (q.core, q.slot) ≠ (me, k)) →
          Spec.Finishes s g (exec (.ringdes a) s) [] [] [] [] (fun t _ => SameMemory s t ∧ (Tbl.get? (t.ctx d).rings n =
            if r.places = [] then none else some { r with state := .draining }) ∧
            ∀ q ∈ (t.ctx d).ringReqs, q.blocked = true → q.handle = g.s a → q.push = none ∧ r.places ≠ []))) ∧
     (∀ (push : Bool) v a, Runs s g .u [v.toNat] → modeEtype g.regs.mode ≠ 13 → modeEtype g.regs.mode ≠ 14 → bits (g.s a) 63 26 = 0 → Spec.reaches s me ((g.s a).truncate 12) →
       (push = true → modeScope g.regs.mode < 5 ∧ Spec.released s me k) →
       (let d := s.route ((g.s a).truncate 12)
        Spec.Stalls s g (exec (if push then .rpush v a else .rpop v a) s) .ring (fun t =>
          ∃ q : RingReq, (t.ctx d).ringReqs = (s.ctx d).ringReqs ++ [q] ∧ q.core = me ∧ q.slot = k ∧ q.handle = g.s a ∧ q.blocked = false ∧
            q.push = (if push then some (Spec.recordAt s me k g v 2 0) else none) ∧ q.dst = v))))

/-- Records and ring requests arrive, outside a deterministic partition (06 R182, R183, R188). The first sender in line at an inbox with
room goes on with its record there; the first gang in line takes the first record. A request whose turn it is at an open ring of LOCAL backing: a push with a free
slot leaves its record in the slot at the tail and the pusher goes on; a pop gives the oldest record's 16 words to lanes 0 to 15 of its
register, zero to the others, and its gang goes on; a push with no slot and nothing lent, and a pop of an empty ring, are
blocked, their gangs with them. A pushed record gets its TS. A request for a ring that is no more freezes its gang with RING_CLOSED. -/
def Obligations.RecordsArrive : Prop :=
  ∀ (s : State) (c : CoreId),
    (∀ d k g rest v a, s.senders c = (d, k, g) :: rest → s.gang? d k = some g → (s.ctx c).inbox.length < 64 → g.tx.active = false →
      s.unstopped d g = true → modeEtype g.regs.mode ≠ 13 → modeEtype g.regs.mode ≠ 14 → (s.part d).det = false → decode g.waitWord = some (.send v a) → bits (g.s a) 63 12 = 0 → Spec.reaches s d ((g.s a).truncate 12) →
      s.route ((g.s a).truncate 12) = c → Spec.released s d k → (s.part c).det = false →
      Spec.GoesOn d k g (exec (.inboxWaiterEntry c) s) [] (fun t _ => SameMemory s t ∧
        (t.ctx c).inbox = Spec.inboxWith (Spec.recordOf s d k g v 0) (s.ctx c).inbox)) ∧
    (∀ k g line r rest, s.waiters [c] Why.inboxLine = (c, k, g) :: line → s.gang? c k = some g → decode g.waitWord = some .waitmsg →
      (s.core c).stopped = false → (s.part c).det = false → g.tx.active = false → g.chan.role ≠ .subscriber →
      (s.ctx c).inbox = r :: rest →
      Spec.Leaves (exec (.waitmsgDelivery c) s) c k (fun t g' => Spec.tookRecord c g r rest s t g')) ∧
    (∀ n q g, (s.ctx c).ringReqs.find? (fun q => q.seq == n) = some q → (s.core c).stopped = false →
      (∀ p ∈ (s.ctx c).ringReqs, p.seq < n → p.blocked = true ∧ p.handle ≠ q.handle) → q.seq = n → s.gang? q.core q.slot = some g →
      g.why? = some .ring → s.unstopped q.core g = true → q.walk = none → (s.part c).det = false → (s.part q.core).det = false → s.route ((q.handle).truncate 12) = c →
      (let m := bits q.handle 17 12
       let o := exec (.ringRequestApply c n) s
       let gone (t : State) : Prop := ∀ p ∈ (t.ctx c).ringReqs, p.seq ≠ n
       (Tbl.get? (s.ctx c).rings m = none → Spec.Leaves o q.core q.slot (fun t g' =>
         g'.status = .frozen ∧ g'.fcode = .ringClosed ∧ SameMemory s t ∧ (g.tx.active = false → g'.regs = g.regs) ∧ gone t)) ∧
       (∀ r, Tbl.get? (s.ctx c).rings m = some r → r.gen.toNat = bits q.handle 25 18 → r.state = .open_ → r.cap.space ≠ 2 →
         Memory.wf (s.ctx c).pad = true →
         (let slot (j : Nat) : Nat := r.cap.origin + r.boff + 64 * j
          let held := (r.places.filter (fun p => match p with | .own _ => true | _ => false)).length
          (∀ rec_, q.push = some rec_ → rec_.length = 16 → held < 2 ^ r.logn →
            Spec.GoesOn q.core q.slot g o [] (fun t _ => gone t ∧
              (∀ j, j < 16 → ofBytes ((t.ctx c).pad.read (slot r.tail + 4 * j) 4) = Spec.posted rec_ (s.now c) j) ∧
              SameMemoryBut (Spec.places (.pad c (slot r.tail)) 64) s t ∧ ∃ r', Tbl.get? (t.ctx c).rings m = some r' ∧
                r'.places = r.places ++ [.own r.tail] ∧ r'.tail = (r.tail + 1) % 2 ^ r.logn ∧ r'.state = .open_)) ∧
          (∀ j rest, q.push = none → r.places = .own j :: rest → s.lostAt (.pad c (slot j)) 64 = false →
            Spec.GoesOn q.core q.slot g o [q.dst] (fun t g' => gone t ∧ SameMemory s t ∧
              (∀ i : Fin 32, (g'.v q.dst)[i] =
                if i.val < 16 then BitVec.ofNat 32 (ofBytes ((s.ctx c).pad.read (slot j + 4 * i.val) 4)) else 0) ∧
              ∃ r', Tbl.get? (t.ctx c).rings m = some r' ∧ r'.places = rest ∧ r'.state = .open_)) ∧
          (q.blocked = false → (q.push ≠ none ∧ 2 ^ r.logn ≤ held ∧ r.lend = 0) ∨ (q.push = none ∧ r.places = []) →
            Spec.Leaves o q.core q.slot (fun t g' => SameMemory s t ∧ g'.why? = some .ringBlocked ∧ g'.regs = g.regs ∧
              ∃ q' ∈ (t.ctx c).ringReqs, q'.seq = n ∧ q'.blocked = true))))))

/-! Bins, launches, placement, allotment and identity (06 R173 to R178, R184 to R186, R195 to R197, 10 R364 to R370). -/

/-- ENTRY of the record in a V register. -/
def Spec.entry (g : Gang) (v : VReg) : Nat := ((g.v v).toList.getD 0 0).toNat + 2 ^ 32 * ((g.v v).toList.getD 1 0).toNat

/-- Nothing waits for placement, and no gang waits for a launch queue or a bin. -/
abbrev Spec.nothingWaits (s : State) : Prop :=
  (∀ d : Fin 4, (s.dies[d]).launch = [] ∧ ∀ b ∈ (s.dies[d]).bins, b.2.waiting = []) ∧
  (∀ c k h, s.gang? c k = some h → h.why? ≠ some .launchQ ∧ h.why? ≠ some .binFull ∧ h.why? ≠ some .binDrain)

/-- No gang of the core but one waits to grow. -/
abbrev Spec.noGrow (s : State) (c : CoreId) (k : SlotId) : Prop :=
  ∀ j h a, j ≠ k → s.gang? c j = some h → h.why? ≠ some (.grow a)

/-- The gang's allotment is n: V registers that it could name before and after keep their values, the others hold zero (06 R195). -/
def Spec.allotted (g g' : Gang) (n : Nat) : Prop :=
  g'.allot = n ∧ (∀ r : VReg, g'.v r = if r.toNat < min g.vLimit g'.vLimit then g.v r else Lanes.all 0) ∧
  (∀ r, g'.s r = g.s r) ∧ (∀ r, g'.p r = g.p r) ∧ (∀ r, g'.c r = g.c r) ∧ KeepsStatus g g'

/-- The word finishes with the gang's allotment at n. -/
def Spec.allots (s : State) (g : Gang) (o : Host.Outcome State Fault Refusal) (n : Nat) : Prop :=
  ∃ t g', o = .next t ∧ s.meIn t = some g' ∧ g'.status = .running ∧ g'.regs.pc = g.regs.pc + 4 ∧ Spec.allotted g g' n ∧ SameMemory s t

/-- SPAWN, under any ETYPE but 13 and 14, BINCFG and LAUNCH outside a transaction and a deterministic partition (06 R175, R176, R184, R185, 10 R364 to R366). SPAWN adds
its record to the bin of its die with that entry address; the bin fires when it then holds c records; it waits while the bin holds
64, and faults NOT_MAPPED with no such bin. BINCFG with c = 0 removes an empty bin and waits for one that is not; with a header that passes R175
(State.readHeader) it makes an empty bin. LAUNCH puts such a header at the end of its die's queue, waits at 64 entries, and faults
MISALIGNED and CAP_BOUNDS for a header's place. -/
def Obligations.LaunchWords : Prop :=
  ∀ (s : State) (g : Gang), g.tx.active = false → (s.part s.cur.core).det = false →
    (let me := s.cur.core
     let d := dieOf me
     let bins := (s.dies[d]).bins
     let alone (w : Why) : Prop := ∀ c k h, s.gang? c k = some h → h.why? ≠ some w
     (∀ v, Runs s g .u [v.toNat] → modeEtype g.regs.mode ≠ 13 → modeEtype g.regs.mode ≠ 14 →
       (let e (t : State) : Pend := ⟨s.now me, g.cnt.lt, Spec.recordOf s me s.cur.slot g v 1⟩
        (s.binOf d (Spec.entry g v) = none → Spec.faultsAt s g (exec (.spawn v) s) .notMapped (Spec.entry g v)) ∧
        (∀ n b, s.binOf d (Spec.entry g v) = some (n, b) → Tbl.get? bins n = some b → Spec.released s me s.cur.slot →
          (b.waiting = [] → b.pending.length < 64 → b.pending.length + 1 < b.c → alone .binFull →
            Spec.Finishes s g (exec (.spawn v) s) [] [] [] [] (fun t _ => SameMemory s t ∧
              Tbl.get? (t.dies[d]).bins n = some { b with pending := b.pending ++ [e t] })) ∧
          (b.waiting = [] → b.pending.length < 64 → b.pending.length + 1 = b.c → alone .binFull →
            Spec.Finishes s g (exec (.spawn v) s) [] [] [] [] (fun t _ => SameMemory s t ∧ ∃ b' f,
              Tbl.get? (t.dies[d]).bins n = some b' ∧ b'.pending = [] ∧ b'.fired = b.fired + 1 ∧ b'.waiting = [f] ∧
              f.num = b.fired ∧ f.recs = b.pending ++ [e t])) ∧
          (64 ≤ b.pending.length → Spec.Stalls s g (exec (.spawn v) s) .binFull (fun t => (t.dies[d]).bins = bins))))) ∧
     (∀ a b, Runs0 s g → bits (g.s a) 15 14 = 0 → bits (g.s a) 63 32 = 0 → Tbl.rising bins = true →
       (let n := bits (g.s a) 7 0
        let c := bits (g.s a) 13 8
        let t0 := bits (g.s a) 31 16
        let empty : Prop := ∀ x, Tbl.get? bins n = some x → x.pending = [] ∧ x.waiting = []
        (c = 0 → empty → Spec.Finishes s g (exec (.bincfg a b) s) [] [] [] [] (fun t _ => SameMemory s t ∧
          ∀ m, Tbl.get? (t.dies[d]).bins m = if m = n then none else Tbl.get? bins m)) ∧
        (c = 0 → (∃ x, Tbl.get? bins n = some x ∧ x.pending ≠ []) → Spec.Waits s g (exec (.bincfg a b) s) .binDrain) ∧
        (c ≠ 0 → t0 = 0 → exec (.bincfg a b) s = .next (s.faults g (flt .illegal))) ∧
        (∀ h bytes caps, c ≠ 0 → c ≤ 32 → t0 ≠ 0 → empty → s.headerBusy me (g.s b) = false →
          s.readHeader me (g.s b) = .ok (h, bytes, caps) → h.w.getD 0 0 = 0 → c ≤ h.lanes + 1 → h.ncap ≤ 15 →
          (∀ x ∈ bins, x.1 ≠ n → field x.2.launch.header 0 8 ≠ h.entry) →
          Spec.Finishes s g (exec (.bincfg a b) s) [] [] [] [] (fun t _ => SameMemory s t ∧ ∃ x, Tbl.get? (t.dies[d]).bins n = some x ∧
            x.c = c ∧ x.t = t0 ∧ x.pending = [] ∧ x.waiting = [] ∧ x.launch.header = bytes ∧ x.launch.caps = caps)))) ∧
     (∀ a, Runs0 s g → s.headerBusy me (g.s a) = false → Spec.released s me s.cur.slot →
       (let q := (s.dies[d]).launch
        ((g.s a).toNat % 64 ≠ 0 → ∃ t g', exec (.launch a) s = .next t ∧ s.meIn t = some g' ∧ g'.status = .frozen ∧ g'.fcode = .misaligned ∧
          g'.regs = g.regs) ∧
        ((g.s a).toNat % 64 = 0 → 0x37000 < (g.s a).toNat + 64 → ∃ t g', exec (.launch a) s = .next t ∧ s.meIn t = some g' ∧
          g'.status = .frozen ∧ g'.fcode = .capBounds ∧ g'.regs = g.regs) ∧
        (∀ h bytes caps, s.readHeader me (g.s a) = .ok (h, bytes, caps) →
          (q.length < 64 → alone .launchQ → Spec.Finishes s g (exec (.launch a) s) [] [] [] [] (fun t _ => SameMemory s t ∧
            ∃ l, (t.dies[d]).launch = q ++ [l] ∧ l.header = (s.ctx me).pad.read (g.s a).toNat 64 ∧ l.caps = caps ∧ l.placed = 0 ∧
              l.lt = g.cnt.lt)) ∧
          (64 ≤ q.length → Spec.Stalls s g (exec (.launch a) s) .launchQ (fun t => (t.dies[d]).launch = q))))))

/-- GROW and SHRINK outside a transaction, WID and WIDF under any ETYPE but 13 and 14, and RDCNT (06 R195 to R197, 10 R368 to R370, 01 R33). An illegal number faults; GROW to
the allotment it has changes nothing; to one that the core can never give it faults GROW_IMPOSSIBLE, one that the pool covers is given when nothing waits before it, else the gang
waits; SHRINK gives its number. WID gives the work identifier, field 1 above the lane and each field above the one before, WIDF one
field, RDCNT a count; a deterministic partition's CYCLE is its RETIRED. -/
def Obligations.AllotmentAndIdentityWords : Prop :=
  ∀ (s : State) (g : Gang), g.tx.active = false →
    (let x := s.ctx s.cur.core
     let least := if g.partner.isSome = true then 48 else 16
     (∀ a : BitVec 12, Runs0 s g →
       (let n := a.toNat
        let legal : Prop := g.allot < n ∧ 8 ∣ n ∧ n ≤ 64 ∧ least ≤ n
        let can : Prop := x.growImpossible s.cur.slot g n = false
        (n < g.allot ∨ ¬ 8 ∣ n ∨ 64 < n ∨ n < least → exec (.grow a) s = .next (s.faults g (flt .illegal))) ∧
        (n = g.allot → 8 ∣ n → n ≤ 64 → least ≤ n →
          Spec.Finishes s g (exec (.grow a) s) [] [] [] [] (fun t g' => g'.allot = n ∧ SameMemory s t)) ∧
        (legal → ¬ can → exec (.grow a) s = .next (s.faults g (flt .growImpossible))) ∧
        (legal → can → Spec.nothingWaits s → Spec.noGrow s s.cur.core s.cur.slot → x.poolUsed + n ≤ 512 + g.allot → g.allot ≤ x.poolUsed →
          Spec.allots s g (exec (.grow a) s) n) ∧
        (legal → can → 512 + g.allot < x.poolUsed + n → Spec.Waits s g (exec (.grow a) s) (.grow n)) ∧
        (g.allot < n ∨ ¬ 8 ∣ n ∨ n < least → exec (.shrink a) s = .next (s.faults g (flt .illegal))) ∧
        (n ≤ g.allot → 8 ∣ n → least ≤ n → Spec.allots s g (exec (.shrink a) s) n))) ∧
     (∀ d : VReg, Runs s g .u [d.toNat, d.toNat + 1] → modeEtype g.regs.mode ≠ 13 → modeEtype g.regs.mode ≠ 14 → d.toNat < 63 →
       Spec.Finishes s g (exec (.wid d) s) [d, d + 1] [] [] [] (fun t g' => SameMemory s t ∧ ∀ i : Fin 32, Mask.has g.active i = true →
         (let id := i.val + 32 * (g.ident.widths.zip g.ident.fields).foldr (fun f r => f.2 + 2 ^ f.1 * r) 0
          (g'.v d)[i] = BitVec.ofNat 32 id ∧ (g'.v (d + 1))[i] = BitVec.ofNat 32 (id / 2 ^ 32)))) ∧
     (∀ (d : VReg) (k : BitVec 3), Runs s g .u [d.toNat] → modeEtype g.regs.mode ≠ 13 → modeEtype g.regs.mode ≠ 14 →
       (5 < k.toNat → exec (.widf d k) s = .next (s.faults g (flt .illegal))) ∧
       (k.toNat ≤ 5 → Spec.Finishes s g (exec (.widf d k) s) [d] [] [] [] (fun t g' => SameMemory s t ∧ ∀ i : Fin 32, (g'.v d)[i] =
         if Mask.has g.active i = true then
           (if k = 0 then BitVec.ofNat 32 i.val
            else if g.ident.widths.getD (k.toNat - 1) 0 = 0 then 0 else BitVec.ofNat 32 (g.ident.fields.getD (k.toNat - 1) 0))
         else (g.v d)[i]))) ∧
     (∀ (n : Counter) (d : SReg), Runs0 s g → Spec.Finishes s g (exec (.rdcnt n d) s) [] [d] [] [] (fun t g' => SameMemory s t ∧ (d ≠ 0 →
       g'.s d = BitVec.ofNat 64 (match n with
         | .cycle => if (s.part s.cur.core).det = true then g.cnt.retired else g.cnt.elapsed
         | .retired => g.cnt.retired
         | .tick => s.now s.cur.core)))))

/-- Firing, placing and granting (06 R177, R185, R196, 01 R21, R26, 03 R93). A bin of a partition that is not deterministic fires when its
oldest record has waited t TICKs, and not before. The one launch that waits, EXACT, of one gang without shadow or window, is placed on its core
when that core can take it: the gang stands in the lowest free slot at its entry, with its lanes active, its capabilities, level U
and every other register zero, and leaves the queue. The one gang that waits to grow gets its allotment when the pool covers it. That a firing joins those that
wait in its bin (`waiting ++ [f]`, where R186 speaks of one, log 55) and that a launch is placed on a stopped core as on any other (log 54) are
the model's choices. -/
def Obligations.PlacementsAndGrants : Prop :=
  (∀ (s : State) (d p : Fin 4) (bin : BitVec 8) b r rest, s.partOf d = some p → (s.parts[p]).det = false →
    Tbl.get? (s.dies[d]).bins bin.toNat = some b → b.pending = r :: rest →
    (s.dieTick d < r.tick + b.t → exec (.binTimerExpiry d bin) s = .next s) ∧
    (r.tick + b.t ≤ s.dieTick d → Spec.Occurs (exec (.binTimerExpiry d bin) s) (fun t => SameMemory s t ∧ ∃ b' f,
      Tbl.get? (t.dies[d]).bins bin.toNat = some b' ∧ b'.pending = b.pending.drop b.c ∧ b'.fired = b.fired + 1 ∧ b'.waiting = b.waiting ++ [f] ∧
      f.num = b.fired ∧ f.recs = b.pending.take b.c))) ∧
  (∀ (s : State) (d p : Fin 4) (l : Launch) (k : SlotId), s.partOf d = some p → (s.dies[d]).launch = [l] →
    (∀ e : Fin 4, (e ≠ d → (s.dies[e]).launch = []) ∧ ∀ b ∈ (s.dies[e]).bins, b.2.waiting = []) →
    (∀ c j h, s.gang? c j = some h → h.why? ≠ some .launchQ ∧ h.why? ≠ some .binFull ∧ h.why? ≠ some .binDrain) →
    (let h := Hdr.parse l.header
     let x := s.ctx h.core
     h.exact = true → (∀ e ∈ h.ext, e = 0) → h.shadow = 0 → h.wins = 0 → h.ncap ≤ 16 → l.placed = 0 → s.noCore h.core = false →
     x.freeSlot = some k → x.poolUsed + h.allot ≤ 512 → (∀ t : Fin 8, h.tiles.getLsbD t.val = true → (x.tiles[t]).owner = none) →
     (∀ j g a, s.gang? h.core j = some g → g.why? ≠ some (.grow a)) →
     Spec.Leaves (exec (.gangPlacement d) s) h.core k (fun t g' => (t.dies[d]).launch = [] ∧ SameMemory s t ∧
       g'.regs.pc = BitVec.ofNat 64 h.entry ∧ g'.regs.exm = BitVec.ofNat 32 (2 ^ (h.lanes + 1) - 1) ∧ g'.status = .running ∧
       g'.priv = .u ∧ g'.allot = h.allot ∧ g'.stack = [] ∧ g'.regs.pkm = 0 ∧ g'.regs.mode = 0 ∧ g'.regs.fstat = 0 ∧ g'.hdr.prio = h.prio ∧
       (∀ r, g'.v r = Lanes.all 0) ∧ (∀ r, g'.s r = 0) ∧ (∀ r, r ≠ 0 → g'.p r = 0) ∧
       (∀ r : CReg, g'.c r = if r.toNat < h.ncap then l.caps.getD r.toNat Cap.null else Cap.null) ∧
       (∀ i : Fin 32, g'.regs.lfsr[i] ≠ 0) ∧ (∀ t' : Fin 8, ((t.ctx h.core).tiles[t']).owner =
         if h.tiles.getLsbD t'.val = true then some k else (x.tiles[t']).owner)))) ∧
  (∀ (s : State) (c : CoreId) (k : SlotId) (g : Gang) (a : BitVec 12), s.gang? c k = some g → g.tx.active = false →
    Spec.stands g (.grow a.toNat) (.grow a) → g.allot < a.toNat → 8 ∣ a.toNat → a.toNat ≤ 64 →
    (if g.partner.isSome = true then 48 else 16) ≤ a.toNat → (s.ctx c).growImpossible k { g with status := .running } a.toNat = false →
    Spec.nothingWaits s → Spec.noGrow s c k → (s.core c).stopped = false →
    (let pool := (s.ctx c).poolUsed
     (pool + a.toNat ≤ 512 + g.allot → g.allot ≤ pool → Spec.Leaves (exec (.growGrant c) s) c k (fun t g' =>
       g'.status = .running ∧ g'.regs.pc = g.regs.pc + 4 ∧ Spec.allotted g g' a.toNat ∧ SameMemory s t)) ∧
     (512 + g.allot < pool + a.toNat → exec (.growGrant c) s = .next s)))

/-! The matrix array (04 R109 to R139, 10 R338 to R351, R356). -/

/-- The tile is the gang's, and no poisoning of its tiles is unreported. -/
abbrev Spec.tileOf (s : State) (g : Gang) (t : TileNo) : Prop :=
  ((s.ctx s.cur.core).tiles[t.toFin]).owner = some s.cur.slot ∧ g.poisoned = []

/-- The gang's operations that are accepted and incomplete and name a tile (10 R351). -/
def Spec.pending (s : State) (c : CoreId) (k : SlotId) (t : TileNo) : List TileOp :=
  (s.ctx c).ops.filter (fun o => o.slot == k && o.live && o.tiles.contains t)

/-- A cell of a tile. -/
def Spec.cell (s : State) (c : CoreId) (t : TileNo) (i : Fin 32) (j : Fin 16) : Word := (((s.ctx c).tiles[t.toFin]).cells[i])[j]

/-- An operation stands in the gang's Q10. -/
def Spec.accepted (s t : State) (P : TileOp → Prop) : Prop :=
  ∃ o ∈ (t.ctx s.cur.core).ops, o.seq = (s.ctx s.cur.core).seq ∧ o.slot = s.cur.slot ∧ o.held = false ∧ P o

/-- Matrix words outside a transaction, MMA and MMA.S under any ETYPE but 13 and 14 (10 R338 to R347, R350, R351, 04 R114, R132). A word that names a tile of another gang faults
ILLEGAL, and MSTAT gives 0; one that names a tile whose poisoning is unreported faults DATA_ERROR with the tile's KDONE (R139). Where Q10 has room and the checks pass (State.planMma for R342), MMA and MZERO and MLOAD retire with
their operation accepted, MMA clearing MODE.KRESUME; a streamed MMA, MMA.S and the drains wait for theirs; without room they wait. With no
lane active MMA changes nothing; lanes whose format words differ fault FORMAT_DIVERGENCE. MSTAT gives the tile's status, MWAIT
waits for the gang's operations on the tile. -/
def Obligations.MatrixWords : Prop :=
  ∀ (s : State) (g : Gang) (t : TileNo), g.tx.active = false →
    (let me := s.cur.core
     let k := s.cur.slot
     let n := (s.ctx me).seq
     let room : Prop := (s.ctx me).q10 k < 8
     let lands (i : Instr) (P : TileOp → Prop) : Prop := room →
       Spec.Finishes s g (exec i s) [] [] [] [] (fun u _ => SameMemory s u ∧ Spec.accepted s u P)
     let mine : Prop := Spec.tileOf s g t
     (∀ (sparse : Bool) n1 f ca cb, Runs s g .u [f.toNat, f.toNat + 1] → modeEtype g.regs.mode ≠ 13 → modeEtype g.regs.mode ≠ 14 → g.poisoned = [] →
       (let i := if sparse then Instr.mmaS t n1 f ca cb else .mma t n1 f ca cb
        (g.active = 0 → Spec.Finishes s g (exec i s) [] [] [] [] (fun u _ => SameMemory s u ∧ (u.ctx me).ops = (s.ctx me).ops)) ∧
        ((∃ a b : Fin 32, Mask.has g.active a = true ∧ Mask.has g.active b = true ∧ (g.v f)[a] ≠ (g.v f)[b]) →
          ∃ u g', exec i s = .next u ∧ s.meIn u = some g' ∧ g'.status = .frozen ∧ g'.fcode = .formatDivergence ∧ g'.regs = g.regs) ∧
        (∀ e, s.planMma g sparse t (n1.toNat + 1) f ca cb = .error e → exec i s = .next (s.faults g e)) ∧
        (s.planMma g sparse t (n1.toNat + 1) f ca cb = .ok .header → Spec.Waits s g (exec i s) .header) ∧
        (∀ o, s.planMma g sparse t (n1.toNat + 1) f ca cb = .ok (.op o) →
          (room → sparse = false → fwStrm o.fmt = false →
            Spec.Finishes s g (exec i s) [] [] [] [] (fun u g' => SameMemory s u ∧ g'.regs.mode = g.regs.mode &&& ~~~ (0x3E0000 : Word) ∧
              Spec.accepted s u (fun p => p.kind = .mma ∧ p.tile = t ∧ p.n = n1.toNat + 1 ∧ p.fmt = o.fmt ∧ p.step = modeKresume g.regs.mode))) ∧
          (room → sparse = true ∨ fwStrm o.fmt = true →
            Spec.Stalls s g (exec i s) (if sparse then .indexPass n else .stream n) (fun u => Spec.accepted s u (fun p => p.tile = t))) ∧
          (¬ room → Spec.Waits s g (exec i s) .tileSpace)))) ∧
     (∀ n, Runs0 s g → g.poisoned = [(t.toNat, n)] → ∀ i a c b, i = .mzero t ∨ i = .mload t c b ∨ i = .mdrain t c b ∨ i = .mdrainQ t b ∨
       i = .mstat t a ∨ i = .mwait t → ∃ u g', exec i s = .next u ∧ s.meIn u = some g' ∧ g'.status = .frozen ∧ g'.fcode = .dataError ∧
         g'.regs = g.regs ∧ g'.poisoned = [] ∧ SameMemory s u ∧
         ∃ r, g'.rec_ = some r ∧ r.flt.kdone = n ∧ r.pc = g.regs.pc) ∧
     (Runs0 s g → g.poisoned = [] → ¬ mine → ∀ c b, ∀ i, i = .mzero t ∨ i = .mload t c b ∨ i = .mdrain t c b ∨ i = .mdrainQ t b →
       exec i s = .next (s.faults g (flt .illegal))) ∧
     (Runs0 s g → mine → lands (.mzero t) (fun p => p.kind = .mzero ∧ p.tile = t)) ∧
     (Runs0 s g → mine → ¬ room → Spec.Waits s g (exec (.mzero t) s) .tileSpace) ∧
     (∀ c b, Runs0 s g → mine →
       (let off := (g.c c).origin + bits (g.s b) 31 0
        Spec.localCap (g.c c) (pM + pR) → bits (g.s b) 63 33 = 0 → 128 ∣ bits (g.s b) 31 0 → off + 2048 ≤ (g.c c).origin + (g.c c).length →
        off + 2048 ≤ 0x37000 → lands (.mload t c b) (fun p => p.kind = .mload ∧ p.tile = t ∧
          p.claims.map (fun x => (x.core, x.granule)) = (granulesOf off 2048).map (fun x => (me, x))))) ∧
     (∀ c b (queued : Bool), Runs0 s g → mine → room →
       (let off := (g.c c).origin + bits (g.s b) 31 0
        let ty := bits (g.s b) 39 32
        let pitch := (((ty - 14) * 128 + 32 + 127) / 128) * 128
        let size := if ty = 6 then 2048 else if ty = 8 then 1024 else 15 * pitch + (ty - 14) * 128 + bits (g.s b) 44 40 + 1
        bits (g.s b) 63 45 = 0 → ty = 6 ∨ ty = 8 ∨ (16 ≤ ty ∧ ty ≤ 30) → (ty < 16 → bits (g.s b) 44 40 = 0) →
        (queued = false → Spec.localCap (g.c c) pW ∧ 128 ∣ bits (g.s b) 31 0 ∧ off + size ≤ (g.c c).origin + (g.c c).length ∧
          off + size ≤ 0x37000) →
        Spec.Waits s g (exec (if queued then .mdrainQ t b else .mdrain t c b) s) (.drain n))) ∧
     (∀ a, Runs0 s g → g.poisoned = [] → ¬ mine → Spec.Finishes s g (exec (.mstat t a) s) [] [a] [] [] (fun u g' => SameMemory s u ∧ g'.s a = 0)) ∧
     (∀ a, Runs0 s g → mine → (s.part me).det = false →
       (let x := (s.ctx me).tiles[t.toFin]
        let p := (Spec.pending s me k t).length
        x.kdone < 32 → Spec.Finishes s g (exec (.mstat t a) s) [] [a] [] [] (fun u g' => SameMemory s u ∧ (a ≠ 0 →
          bits (g'.s a) 63 24 = 0 ∧ bits (g'.s a) 23 19 = x.kdone ∧ bits (g'.s a) 18 15 = min p 15 ∧ (g'.s a).getLsbD 13 = x.poison ∧
          (g'.s a).getLsbD 12 = x.redun ∧ (g'.s a).getLsbD 10 = true ∧ bits (g'.s a) 9 3 = 0 ∧ (g'.s a).getLsbD 2 = x.nx ∧
          (g'.s a).getLsbD 1 = x.ov ∧ (g'.s a).getLsbD 0 = x.nv ∧ (p = 0 → (∀ y ∈ s.contexts (s.part me), ∀ o ∈ y.2.ops, o.mate ≠ some me) → (g'.s a).getLsbD 11 = false))))) ∧
     (Runs0 s g → g.poisoned = [] → Spec.pending s me k t = [] → Spec.Finishes s g (exec (.mwait t) s) [] [] [] [] (fun u _ => SameMemory s u)) ∧
     (Runs0 s g → g.poisoned = [] → Spec.pending s me k t ≠ [] → Spec.Waits s g (exec (.mwait t) s) (.mwait t.toNat)))

/-- What a step of a dense sum makes of a cell: the blocks of row i of A and of row j of B in turn (03 R105, R106), from the cell's
value, or from zero at step 0 of an operation that overwrites; nothing where every scale code of one side is zero and none of either side
is 0xFF (04 R111, R118). -/
def Spec.summed (s : State) (c : CoreId) (o : TileOp) (t : TileNo) (i : Fin 32) (j : Fin 16) : Word :=
  let x := if o.step = o.k0 ∧ o.step = 0 ∧ fwAccum o.fmt = false then 0 else Spec.cell s c t i j
  let rowsA := (List.range 32).map (s.rowA c o o.step)
  let rowsB := (List.range 16).map (fun r => ((s.rowB c o o.step 0 r).toOption.getD []).map Prod.fst)
  let code (n : Nat) (rows : List (List Blk)) : Prop := ∀ r ∈ rows, ∀ b ∈ r, b.1 = n
  if (code 0 rowsA ∨ code 0 rowsB) ∧ ∀ r ∈ rowsA ++ rowsB, ∀ b ∈ r, b.1 ≠ 255 then x
  else (accCell (fwArnd o.fmt) (fwAS o.fmt - fwPA o.fmt) (fwBS o.fmt - fwPB o.fmt) x (s.rowA c o o.step i.val) (rowsB.getD j.val [])).x

/-- Moves of the array on a core that is not stopped, where no operation is a pair's (04 R111, R116 to R118, R124, R131, R134, 10 R343 to R349). An idle
array starts the one operation there is when its reads are granted. A step of a dense sum from scratchpad changes the cells
of its tile, and of the twin under RED, as above, no byte, and ends the operation after the last; it waits while a read is
not granted; where a read stays uncorrectable it changes no cell, poisons the tile with KDONE, ends the operation, and its gang owes
DATA_ERROR at its next instruction that names the tile (04 R139). MZERO clears the tile; MLOAD takes its 512 words from scratchpad. An f32 drain takes every cell, in stores that wait for read
claims on their granules, or in Q11's entries, and lets its gang go on; a REDUN tile that differs from its twin freezes it with
ARRAY_MISMATCH. A finished index pass lets its gang go on, or freezes it with SPARSE_MALFORMED. -/
def Obligations.MatrixMoves : Prop :=
  ∀ (s : State) (c : CoreId) (o : TileOp) (k : SlotId) (g : Gang), (s.core c).stopped = false → o.slot = k → s.gang? c k = some g →
    (∀ kv ∈ s.cores, ∀ p ∈ kv.2.ctx.ops, p.mate = none) → (∀ y ∈ s.savedContexts (s.part c), ∀ p ∈ y.2.ops, p.mate = none) →
    s.op? c o.seq = some o → o.held = false →
    (let runs : Prop := (s.ctx c).running = some o.seq
     let quiet : Prop := ∀ p ∈ (s.ctx c).ops, p.puts = []
     let ends (t : State) : Prop := t.op? c o.seq = none ∧ (t.ctx c).running = none
     let others (t : State) : Prop := ∀ (u : TileNo) i j, u ≠ o.tile → Spec.cell t c u i j = Spec.cell s c u i j
     let goes (out : Host.Outcome State Fault Refusal) (P : State → Gang → Prop) : Prop :=
       g.why? = some (.drain o.seq) → Spec.GoesOn c k g out [] P
     let done := exec (.tileOperationComplete c) s
     ((s.ctx c).ops = [o] → (s.ctx c).running = none → o.puts = [] → o.pass = false → o.kind ≠ .mdrainQ →
       (∀ x ∈ o.claims, x.granted = true) → Spec.Occurs (exec (.matrixOpStart c) s) (fun t => SameMemory s t ∧
         (t.ctx c).running = some o.seq ∧ ∃ p, t.op? c o.seq = some p ∧ p.started = true ∧ p.step = o.step)) ∧
     (runs → o.kind = .mma → o.hdr = none → fwStrm o.fmt = false → o.walk = none →
       ((∃ x ∈ o.claims, x.granted = false ∧ (x.core, x.granule) ∈ s.stepNeeds c o o.step) → exec (.matrixStep c) s = .next s) ∧
       ((∀ x ∈ o.claims, x.granted = true) → s.lostReads (s.stepNeeds c o o.step) = true → Spec.Occurs (exec (.matrixStep c) s) (fun t =>
         SameMemory s t ∧ ends t ∧ (∀ (u : TileNo) i j, Spec.cell t c u i j = Spec.cell s c u i j) ∧
         ((t.ctx c).tiles[o.tile.toFin]).poison = true ∧ ((t.ctx c).tiles[o.tile.toFin]).kdone = o.step ∧
         (((s.ctx c).tiles[o.tile.toFin]).owner = some k → g.why? = none → ∃ g', t.gang? c k = some g' ∧
           (o.tile.toNat, o.step) ∈ g'.poisoned))) ∧
       ((∀ x ∈ o.claims, x.granted = true) → s.lostReads (s.stepNeeds c o o.step) = false → Spec.Occurs (exec (.matrixStep c) s) (fun t => SameMemory s t ∧
         (∀ i j, Spec.cell t c o.tile i j = Spec.summed s c o o.tile i j) ∧
         (∀ i j, fwRed o.fmt = true → Spec.cell t c (twin o.tile) i j = Spec.summed s c o (twin o.tile) i j) ∧
         (fwRed o.fmt = false → others t) ∧ (o.n ≤ o.step + 1 → ends t) ∧
         (o.step + 1 < o.n → t.op? c o.seq = some { o with step := o.step + 1 } ∧ (t.ctx c).running = some o.seq)))) ∧
     (runs → quiet → o.kind = .mzero → Spec.Occurs done (fun t => SameMemory s t ∧ ends t ∧ others t ∧
       ∀ i j, Spec.cell t c o.tile i j = 0)) ∧
     (runs → quiet → o.kind = .mload → Spec.intact s c → Spec.Occurs done (fun t => SameMemory s t ∧ ends t ∧ others t ∧ ∀ (i : Fin 32) (j : Fin 16),
       Spec.cell t c o.tile i j = BitVec.ofNat 32 (ofBytes ((s.ctx c).pad.read (o.xferAt + 4 * (16 * i.val + j.val)) 4)))) ∧
     (runs → quiet → o.kind = .mdrain ∨ o.kind = .mdrainQ → o.drainTy = 6 →
       (let x := (s.ctx c).tiles[o.tile.toFin]
        (x.redun = false → o.kind = .mdrain → goes done (fun t _ => SameMemory s t ∧ (t.ctx c).running = none ∧ ∃ p, t.op? c o.seq = some p ∧
          p.puts.length = 128 ∧ ∀ (i : Fin 32) (j : Fin 16), ∃ b, p.puts[4 * i.val + j.val / 4]? = some (o.xferAt + 64 * i.val + 16 * (j.val / 4), b) ∧
            b.length = 16 ∧ (b.drop (4 * (j.val % 4))).take 4 = toBytes 4 (Spec.cell s c o.tile i j).toNat)) ∧
        (x.redun = false → o.kind = .mdrainQ → goes done (fun t g' => SameMemory s t ∧ ends t ∧ g'.drainOut.length = 16 ∧
          ∀ (e : Fin 16), ∃ v : Lanes Word, g'.drainOut[e.val]? = some v ∧ ∀ i : Fin 32, v[i] = Spec.cell s c o.tile i e)) ∧
        (x.redun = true → o.tile.toNat < 4 → (∃ i j, Spec.cell s c o.tile i j ≠ Spec.cell s c (twin o.tile) i j) →
          g.why? = some (.drain o.seq) → Spec.Leaves done c k (fun t g' => g'.status = .frozen ∧ g'.fcode = .arrayMismatch ∧ SameMemory s t ∧ ends t)))) ∧
     (∀ p ps, (s.ctx c).ops = [o] → (s.ctx c).running = none → o.puts = p :: ps →
       ((∃ n ∈ granulesOf p.1 p.2.length, s.claimed (c, n) = true) → done = .next s) ∧
       ((∀ n ∈ granulesOf p.1 p.2.length, s.claimed (c, n) = false) → Memory.wf (s.ctx c).pad = true →
         Spec.Occurs done (fun t => (∀ j (h : j < p.2.length), t.byteAt (.pad c (p.1 + j)) = p.2[j]) ∧
           SameMemoryBut (Spec.places (.pad c p.1) p.2.length) s t ∧
           (t.ctx c).ops = if ps = [] then [] else [{ o with puts := ps }]))) ∧
     (∀ h, g.why? = some (.indexPass o.seq) → o.pass = true → o.sp? = some h → (∀ x ∈ o.claims, x.granted = true) → Spec.intact s c →
       (h.areaBad o.baseA (s.padReader c) = none → fwStrm o.fmt = false → Spec.GoesOn c k g (exec (.indexPassComplete c k) s) [] (fun t _ =>
         SameMemory s t ∧ t.op? c o.seq = some { o with pass := false })) ∧
       (h.areaBad o.baseA (s.padReader c) ≠ none → Spec.Leaves (exec (.indexPassComplete c k) s) c k (fun t g' =>
         g'.status = .frozen ∧ g'.fcode = .sparseMalformed ∧ SameMemory s t ∧ t.op? c o.seq = none))))

/-- SPHDR, QBNI and DQBNI (10 R352, R356, 03 R101 to R104, 07 R229). SPHDR gives the first doubleword of a full header granule, SPHDR.CHK the
condition that fails, or none, with its detail; each waits for the granule, and, a read, for the core's older accesses to it. QBNI makes a block register: P in lane 17, the scale code in
lane 16, zeros from lane 18 on; scale code 255 and zero planes when an active value is an infinity or a NaN, scale code 0
and zero planes when every active value is zero. DQBNI gives zero for scale code 0 and the quiet NaN for 255; it faults ILLEGAL when lane 17
is not 2 to 16 or is below p, and both fault ILLEGAL under ETYPE 13 and 14. -/
def Obligations.HeadersAndBlocks : Prop :=
  ∀ (s : State) (g : Gang),
    (∀ (a : SReg) (c : CReg) (check : Bool), Runs0 s g → g.tx.active = false → Spec.localCap (g.c c) pR → 128 ∣ (g.c c).origin →
      16 ≤ (g.c c).length → (g.c c).origin + 16 ≤ 0x37000 →
      (let me := s.cur.core
       Spec.intact s me →
       let at_ := (g.c c).origin
       let i := if check then Instr.sphdrChk a c else .sphdr a c
       let b := (s.ctx me).pad.read at_ 16
       let h := SpHdr.parse b
       let gives (x : Nat) : Prop := Spec.Finishes s g (exec i s) [] [a] [] [] (fun t g' => SameMemory s t ∧ (a ≠ 0 → g'.s a = BitVec.ofNat 64 x) ∧
         (2 ≤ modeScope g.regs.mode → (t.core me).cache = []))
       let none_ := 2 ^ 32 * 0xFFFFFFFF
       (s.isFull me (at_ / 16) = false → Spec.Waits s g (exec i s) .header) ∧
       (s.isFull me (at_ / 16) = true → (s.ctx me).busy (.pad me at_) 16 = true → Spec.Waits s g (exec i s) .hazard) ∧
       (s.isFull me (at_ / 16) = true → (s.ctx me).flights = [] → (s.ctx me).buf = [] →
         (check = false → gives (ofBytes (b.take 8))) ∧
         (∀ n, check = true → h.bad none = some n → gives (n + none_)) ∧
         (check = true → h.bad none = none → h.size ≤ (g.c c).length → at_ + h.size ≤ 0x37000 →
           (∀ n ∈ granulesOf (at_ + h.ia) (32 * h.fi), s.isFull me n = true) →
           (h.areaBad at_ (s.padReader me) = none → gives none_) ∧
           (∀ e, h.areaBad at_ (s.padReader me) = some e → gives (e.1 + 2 ^ 32 * e.2)))))) ∧
    (∀ (d a : VReg) (p : BitVec 6), Runs s g .u [d.toNat, a.toNat] → 2 ≤ p.toNat → p.toNat ≤ 16 →
      (let wide : Prop := modeEtype g.regs.mode = 13 ∨ modeEtype g.regs.mode = 14
       let on (i : Fin 32) : Prop := Mask.has g.active i = true
       let exp (i : Fin 32) : Nat := bits (g.v a)[i] 30 23
       let zero (i : Fin 32) : Prop := bits (g.v a)[i] 30 0 = 0
       (wide → exec (.qbni d a p) s = .next (s.faults g (flt .illegal)) ∧ exec (.dqbni d a p) s = .next (s.faults g (flt .illegal))) ∧
       (¬ wide → Spec.Finishes s g (exec (.qbni d a p) s) [d] [] [] [] (fun t g' => SameMemory s t ∧
         (∀ i : Fin 32, 18 ≤ i.val → (g'.v d)[i] = 0) ∧ (g'.v d)[17] = BitVec.ofNat 32 p.toNat ∧ (g'.v d)[16].toNat < 256 ∧
         (∀ i : Fin 32, p.toNat ≤ i.val → i.val < 16 → (g'.v d)[i] = 0) ∧
         ((∃ i, on i ∧ exp i = 255) → (g'.v d)[16] = 255 ∧ ∀ i : Fin 32, i.val < 16 → (g'.v d)[i] = 0) ∧
         ((∀ i, on i → zero i) → (g'.v d)[16] = 0 ∧ ∀ i : Fin 32, i.val < 16 → (g'.v d)[i] = 0))) ∧
       (let pp := ((g.v a)[17]).toNat
        let sc := bits (g.v a)[16] 7 0
        (¬ wide → pp < 2 ∨ 16 < pp ∨ pp < p.toNat → exec (.dqbni d a p) s = .next (s.faults g (flt .illegal))) ∧
        (¬ wide → 2 ≤ pp → pp ≤ 16 → p.toNat ≤ pp → Spec.Finishes s g (exec (.dqbni d a p) s) [d] [] [] [] (fun t g' => SameMemory s t ∧
          ∀ i : Fin 32, (¬ on i → (g'.v d)[i] = (g.v d)[i]) ∧ (on i → sc = 0 → (g'.v d)[i] = 0) ∧
            (on i → sc = 255 → (g'.v d)[i] = 0x7FC00000))))))

/-! Supervision (10 R372 to R382; 11 R387, R402 to R407; 05 R171). -/

/-- The privileged word finishes, with no register of its gang and no byte of memory changed. -/
def Spec.acts (s : State) (g : Gang) (o : Host.Outcome State Fault Refusal) (P : State → Prop) : Prop :=
  Spec.Finishes s g o [] [] [] [] (fun t _ => SameMemory s t ∧ P t)

/-- S[r] names a core of the partition that works (10 R372). -/
abbrev Spec.coreNamed (s : State) (g : Gang) (r : SReg) (c : CoreId) : Prop :=
  bits (g.s r) 63 12 = 0 ∧ (g.s r).truncate 12 = c ∧ s.samePart s.cur.core c = true ∧ s.noCore c = false

/-- S[r] names the gang in slot k of core c, at a site that still answers (10 R372). -/
abbrev Spec.gangNamed (s : State) (g : Gang) (r : SReg) (c : CoreId) (k : SlotId) : Prop :=
  let site : CoreId := (g.s r).truncate 12
  bits (g.s r) 63 15 = 0 ∧ s.samePart s.cur.core site = true ∧ s.noCore site = false ∧ s.gone site = false ∧
    c = s.route site ∧ k.val = bits (g.s r) 14 12

/-- The gang may act on gangs of the core: level P, or the supervisor of the core or of its die (10 R372). -/
def Spec.controls_ (s : State) (g : Gang) (c : CoreId) : Prop :=
  g.priv = .p ∨ s.supNames (s.core c).supv s.cur.core s.cur.slot = true ∨
    s.supNames (s.dies[dieOf c]).dsupv s.cur.core s.cur.slot = true

/-- A gang stands frozen, or runs, with the registers and the mask stack it had, but for PC. -/
def Spec.isNow (t : State) (c : CoreId) (k : SlotId) (st : Status) (h : Gang) (pc : DWord) : Prop :=
  ∃ h', t.gang? c k = some h' ∧ h'.status = st ∧ h'.regs = { h.regs with pc := pc } ∧ h'.stack = h.stack

/-- SUPSET, FREEZE and RESUME (10 R375 to R377, 11 R387, R401). SUPSET writes SUPV of a core or DSUPV of a die, gives it, or sets the level
of a gang; a value out of its range faults ILLEGAL. FREEZE stops a gang that stands at a boundary, registers unchanged, and
waits for one that does not; on a frozen gang, on an empty slot, it has no effect; on its own gang it asks for the freeze. RESUME
lets a frozen gang run at its PC, or past its word, or ends it; what is not frozen, a gang of level P whose partition is FAILED (11 R391),
or an action with bits out of place, faults ILLEGAL, and so does, the model's reading of 15 R467 (log 57, DEDUCED), one that Fount holds. A
gang below P that does not supervise the core faults PRIVILEGE. -/
def Spec.supervisorsControlGangs : Prop :=
  ∀ (s : State) (g : Gang) (a b : SReg),
    (let ill (i : Instr) : Prop := exec i s = .next (s.faults g (flt .illegal))
     (Runs s g .p [] →
       (∀ c, Spec.coreNamed s g a c →
         (bits (g.s b) 63 16 = 0 → Spec.acts s g (exec (.supsetCore a b) s) (fun t => (t.core c).supv = (g.s b).truncate 16)) ∧
         (bits (g.s b) 63 16 ≠ 0 → ill (.supsetCore a b)) ∧
         Spec.Finishes s g (exec (.supsetGet a b) s) [] [b] [] [] (fun t g' => SameMemory s t ∧
           (b ≠ 0 → g'.s b = ((s.core c).supv).zeroExtend 64))) ∧
       (bits (g.s a) 63 12 = 1 → bits (g.s a) 9 0 = 0 → s.samePart s.cur.core ((g.s a).truncate 12) = true →
         (let d := dieOf ((g.s a).truncate 12)
          (bits (g.s b) 63 16 = 0 → Spec.acts s g (exec (.supsetCore a b) s) (fun t => (t.dies[d]).dsupv = (g.s b).truncate 16)) ∧
          Spec.Finishes s g (exec (.supsetGet a b) s) [] [b] [] [] (fun t g' => SameMemory s t ∧
            (b ≠ 0 → g'.s b = ((s.dies[d]).dsupv).zeroExtend 64)))) ∧
       (∀ c k, Spec.gangNamed s g a c k →
         (∀ h, s.gang? c k = some h → (g.s b).toNat ≤ 2 → Spec.acts s g (exec (.supsetPriv a b) s) (fun t => ∃ h', t.gang? c k = some h' ∧
           h'.priv = if (g.s b).toNat = 0 then .u else if (g.s b).toNat = 1 then .s else .p)) ∧
         (2 < (g.s b).toNat ∨ s.gang? c k = none → ill (.supsetPriv a b)))) ∧
     (Runs s g .s [] → ∀ c k, Spec.gangNamed s g a c k →
       (¬ Spec.controls_ s g c → ∀ i ∈ [Instr.freeze a, .resume a b, .cpyres a b, .cpyresCan a b],
         exec i s = .next (s.faults g (flt .privilege))) ∧
       (Spec.controls_ s g c →
         (s.gang? c k = none → Spec.acts s g (exec (.freeze a) s) (fun t => t.gang? c k = none) ∧ ill (.resume a b)) ∧
         ((c, k) = (s.cur.core, s.cur.slot) → Spec.Finishes s g (exec (.freeze a) s) [] [] [] [] (fun t g' =>
           SameMemory s t ∧ g'.freezeReq = true) ∧ ill (.resume a b)) ∧
         (∀ h, (c, k) ≠ (s.cur.core, s.cur.slot) → s.gang? c k = some h →
           (h.status = .frozen → Spec.acts s g (exec (.freeze a) s) (fun t => Spec.isNow t c k .frozen h h.regs.pc)) ∧
           (h.status ≠ .frozen → ill (.resume a b)) ∧
           (h.atBoundary = true → h.cnt.hung = false ∨ h.tx.active = false → Spec.acts s g (exec (.freeze a) s) (fun t => Spec.isNow t c k .frozen h h.regs.pc)) ∧
           (h.status ≠ .frozen → h.atBoundary = false → Spec.Stalls s g (exec (.freeze a) s) .freezing (fun t =>
             ∃ h', t.gang? c k = some h' ∧ h'.freezeReq = true ∧ h'.regs = h.regs)) ∧
           (h.status = .frozen → h.priv = .p → (s.part c).state = .failed → ill (.resume a b)) ∧
           (h.hold ≠ none → ill (.resume a b)) ∧
           (h.status = .frozen → h.hold = none → ¬ (h.priv = .p ∧ (s.part c).state = .failed) →
             (g.s b = 0 → Spec.acts s g (exec (.resume a b) s) (fun t => Spec.isNow t c k .running h h.regs.pc)) ∧
             (g.s b = 1 → Spec.acts s g (exec (.resume a b) s) (fun t => Spec.isNow t c k .running h (h.regs.pc + 4))) ∧
             (g.s b = 2 → h.partner = none → s.copiesOf c k (fun _ => true) = [] →
               Spec.acts s g (exec (.resume a b) s) (fun t => t.gang? c k = none)) ∧
             (∀ (n : Fin 8) (skip : Bool) r v, (g.s b).toNat = 3 + 4 * n.val + (if skip then 32 else 0) → h.parked[n] = some r →
               h.save = some v → Spec.acts s g (exec (.resume a b) s) (fun t => ∃ h', t.gang? c k = some h' ∧ h'.status = .running ∧
                 h'.regs.pc = (if skip then r.pc + 4 else r.pc) ∧ h'.regs.pkm = h.regs.pkm &&& ~~~ r.lanes ∧ h'.parked[n] = none ∧
                 h'.stack = r.stack.reverse ∧ h'.replay = true)) ∧
             (bits (g.s b) 63 6 ≠ 0 ∨ (bits (g.s b) 1 0 ≠ 3 ∧ bits (g.s b) 5 2 ≠ 0) → ill (.resume a b)))))))

/-- CPYRES, STOP and START (10 R378, R381; 11 R391, R401, R403, 05 R171). CPYRES lets a stopped command go on, CPYRES.can
ends one that has no chunk under way; either faults ILLEGAL for a slot with no stopped command of the gang, and for one that Fount holds (log 57). STOP makes its cores issue nothing more and
completes when what they sent is complete: it waits for an access of a gang below P, and aborts that gang's open transactions; START undoes it in a partition that is not FAILED. -/
def Spec.commandsAndCoresStop : Prop :=
  ∀ (s : State) (g : Gang) (a b : SReg),
    (let me := s.cur.core
     let still (c : CoreId) : Prop := (s.ctx c).flights = [] ∧ (s.ctx c).copies = [] ∧ (s.ctx c).packets = [] ∧ (s.core c).inFlight = [] ∧
       ∀ k h, s.gang? c k = some h → h.why? ≠ some .sysRead ∧ ∀ n, h.why? ≠ some (.sc n)
     let site (c : CoreId) : Prop := s.samePart me c = true ∧ s.noCore c = false
     let halts (t : State) (c : CoreId) : Prop := (t.core c).stopped = true ∧ ∀ k h, s.gang? c k = some h → ∃ h', t.gang? c k = some h' ∧
       KeepsRegs [] [] [] [] h h' ∧ ((s.core c).stopped = false → h.priv ≠ .p → h.tx.active = true →
         ∀ i : Fin 32, h.irrevocable i = false → (h'.tx.lanes[i]).isOpen = false)
     (Runs s g .s [] → ∀ c k, Spec.gangNamed s g a c k → Spec.controls_ s g c →
       (let n := (g.s b).toNat
        (∀ y, n < 1024 → s.copy? c n = some y → y.slot = k → y.stop.isSome = true → y.hold = none →
          Spec.acts s g (exec (.cpyres a b) s) (fun t => t.copy? c n = some { y with stop := none }) ∧
          (y.sent = [] → Tbl.rising (s.ctx c).copies = true →
            Spec.acts s g (exec (.cpyresCan a b) s) (fun t => t.copy? c n = none)) ∧
          (y.sent ≠ [] → Spec.Stalls s g (exec (.cpyresCan a b) s) .stopping (fun t =>
            t.copy? c n = some { y with stop := none, dying := true }))) ∧
        (1024 ≤ n ∨ (∀ y, s.copy? c n = some y → y.slot ≠ k ∨ y.stop = none ∨ y.hold ≠ none) →
          exec (.cpyres a b) s = .next (s.faults g (flt .illegal)) ∧ exec (.cpyresCan a b) s = .next (s.faults g (flt .illegal))))) ∧
     (Runs s g .p [] →
       (∀ c, Spec.coreNamed s g a c →
         (still c → Spec.acts s g (exec (.stopCore a) s) (fun t => halts t c)) ∧
         ((∃ f ∈ (s.ctx c).flights, ∀ h, s.gang? c f.2.slot = some h → h.priv ≠ .p) →
           Spec.Stalls s g (exec (.stopCore a) s) .stopping (fun t => halts t c)) ∧
         ((s.part me).state ≠ .failed → Spec.acts s g (exec (.startCore a) s) (fun t => (t.core c).stopped = false))) ∧
       ((∀ c, site c → still c) → Spec.acts s g (exec .stopPart s) (fun t => ∀ c, site c → halts t c)) ∧
       ((s.part me).state ≠ .failed → Spec.acts s g (exec .startPart s) (fun t => ∀ c, site c → (t.core c).stopped = false)) ∧
       ((s.part me).state = .failed → Spec.acts s g (exec .startPart s) (fun t => ∀ c, (t.core c).stopped = (s.core c).stopped))))

/-- A context as it stands in a core: its scratchpad, its inbox, its gangs' registers. -/
def Spec.holdsCtx (t : State) (c : CoreId) (x : Ctx) : Prop :=
  (t.ctx c).pad = x.pad ∧ (t.ctx c).inbox = x.inbox ∧ ∀ k : SlotId, (t.gang? c k).map Gang.regs = (x.slots[k]).map Gang.regs

/-- A context as it is saved from a core: its scratchpad, its inbox, its origin, its gangs' registers. -/
abbrev Spec.savedFrom (s : State) (c : CoreId) (x : Ctx) : Prop :=
  x.pad = (s.ctx c).pad ∧ x.inbox = (s.ctx c).inbox ∧ x.origin = some (s.origin c) ∧
    ∀ k : SlotId, (s.gang? c k = none ↔ x.slots[k] = none) ∧ ∀ h h', s.gang? c k = some h → x.slots[k] = some h' →
      KeepsRegs [] [] [] [] h h' ∧ h'.regs.pc = h.regs.pc ∧ h'.stack = h.stack ∧ h'.priv = h.priv

/-- Contexts (10 R373, R379, R380; 11 R404 to R406). On a stopped core that has halted and holds no gang of level P: CTXSAVE puts the context in
the Tarn store and leaves the core empty, CTXSWAP exchanges them, CTXLOAD brings a context to an empty core, MIGRATE moves it to
another empty core and leaves a forwarding entry, which MIGRATE.retire removes. CTXSAVE.spill writes the saved context's image to the object range
that it names and empties the Tarn store; CTXLOAD.fill brings back one whose image it reads. A condition not met faults ILLEGAL, a context
that an error has spoiled at its CTXLOAD and CTXSWAP too (11 R405), and, the model's choice (log 60), a MIGRATE of a core onto itself. -/
def Obligations.ContextsMove : Prop :=
  ∀ (s : State) (g : Gang) (a : SReg) (c : CoreId), Runs s g .p [] → Spec.coreNamed s g a c →
    (let free : Prop := (s.ctx c).empty = true
     let ready : Prop := s.halted c = true ∧ s.hasP c = false
     let outside (d : CoreId) (t : State) : Prop := ∀ l : Loc, (∀ o, l ≠ .pad d o) → t.byteAt l = s.byteAt l
     let fin (i : Instr) (P : State → Prop) : Prop := Spec.Finishes s g (exec i s) [] [] [] [] (fun t _ => P t)
     let ill (i : Instr) : Prop := exec i s = .next (s.faults g (flt .illegal))
     (ready → ¬ free → (s.core c).tarn = none → Spec.acts s g (exec (.ctxsave a) s) (fun t => (t.ctx c).empty = true ∧
       ∃ x, (t.core c).tarn = some x ∧ Spec.savedFrom s c x)) ∧
     (¬ ready ∨ free ∨ (s.core c).tarn ≠ none → ill (.ctxsave a)) ∧
     (∀ y, ready → (s.core c).tarn = some y → y.spoiled = false → fin (.ctxswap a) (fun t => outside c t ∧ Spec.holdsCtx t c y ∧
       (free → (t.core c).tarn = none) ∧ (¬ free → ∃ x, (t.core c).tarn = some x ∧ Spec.savedFrom s c x))) ∧
     (ready → (s.core c).tarn = none → ¬ free → Spec.acts s g (exec (.ctxswap a) s) (fun t => (t.ctx c).empty = true ∧
       ∃ x, (t.core c).tarn = some x ∧ Spec.savedFrom s c x)) ∧
     (¬ ready ∨ (∃ y, (s.core c).tarn = some y ∧ y.spoiled = true) → ill (.ctxswap a)) ∧
     (∀ y, s.halted c = true → free → (s.core c).tarn = some y → y.spoiled = false → fin (.ctxload a) (fun t => outside c t ∧ Spec.holdsCtx t c y ∧
       (t.core c).tarn = none)) ∧
     (s.halted c = false ∨ ¬ free ∨ (s.core c).tarn = none ∨ (∃ y, (s.core c).tarn = some y ∧ y.spoiled = true) → ill (.ctxload a)) ∧
     (∀ (m : CReg) x ls, (s.core c).tarn = some x → s.imagePlaces s.cur.core true (g.c m) m.toNat = .ok ls →
       fin (.ctxsaveSpill a m) (fun t => SameMemoryBut ls s t ∧ (t.core c).tarn = none ∧
         ∃ n y, Tbl.get? (t.part s.cur.core).spills n = some y ∧ y.pad = x.pad ∧ y.inbox = x.inbox ∧ y.slots = x.slots)) ∧
     (∀ (m : CReg), (s.core c).tarn = none → ill (.ctxsaveSpill a m)) ∧
     (∀ (m : CReg) ls, (s.core c).tarn = none → s.imagePlaces s.cur.core false (g.c m) m.toNat = .ok ls →
       (let image := ls.map (fun l => (s.homeRead l 1).getD 0 0)
        (∀ n x, (s.part s.cur.core).spillOf image = some (n, x) → Spec.acts s g (exec (.ctxloadFill a m) s) (fun t =>
          ∃ y, (t.core c).tarn = some y ∧ y.pad = x.pad ∧ y.inbox = x.inbox ∧ y.slots = x.slots)) ∧
        ((s.part s.cur.core).spillOf image = none → ill (.ctxloadFill a m)))) ∧
     (∀ (m : CReg), (s.core c).tarn ≠ none → ill (.ctxloadFill a m)) ∧
     (∀ b d, Spec.coreNamed s g b d → ready → (s.core c).fwd = none → c ≠ d → s.halted d = true → (s.ctx d).empty = true →
       fin (.migrate a b) (fun t => outside d t ∧ Spec.holdsCtx t d (s.ctx c) ∧ (t.ctx d).origin = some (s.origin c) ∧
         (t.ctx c).empty = true ∧ (t.core c).fwd = some d ∧ ((s.core d).fwd = none → t.route c = d))) ∧
     (∀ b d, Spec.coreNamed s g b d → ¬ ready ∨ (s.core c).fwd ≠ none ∨ c = d ∨ s.halted d = false ∨ (s.ctx d).empty = false →
       ill (.migrate a b)) ∧
     Spec.acts s g (exec (.migrateRetire a) s) (fun t => (t.core c).fwd = none))

/-- Settings of the partition (10 R382 to R385; 02 R67, R73; 05 R161, R162; 12 R436). OBJINV drops the cached records and map entries of its object
once nothing translated by them is under way, and waits until then; ORTSET.base does so for all objects and moves the table; ORTSET.rec writes an
admitted record into the table and refuses another with its code; RTNLD puts sixteen legal words in a routine slot, RTNCLR empties one; CHANCTL writes or
clears a circuit that R384 and R436 admit; PARTCTL writes a setting and gives the old value. What they refuse faults ILLEGAL. -/
def Obligations.PartitionSettings : Prop :=
  ∀ (s : State) (g : Gang) (a b : SReg),
    (let n := s.partNo s.cur.core
     let p := s.parts[n]
     let v := (g.s a).toNat
     let w := (g.s b).toNat
     let pad := (s.ctx s.cur.core).pad
     let ill (i : Instr) : Prop := exec i s = .next (s.faults g (flt .illegal))
     (Runs s g .s [] → v < 2 ^ 24 →
       (let mine (m : Nat × DWord) : Bool := m.1 / 2 ^ 24 == v
        (s.underWay n (p.frames (fun id => id == v)) = false → Spec.acts s g (exec (.objinv a) s) (fun t =>
          (t.parts[n]).recs = p.recs.filter (fun r => r.1 != v) ∧ (t.parts[n]).maps = p.maps.filter (fun m => !mine m))) ∧
        (s.underWay n (p.frames (fun id => id == v)) = true → Spec.Stalls s g (exec (.objinv a) s) .objinv (fun t => t.parts[n] = p)))) ∧
     (Runs s g .s [] → 2 ^ 24 ≤ v → ill (.objinv a)) ∧
     (Runs s g .p [] →
       (w % 64 = 0 → w + 64 ≤ 0x37000 → Spec.intact s s.cur.core → (s.ctx s.cur.core).busy (.pad s.cur.core w) 64 = false →
         (let bytes := pad.read w 64
          let ws := recParse bytes
          (v < 64 → (∀ x ∈ ws.zipIdx, routineWord x.2 x.1 = true) → Spec.acts s g (exec (.rtnld a b) s) (fun t =>
            Tbl.get? (t.parts[n]).routines v = some ws)) ∧
          (v < 64 → (∃ x ∈ ws.zipIdx, routineWord x.2 x.1 = false) → ill (.rtnld a b)) ∧
          (∀ k, v < 2 ^ 24 → recordRefusal p.ortSize v (ObjRec.parse bytes) = some k →
            Spec.faultsAt s g (exec (.ortsetRec a b) s) .illegal k) ∧
          (v < 2 ^ 24 → recordRefusal p.ortSize v (ObjRec.parse bytes) = none → s.dram.wf = true → Spec.here (.phys (p.ortBase + 64 * v)) →
            Spec.Finishes s g (exec (.ortsetRec a b) s) [] [] [] [] (fun t _ =>
              SameMemoryBut (Spec.places (.phys (p.ortBase + 64 * v)) 64) s t ∧
              ∀ j, j < 64 → t.byteAt (.phys (p.ortBase + 64 * v + j)) = pad.get (w + j))))) ∧
       (64 ≤ v → ill (.rtnld a b) ∧ ill (.rtnclr a)) ∧
       (v < 64 → Tbl.rising p.routines = true → Spec.acts s g (exec (.rtnclr a) s) (fun t => Tbl.get? (t.parts[n]).routines v = none)) ∧
       (v % 64 = 0 → v < 2 ^ 48 → 1 ≤ w → w ≤ 2 ^ 24 → p.ownsPa v = true → p.ownsPa (v + 64 * w - 1) = true →
         (v + 64 * w - 1) / 2 ^ 36 = v / 2 ^ 36 → s.underWay n (p.frames (fun _ => true)) = false →
         Spec.acts s g (exec (.ortsetBase a b) s) (fun t => (t.parts[n]).ortBase = v ∧ (t.parts[n]).ortSize = w ∧
           (t.parts[n]).recs = [] ∧ (t.parts[n]).maps = [])) ∧
       (v % 64 ≠ 0 ∨ 2 ^ 48 ≤ v ∨ w = 0 ∨ 2 ^ 24 < w ∨ p.ownsPa v = false → ill (.ortsetBase a b)) ∧
       (s.circuitOk n v (g.s b) = true → Spec.acts s g (exec (.chanctlSet a b) s) (fun t =>
         ∃ c, t.circuits.toList[v]? = some c ∧ c.valid = true ∧ c.part = n ∧ c.desc = g.s b)) ∧
       (s.circuitOk n v (g.s b) = false → ill (.chanctlSet a b)) ∧
       (p.hasEntry v = true → (∀ c, s.circuits.toList[v]? = some c → s.circuitHeld n c = false) →
         Spec.acts s g (exec (.chanctlClr a) s) (fun t => ∃ c, t.circuits.toList[v]? = some c ∧ c.valid = false)) ∧
       (p.hasEntry v = false ∨ (∃ c, s.circuits.toList[v]? = some c ∧ s.circuitHeld n c = true) → ill (.chanctlClr a)) ∧
       (∀ k : BitVec 3, settingOk k.toNat v = true → (k = 0 → s.allStopped p = true) →
         Spec.Finishes s g (exec (.partctl k a b) s) [] [b] [] [] (fun t g' => SameMemory s t ∧
           (b ≠ 0 → g'.s b = BitVec.ofNat 64 (p.setting k.toNat)) ∧ (t.parts[n]).setting k.toNat = v ∧
           ∀ j, j < 6 → j ≠ k.toNat → (t.parts[n]).setting j = p.setting j)) ∧
       (∀ k : BitVec 3, settingOk k.toNat v = false ∨ (k = 0 ∧ s.allStopped p = false) → ill (.partctl k a b))))

/-- Supervision of gangs, commands and cores (10, 11). -/
def Obligations.Supervision : Prop :=
  Spec.supervisorsControlGangs ∧ Spec.commandsAndCoresStop

/-! Fault events (01 R31, 06 R202 to R204, 11 R388 to R391, R407, 15 R466, R467). -/

/-- Another packet reached the gang before this one (11 R390 item 3). -/
abbrev Spec.before (s : State) (c : CoreId) (p : Packet) (x : CoreId) (k : SlotId) : Prop :=
  ∃ d ∈ s.coresOf (s.part c), ∃ q ∈ (s.ctx d).packets, ∃ m, q.2.reached = some m ∧ m < p.reached.getD s.clock ∧
    ∃ y, s.boundFor d q.2 = some y ∧ y.1 = x ∧ y.2.1 = k

/-- What becomes of a raised packet that a STOP has not saved (11 R388 to R391). It goes to the gang that SUPV, then DSUPV, names, and to Fount: with no such gang or a
frozen one it goes one hop on; from a supervisor's own fault it goes to Fount as an ESCALATION; it enters the next of the 32 entries of
the gang's record area, granules full, or waits while they are full, or while one that came before it waits; at Fount it joins the queue, and a full queue fails the partition. -/
def Obligations.FaultPacketsTravel : Prop :=
  ∀ (s : State) (n key : Nat) (c : CoreId) (p : Packet), s.packet? n = some (c, key, p) → p.rec_.hop < 3 → p.kept = false →
    (let out := exec (.faultPacketDelivery n) s
     let left (t : State) : Prop := (t.ctx c).packets = Tbl.del (s.ctx c).packets key
     let own (x : CoreId) (k : SlotId) : Prop := x = c ∧ k.val = p.rec_.slot
     let at_ (sup : Option (CoreId × SlotId × Gang)) (next : Target) : Prop :=
       (sup = none ∨ (∃ x k g, sup = some (x, k, g) ∧ ¬ own x k ∧ g.status = .frozen) →
         Spec.Occurs out (fun t => SameMemory s t ∧
           Tbl.get? (t.ctx c).packets key = some { target := next, rec_ := { p.rec_ with hop := p.rec_.hop + 1 } })) ∧
       (∀ x k g, sup = some (x, k, g) →
         (own x k → Spec.Occurs out (fun t => SameMemory s t ∧ ∃ q, Tbl.get? (t.ctx c).packets key = some q ∧
           q.target = .fount ∧ q.rec_.flt.code = .escalation ∧ q.rec_.flt.offset = BitVec.ofNat 64 p.rec_.flt.code.num)) ∧
         (¬ own x k → g.status ≠ .frozen →
           (let e := 0x38000 + 2048 * k.val + 64 * (g.cnt.packets % 32)
            let b := recordBytes p.rec_
            let held : Prop := (∃ i ∈ granulesOf e 64, (s.ctx x).full.has i = true) ∨ Spec.before s c p x k
            (held → p.reached = none → Spec.Occurs out (fun t => SameMemory s t ∧
              Tbl.get? (t.ctx c).packets key = some { p with reached := some s.clock })) ∧
            (held → p.reached ≠ none → out = .next s) ∧
            (¬ held → Memory.wf (s.ctx x).pad = true → Spec.Occurs out (fun t => left t ∧
              SameMemoryBut (Spec.places (.pad x e) b.length) s t ∧ (∀ i (h : i < b.length), t.byteAt (.pad x (e + i)) = b[i]) ∧
              (∀ i ∈ granulesOf e 64, (t.ctx x).full.has i = true) ∧
              ∃ g', t.gang? x k = some g' ∧ g'.regs = g.regs ∧ g'.status = g.status ∧ g'.cnt.packets = g.cnt.packets + 1)))))
     (p.target = .supv → at_ (s.supGang c (s.core c).supv) .dsupv) ∧
     (p.target = .dsupv → at_ (s.supGang c (s.dies[dieOf c]).dsupv) .fount) ∧
     (p.target = .fount → s.fount.queue.length < 256 →
       Spec.Occurs out (fun t => SameMemory s t ∧ left t ∧ t.fount.queue = s.fount.queue ++ [p])) ∧
     (p.target = .fount → 256 ≤ s.fount.queue.length → Spec.Occurs out (fun t => (t.parts[s.partNo c]).state = .failed)))

/-- WATCHDOG_HUNG, CONVERGENCE_COUNT_FREEZE and FOUNT_PACKET_SERVICE (06 R202 to R204, 01 R31, 11 R391, R407, 15 R466), and the words of
Fount's own processor (07 R214, log 86). A gang that is not quiescent and has spent a whole window without progress freezes with WATCHDOG
at its next boundary; one that has retired 4,096 instructions since it parked lanes freezes as at a CONV. Fount takes its oldest packet
and applies the partition's action for the code: the gang runs on, skips its word, is held, ends, or the partition fails; a gang of level
P of a FAILED partition stays as it is (R391), and so does one that is held already (15 R467). Memory stands. Fount's processor writes what a scalar word of it writes, into its own
registers alone; an opcode that it does not execute is a fault of Fount's own, which fails the partition. -/
def Obligations.FaultServices : Prop :=
  (∀ (s : State) (n : Fin 4) (w : Word) (rest : List (Fin 4 × Word)), s.fount.words = (n, w) :: rest →
    (let cpu := s.fount.cpu
     let t := s.fountStep
     let op := bits w 31 24
     (¬ (op < 0x10 ∨ (0x30 ≤ op ∧ op ≤ 0x3B) ∨ (0x73 ≤ op ∧ op ≤ 0x75) ∨ (0xE0 ≤ op ∧ op < 0xF0)) → (s.parts[n]).state ≠ .absent →
       t.fount.words = rest ∧ t.fount.cpu.fcode = .illegal ∧ t.fount.cpu.regs = cpu.regs ∧ (t.parts[n]).state = .failed) ∧
     (∀ i d x, decode w = some i → 0x30 ≤ op → op ≤ 0x3B → Spec.sResult cpu i = some (d, x) → cpu.status = .running → cpu.chan.role = .none →
       SameMemory s t ∧ t.cores = s.cores ∧ t.parts = s.parts ∧ t.fount.words = rest ∧ t.fount.cpu.regs.pc = cpu.regs.pc + 4 ∧
         ∀ r, t.fount.cpu.s r = (cpu.setS d x).s r))) ∧
  (∀ (s : State) (c : CoreId) (k : SlotId) (g : Gang), s.gang? c k = some g →
    (let hung := exec (.watchdogHung c k) s
     let due : Prop := g.cnt.hung = false ∧ s.quiescent c k g = false ∧ g.window ≤ g.cnt.dog
     (due → g.tx.active = false → g.atBoundary = true → Spec.Leaves hung c k (fun t g' =>
       SameMemory s t ∧ g'.status = .frozen ∧ g'.fcode = .watchdog ∧ g'.regs = g.regs ∧ g'.stack = g.stack)) ∧
     (due → g.atBoundary = false → Spec.Leaves hung c k (fun t g' =>
       SameMemory s t ∧ g'.freezeReq = true ∧ g'.regs = g.regs ∧ g'.status = g.status)) ∧
     (¬ due → hung = .next s) ∧
     (g.status = .running → g.regs.pkm ≠ 0 → 4096 ≤ g.cnt.sincePark →
       Spec.Leaves (exec (.convergenceCountFreeze c k) s) c k (fun t g' => SameMemory s t ∧ g'.status = .frozen ∧ g'.regs = g.regs ∧
         g'.stack = g.stack ∧ (g.replay = false → g'.save = some ⟨g.regs.pc, g.regs.exm, g.stack⟩))) ∧
     (g.cnt.sincePark < 4096 → exec (.convergenceCountFreeze c k) s = .next s))) ∧
  (∀ (s : State) (p : Packet) (rest : List Packet) (k : SlotId) (g : Gang), s.fount.queue = p :: rest → p.rec_.copy = false →
    k.val = p.rec_.slot → s.gang? (s.route p.rec_.core) k = some g → g.status = .frozen →
    (let c := s.route p.rec_.core
     let n := s.partNo p.rec_.core
     let act := ((s.parts[n]).escpol.getD p.rec_.flt.code.num 0).toNat
     let does (P : State → Prop) : Prop := Spec.Occurs (exec .fountPacketService s) (fun t => SameMemory s t ∧ t.fount.queue = rest ∧ P t)
     (s.failedP c g = true → act ≤ 2 → does (fun t => t.gang? c k = some g)) ∧
     (s.failedP c g = false →
     (g.hold ≠ none → act ≤ 2 → does (fun t => t.gang? c k = some g)) ∧
     (act = 0 → g.hold = none → g.partner = none → s.copiesOf c k (fun _ => true) = [] → does (fun t => t.gang? c k = none)) ∧
     (act = 1 → g.hold = none → does (fun t => Spec.isNow t c k .running g g.regs.pc)) ∧
     (act = 2 → g.hold = none → does (fun t => Spec.isNow t c k .running g (g.regs.pc + 4)))) ∧
     (act = 3 → does (fun t => Spec.isNow t c k .frozen g g.regs.pc ∧ t.heldBy c k none = true)) ∧
     (4 ≤ act → Spec.Occurs (exec .fountPacketService s) (fun t => t.fount.queue = rest ∧ (t.parts[n]).state = .failed))))

/-! Ownership and partitions (12 R423 to R432, R440, R442). -/

/-- The command completes with a result in its master's mailbox. -/
def Spec.answers (m : Byte) (o : Host.Outcome State Fault Refusal) (r : Nat) (P : State → Prop) : Prop :=
  Spec.Occurs o (fun t => (t.box m).state = 2 ∧ (t.box m).result = r ∧ P t)

/-- It completes so, with no byte of memory changed. -/
def Spec.tells (s : State) (m : Byte) (o : Host.Outcome State Fault Refusal) (r : Nat) (P : State → Prop) : Prop :=
  Spec.answers m o r (fun t => SameMemory s t ∧ P t)

/-- Fount is free to begin a command of the master: none of it is under way, and no claim is being verified (12 R424). -/
abbrev Spec.idle (s : State) (m : Byte) : Prop := (s.box m).state ≠ 1 ∧ s.fount.claims = []

/-- Ownership (12 R424 to R427). CLAIM waits for its verification, which makes a master with a valid credential the owner of an unowned
module, and answers NOT_OPEN or LOST to one that found an owner, AUTH_FAIL to a bad credential. While a claim is verified a command of another master
waits in its turn, and a command of a master whose last is not complete is dropped. RENEW with the lease number starts the lease
again; YIELD gives ownership to a present master. At 80 ms the owner is warned, at 100 ms the module is unowned. -/
def Obligations.OwnershipMoves : Prop :=
  ∀ (s : State) (m : Byte) (data : List Byte),
    (let f := s.fount
     let yielding := exec (.yieldOwnership m data) s
     let renews := exec (.renew m data) s
     let warns : Prop := s.owned = true ∧ f.warned = false ∧ f.granted + 80000 ≤ f.time
     let lapses : Prop := s.owned = true ∧ f.granted + 100000 ≤ f.time
     (s.serves m true = true → (s.box m).state ≠ 1 → Spec.Occurs (exec (.claim m data) s) (fun t => SameMemory s t ∧ (t.box m).state = 1 ∧
       t.fount.claims = f.claims ++ [⟨m, data, s.owned, 1⟩] ∧ t.fount.owner = f.owner)) ∧
     (s.serves m true = false → exec (.claim m data) s = .next s) ∧
     (s.serves m true = true → (s.box m).state ≠ 1 → f.claims ≠ [] → ∀ i code, (i = .renew m data ∧ code = 2) ∨ (i = .yieldOwnership m data ∧ code = 3) →
       Spec.Occurs (exec i s) (fun t => SameMemory s t ∧ (t.box m).state = 1 ∧ t.fount.claims = f.claims ++ [⟨m, data, s.owned, code⟩] ∧
         t.fount.owner = f.owner ∧ t.fount.granted = f.granted)) ∧
     ((s.box m).state = 1 → ∀ i, i = .claim m data ∨ i = .renew m data ∨ i = .yieldOwnership m data → exec i s = .next s) ∧
     (∀ c rest, f.claims = c :: rest → (∀ x, rest.head? = some x → x.code = 1) →
       (let out := exec .claimVerification s
        (s.owned = true → Spec.tells s c.master out (if c.owned then 6 else 5) (fun t => t.fount.claims = rest ∧ t.fount.owner = f.owner)) ∧
        (s.owned = false → f.credential c.master c.data = true → Spec.tells s c.master out 0 (fun t => t.fount.claims = rest ∧
          t.fount.owner = c.master ∧ t.fount.granted = f.time)) ∧
        (s.owned = false → f.credential c.master c.data = false → Spec.tells s c.master out 4 (fun t => t.fount.claims = rest ∧
          t.fount.owner = f.owner)))) ∧
     (s.serves m false = true → Spec.idle s m → s.isOwner m = true →
       (data.length = 8 → ofBytes data = f.lease.toNat → Spec.tells s m renews 0 (fun t => t.fount.granted = f.time ∧ t.fount.owner = m)) ∧
       (data.length = 8 → ofBytes data ≠ f.lease.toNat → Spec.tells s m renews 1 (fun t => t.fount.granted = f.granted)) ∧
       (∀ x, data = [x] → x ≠ m → s.present x = true → Spec.tells s m yielding 0 (fun t => t.fount.owner = x ∧ t.fount.granted = f.time)) ∧
       (∀ x, data = [x] → x = m ∨ s.present x = false → Spec.tells s m yielding 2 (fun t => t.fount.owner = m))) ∧
     (warns → Spec.Occurs (exec .leaseWarning s) (fun t => SameMemory s t ∧ t.fount.warned = true ∧ t.fount.owner = f.owner ∧
       ∀ n : Fin 4, f.owner = BitVec.ofNat 8 n.val → (t.funcs[n]).evcause.getLsbD 2 = true)) ∧
     (¬ warns → exec .leaseWarning s = .next s) ∧
     (lapses → Spec.Occurs (exec .leaseRevocation s) (fun t => SameMemory s t ∧ t.fount.owner = 0xFF ∧
       ∀ n : Fin 4, (t.funcs[n]).evcause.getLsbD 0 = true)) ∧
     (¬ lapses → exec .leaseRevocation s = .next s))

/-- Partitions (12 R429 to R432, R442). PART_CREATE of a well-formed descriptor with free dies and ports makes a running partition with a boot gang of
level P in slot 0 of core (0,0) of each die, at PC 2^40, named by DSUPV; it answers BAD_ARG and REFUSED otherwise. PART_DESTROY and
PART_RESET leave no gang on its dies and scrub; when scrubbing is complete its scratchpads and stacks read zero and it is absent, or it runs
again on its dies that are not parked (15 R460); one that PART_DESTROY ended is not built again (log 88). -/
def Obligations.PartitionsComeAndGo : Prop :=
  ∀ (s : State) (m : Byte) (d : List Byte) (n : Fin 4),
    (let create := exec (.partCreate m d) s
     let p := s.parts[n]
     let wiped (t : State) : Prop := (∀ c : CoreId, p.dies.getLsbD (dieOf c).val = true → ∀ o, t.byteAt (.pad c o) = 0) ∧
       ∀ a, p.dies.getLsbD (stackDie a) = true → a / 2 ^ 36 < 8 → t.byteAt (.phys a) = 0
     (s.serves m false = true → Spec.idle s m → s.isOwner m = true →
       (descFormed d = true → s.descFree d = true → Spec.answers m create 0 (fun t =>
         (let q := t.parts[descPart d]
          q.state = .running ∧ q.dies = descDies d ∧ q.ports = descPorts d ∧ q.det = descDet d ∧ q.ortSize = descEntries d ∧
          ∀ x : Fin 4, (descDies d).getLsbD x.val = true → (t.dies[x]).dsupv = 0x8000 ||| (siteAt x.val 0 0).zeroExtend 16 ∧
            ∃ g, t.gang? (siteAt x.val 0 0) 0 = some g ∧ g.priv = .p ∧ g.status = .running ∧ g.regs.pc = BitVec.ofNat 64 (2 ^ 40) ∧
              g.active = 0xFFFFFFFF))) ∧
       (descFormed d = false → Spec.tells s m create 2 (fun t => t.parts = s.parts)) ∧
       (descFormed d = true → s.descFree d = false → Spec.tells s m create 7 (fun t => t.parts = s.parts)) ∧
       (∀ again : Bool, d = [BitVec.ofNat 8 n.val] → p.state ≠ .absent →
         Spec.tells s m (exec (if again then .partReset m d else .partDestroy m d) s) 0 (fun t =>
           (t.parts[n]).state = .scrubbing ∧ ((t.parts[n]).rebuild = true ↔ again = true ∧ (p.state = .scrubbing → p.rebuild = true)) ∧
           ∀ c k, p.dies.getLsbD (dieOf c).val = true → t.gang? c k = none))) ∧
     (p.state = .scrubbing → p.rebuild = false → Spec.Occurs (exec (.partScrubComplete n) s) (fun t =>
       (t.parts[n]).state = .absent ∧ wiped t)) ∧
     (p.state = .scrubbing → p.rebuild = true → Spec.Occurs (exec (.partScrubComplete n) s) (fun t => (t.parts[n]).state = .running ∧
       ∀ (x : Fin 4) k, (descDies p.desc).getLsbD x.val = true → s.isParked x = false → (t.gang? (siteAt x.val 0 0) k = none ↔ k ≠ 0))) ∧
     (p.state ≠ .scrubbing → exec (.partScrubComplete n) s = .next s))

/-! Other commands of the mailbox (12 R421, R424, R437, R438, R443 to R447; 15 R451, R459 to R467). -/

/-- The commands of this section that only the owner may give, and whether recovery serves them (12 R440). -/
abbrev Spec.ownerOnly (m : Byte) (d : List Byte) (x : Instr × Bool) : Prop :=
  x ∈ [(.renew m d, false), (.yieldOwnership m d, false), (.partCreate m d, false), (.partDestroy m d, false), (.partReset m d, false),
   (.setDeleg m d, false), (.setModid m d, false), (.setRoute m d, false), (.setExport m d, false), (.extend m d, false),
   (.updateWrite m d, true), (.updateActivate m d, true), (.updateCommit m d, true), (.setCeiling m d, false), (.setShare m d, false),
   (.setPmax m d, false), (.park m d, false), (.unpark m d, false), (.setEscpol m d, false), (.fresume m d, false),
   (.setWdog m d, false), (.clrCounters m d, false)]

/-- The commands of this section, and their codes (12 R424). -/
abbrev Spec.hasCode (m : Byte) (d : List Byte) (x : Instr × Nat) : Prop :=
  x ∈ [(.renew m d, 0x02), (.yieldOwnership m d, 0x03), (.partCreate m d, 0x10), (.partDestroy m d, 0x11), (.partReset m d, 0x12),
   (.setDeleg m d, 0x13), (.setModid m d, 0x14), (.setRoute m d, 0x15), (.setExport m d, 0x16), (.attest m d, 0x20), (.extend m d, 0x21),
   (.cert m d, 0x22), (.updateWrite m d, 0x30), (.updateActivate m d, 0x31), (.updateCommit m d, 0x32), (.logRead m d, 0x40),
   (.setCeiling m d, 0x50), (.setShare m d, 0x51), (.setPmax m d, 0x52), (.park m d, 0x53), (.unpark m d, 0x54), (.setEscpol m d, 0x55),
   (.fresume m d, 0x56), (.setWdog m d, 0x57), (.clrCounters m d, 0x58)]

/-- Commands on the module's identity, routes, update, measurements and log (12 R421, R424, R437, R438, R443 to R447). One waits while a claim
is being verified, and is dropped while the master's last command is not complete. A command that Fount, free, does
not serve changes nothing; an owner's command of another master answers NOT_OWNER and changes nothing else. The others write what they
name, or answer BAD_ARG, REFUSED or AUTH_FAIL and change nothing else. That a length which is not the command's answers BAD_ARG is the
model's choice (log 65). -/
def Spec.moduleCommands : Prop :=
  ∀ (s : State) (m : Byte) (d : List Byte),
    (let f := s.fount
     let v := (d.getD 0 0).toNat
     let ok (i : Instr) (P : State → Prop) : Prop := Spec.tells s m (exec i s) 0 P
     let no (i : Instr) (r : Nat) : Prop := ∃ t, exec i s = .next t ∧ t = s.setBox m (t.box m) ∧ (t.box m).state = 2 ∧ (t.box m).result = r
     let spare := f.spare
     (∀ x : Instr × Nat, Spec.hasCode m d x → ((s.box m).state = 1 → exec x.1 s = .next s) ∧
       (s.serves m true = true → (s.box m).state ≠ 1 → f.claims ≠ [] → Spec.Occurs (exec x.1 s) (fun t => SameMemory s t ∧ (t.box m).state = 1 ∧
         t.fount.claims = f.claims ++ [⟨m, d, s.owned, x.2⟩] ∧ t.parts = s.parts ∧ t.cores = s.cores))) ∧
     (Spec.idle s m →
     (∀ x : Instr × Bool, Spec.ownerOnly m d x → (s.serves m x.2 = false → exec x.1 s = .next s) ∧
       (s.serves m x.2 = true → s.isOwner m = false → no x.1 1)) ∧
     (s.serves m true = true →
       (d.length = 32 → ok (.attest m d) (fun t => ∃ sig, (t.box m).data = f.evidence d ++ sig)) ∧
       (d.length ≠ 32 → no (.attest m d) 2) ∧
       ok (.cert m d) (fun t => t.fount.owner = f.owner ∧ t.parts = s.parts) ∧
       (d.length = 8 → ok (.logRead m d) (fun t => ∃ rest, t.fount.log = f.log ∧ (t.box m).data =
         ((f.log.filter (fun e => decide (ofBytes d ≤ ofBytes (e.take 8)))).take 63).flatten ++ rest)) ∧
       (d.length ≠ 8 → no (.logRead m d) 2)) ∧
     (s.serves m true = true → s.isOwner m = true →
       (4 ≤ d.length →
         (let img := (f.slotImg[spare]).write (field d 0 4) (d.drop 4)
          (f.rollback ≤ Config.imageVersion img → ok (.updateWrite m d) (fun t => t.fount.slotImg[spare] = img ∧
            t.fount.versions[spare] = Config.imageVersion img ∧ t.fount.active = f.active)) ∧
          (Config.imageVersion img < f.rollback → no (.updateWrite m d) 7))) ∧
       (let img := f.slotImg[spare]
        (Config.imageOk img = false → no (.updateActivate m d) 4) ∧
        (Config.imageOk img = true → Config.imageVersion img < f.rollback → no (.updateActivate m d) 7) ∧
        (Config.imageOk img = true → f.rollback ≤ Config.imageVersion img → ok (.updateActivate m d) (fun t =>
          t.fount.nextSlot = spare.val ∧ t.fount.active = f.active ∧ t.fount.versions[spare] = Config.imageVersion img))) ∧
       ok (.updateCommit m d) (fun t => f.rollback ≤ t.fount.rollback ∧ f.versions.toList.getD f.active 0 ≤ t.fount.rollback ∧
         (t.fount.rollback = f.rollback ∨ t.fount.rollback = f.versions.toList.getD f.active 0))) ∧
     (s.serves m false = true → s.isOwner m = true →
       (d.length = 1 → v < 16 → ok (.setDeleg m d) (fun t => ∀ n : Fin 4, (t.funcs[n]).deleg = v.testBit n.val)) ∧
       (d.length ≠ 1 ∨ 16 ≤ v → no (.setDeleg m d) 2) ∧
       (d.length = 1 → v < 64 → f.portUp = [] → ok (.setModid m d) (fun t => t.fount.modid = BitVec.ofNat 6 v)) ∧
       (d.length = 1 → v < 64 → f.portUp ≠ [] → no (.setModid m d) 7) ∧
       (d.length ≠ 1 ∨ 64 ≤ v → no (.setModid m d) 2) ∧
       (∀ i : Fin 8, d.length = 33 → v = i.val → 3 ≤ v → ok (.extend m d) (fun t =>
         t.fount.meas[i] = Sys2Proof.Machine.extended (f.meas[i]) (d.drop 1) ∧ ∀ j : Fin 8, j ≠ i → t.fount.meas[j] = f.meas[j])) ∧
       (d.length ≠ 33 ∨ v < 3 ∨ 7 < v → no (.extend m d) 2) ∧
       (∀ n : Fin 4, s.namedPart d = some n →
         (d.length = 65 → (∀ b ∈ d.drop 1, (s.parts[n]).routeOk b = true) →
           ok (.setRoute m d) (fun t => (t.parts[n]).routes = d.drop 1 ∧ (t.parts[n]).dies = (s.parts[n]).dies)) ∧
         (d.length = 65 → (∃ b ∈ d.drop 1, (s.parts[n]).routeOk b = false) → no (.setRoute m d) 2) ∧
         (d.length = 272 → (∀ b ∈ (d.drop 1).take 15, b = 0) → (∀ w, w < 16 → (s.parts[n]).windowOk (exportWindow (d.drop 16) w) = true) →
           ok (.setExport m d) (fun t => (t.parts[n]).exports = d.drop 16)) ∧
         (d.length ≠ 272 → no (.setExport m d) 2)) ∧
       (s.namedPart d = none → no (.setRoute m d) 2 ∧ no (.setExport m d) 2))))

/-- Commands on power, policy and parking, and segment signing (12 R447; 15 R451, R459, R461 to R467). SET_CEILING takes 300 W to 1,400 W; SET_SHARE a share of
75 W or more for each die within the ceiling; SET_PMAX a state to 5; SET_WDOG 16 to 32; SET_ESCPOL an action for each code; CLR_COUNTERS zeroes the counters.
PARK and UNPARK begin a die's transition, or answer REFUSED. FRESUME releases a held gang by an action, but none of level P while its partition is FAILED;
that one which would be refused answers BAD_ARG and leaves the gang held is the model's choice (log 67), as is BAD_ARG for a wrong length (log 65). A segment is signed when it is full or ten
seconds have passed. -/
def Spec.policyCommands : Prop :=
  ∀ (s : State) (m : Byte) (d : List Byte),
    (let f := s.fount
     let ok (i : Instr) (P : State → Prop) : Prop := Spec.tells s m (exec i s) 0 P
     let bad (i : Instr) : Prop := Spec.tells s m (exec i s) 2 (fun t => t.parts = s.parts ∧ t.dies = s.dies ∧ t.cores = s.cores)
     (s.serves m false = true → Spec.idle s m → s.isOwner m = true →
       (let w := field d 0 2
        (d.length = 2 → 300 ≤ w → w ≤ 1400 → ok (.setCeiling m d) (fun t => t.fount.ceiling = w ∧
          (s.shares ≤ w → ∀ n : Fin 4, (t.parts[n]).share = (s.parts[n]).share))) ∧
        (d.length ≠ 2 ∨ w < 300 ∨ 1400 < w → bad (.setCeiling m d))) ∧
       (∀ n : Fin 4, s.namedPart d = some n →
         (let p := s.parts[n]
          let w := field d 1 2
          let v := (d.getD 1 0).toNat
          (d.length = 3 → 75 * p.dieCount ≤ w → s.shares - p.share + w ≤ f.ceiling → ok (.setShare m d) (fun t => (t.parts[n]).share = w)) ∧
          (d.length ≠ 3 ∨ w < 75 * p.dieCount ∨ f.ceiling < s.shares - p.share + w → bad (.setShare m d)) ∧
          (d.length = 2 → v ≤ 5 → ok (.setPmax m d) (fun t => (t.parts[n]).pmax = v)) ∧
          (d.length ≠ 2 ∨ 5 < v → bad (.setPmax m d)) ∧
          (d.length = 2 → 16 ≤ v → v ≤ 32 → ok (.setWdog m d) (fun t => (t.parts[n]).wdog = v)) ∧
          (d.length ≠ 2 ∨ v < 16 ∨ 32 < v → bad (.setWdog m d)) ∧
          (d.length = 65 → (∀ b ∈ d.drop 1, b.toNat ≤ 4) → ok (.setEscpol m d) (fun t => (t.parts[n]).escpol = d.drop 1)) ∧
          (d.length ≠ 65 → bad (.setEscpol m d)))) ∧
       ok (.clrCounters m d) (fun t => (∀ i : Fin 16, t.fount.counters[i] = 0) ∧ t.fount.pwrMax = 0) ∧
       (∀ x : Fin 4, d = [BitVec.ofNat 8 x.val] → s.line x = [] →
         (let begun (st : DieState) (t : State) : Prop := SameMemory s t ∧ (t.dies[x]).state = st ∧ (t.box m).state = 1
          (s.mayPark x = true → Spec.Occurs (exec (.park m d) s) (begun .parking)) ∧
          (s.mayPark x = false → Spec.tells s m (exec (.park m d) s) 7 (fun t => (t.dies[x]).state = (s.dies[x]).state)) ∧
          ((s.dies[x]).state = .parked → Spec.Occurs (exec (.unpark m d) s) (begun .unparking)) ∧
          ((s.dies[x]).state ≠ .parked → Spec.tells s m (exec (.unpark m d) s) 7 (fun t => (t.dies[x]).state = (s.dies[x]).state)))) ∧
       (d.length ≠ 1 ∨ 3 < (d.getD 0 0).toNat → bad (.park m d) ∧ bad (.unpark m d)) ∧
       (∀ (site : CoreId) (k : SlotId) (act : Byte) (g : Gang), d = toBytes 8 (site.toNat + 4096 * k.val) ++ [act] →
         s.gang? (s.route site) k = some g → g.status = .frozen → s.heldBy (s.route site) k none = true →
         (let freed (t : State) : Prop := t.heldBy (s.route site) k none = false
          (s.failedP (s.route site) g = true → bad (.fresume m d)) ∧
          (act = 0 → s.failedP (s.route site) g = false → ok (.fresume m d) (fun t => freed t ∧ Spec.isNow t (s.route site) k .running g g.regs.pc)) ∧
          (act = 1 → s.failedP (s.route site) g = false → ok (.fresume m d) (fun t => freed t ∧ Spec.isNow t (s.route site) k .running g (g.regs.pc + 4))) ∧
          (64 ≤ act.toNat → bad (.fresume m d)))) ∧
       (∀ (site : CoreId) (k : SlotId) (act : Byte), d = toBytes 8 (site.toNat + 4096 * k.val) ++ [act] →
         s.heldBy (s.route site) k none = false → bad (.fresume m d))) ∧
     (f.signedTo < f.logSeq → (f.signedTo / 976 + 1) * 976 ≤ f.logSeq ∨ f.signedAt + 10000000 ≤ f.time →
       Spec.Occurs (exec .logSegmentSign s) (fun t => SameMemory s t ∧ f.signedTo < t.fount.signedTo ∧ t.fount.signedTo ≤ f.logSeq ∧
         (Tbl.get? t.fount.signed (f.signedTo / 976 % 128)).isSome = true ∧ t.fount.log = f.log)) ∧
     (f.signedTo = f.logSeq → exec .logSegmentSign s = .next s))

/-- Mailbox commands (12, 15). -/
def Obligations.OwnerCommands : Prop :=
  Spec.moduleCommands ∧ Spec.policyCommands

/-! The debug window, posts, registers, boot and peers (11 R395 to R400; 12 R410 to R422, R437 to R442). -/

/-- The debug window and function level reset (11 R395 to R399, 12 R413, R421). Through its aperture a host function that may write it changes an S register, PC and
PAGE of a frozen gang on its dies; writes of TXSTAT, the fault record, the mask stack, the parked-lane headers, the convergence save, the counts and
LT are ignored (R172, R257 and 00 R7 for the first and the third; the others of these rules are the model's, log 25); of a running or waiting gang it changes PAGE alone; a gang without authority over the core changes nothing. Reading STATUS
clears PENDING. A function level reset clears the function's registers, Bus Master Enable among them (log 87, PRESUMED), and resets its partition. -/
def Obligations.DebugWindowWrites : Prop :=
  ∀ (s : State) (n : Fin 4) (c : CoreId) (k : SlotId) (g : Gang), (s.parts[n]).has (dieOf c) = true → s.noCore c = false →
    s.gang? c k = some g → s.fount.boot = .running →
    (let at_ (o : Nat) : Nat := 0xFF0000000000 + 0x10000 * c.toNat + 0x1000 * k.val + o
     let writes (by_ : Actor) (o : Nat) (v : DWord) := exec (.debugWindowWrite by_ (at_ o) 8 v) s
     let stopped : Prop := g.status = .frozen ∨ ((s.core c).stopped = true ∧ g.priv ≠ .p)
     (s.funcMayWrite n = true →
       (∀ (r : SReg) v, stopped → (s.ctx c).flights = [] → Spec.Leaves (writes (.func n) (0x800 + 8 * r.toNat) v) c k (fun t g' =>
         SameMemory s t ∧ KeepsRegs [] [r] [] [] g g' ∧ g'.regs.pc = g.regs.pc ∧ (r ≠ 0 → g'.s r = v))) ∧
       (∀ v, stopped → Spec.Leaves (writes (.func n) 0xA08 v) c k (fun t g' => SameMemory s t ∧ g'.regs = { g.regs with pc := v })) ∧
       (∀ o v, stopped → (s.ctx c).flights = [] → 8 ∣ o → (0xB00 ≤ o ∧ o < 0xF10) ∨ (0xF18 ≤ o ∧ o < 0x1000) →
         Spec.Leaves (writes (.func n) o v) c k (fun t g' => SameMemory s t ∧ g' = g)) ∧
       (∀ v, Spec.Leaves (writes (.func n) 0xA68 v) c k (fun t g' => SameMemory s t ∧ g'.page.toNat = bits v 3 0 ∧
         g'.regs = g.regs ∧ g'.status = g.status)) ∧
       (∀ (r : SReg) v, ¬ stopped → writes (.func n) (0x800 + 8 * r.toNat) v = .next s)) ∧
     (s.funcMayWrite n = false → ∀ o v, writes (.func n) o v = .next s) ∧
     (∀ x j h o v, s.gang? x j = some h → s.mayAct x j h c = false → o < 0x1000 → writes (.gang x j) o v = .next s) ∧
     Spec.Leaves (exec (.debugStatusRead (.func n) c k) s) c k (fun t g' => SameMemory s t ∧ g'.pending = false ∧ g'.regs = g.regs) ∧
     Spec.Occurs (exec (.functionLevelReset n) s) (fun t => SameMemory s t ∧ (t.funcs[n]).nbase = 0 ∧ (t.funcs[n]).evcause = 0 ∧
       (t.funcs[n]).bme = false ∧ (t.parts[n]).state = .scrubbing ∧ ((t.parts[n]).rebuild = true ↔ ((s.parts[n]).state = .scrubbing → (s.parts[n]).rebuild = true)) ∧ t.gang? c k = none))

/-- Posts and registers (12 R410 to R422, R424, R439). A post of 64 bytes to a site of the function's partition enters its core's inbox with HOST set
and KIND 3, or is counted refused when 64 records are there or a die on its way is parked, or malformed in another form; EVCAUSE bits clear by a 1; NBASE and MBDATA take writes; MBCMD
starts its command, or puts it in line behind a claim, and with a LEN above 4,096 answers BAD_ARG (the model's choice, log 65); a post to a core
outside the partition reaches no core; a commit writes the window's record into the object table or gives the code that refuses it. -/
def Obligations.HostWrites : Prop :=
  ∀ (s : State) (n : Fin 4),
    (let f := s.funcs[n]
     let p := s.parts[n]
     let sets (m : Byte) (o : Nat) (v : DWord) := exec (.registerWrite m o 8 v) s
     Spec.Occurs (exec (.evcauseClear n (0x3F : DWord)) s) (fun t => SameMemory s t ∧ (t.funcs[n]).evcause = 0) ∧
     (∀ v : DWord, Spec.Occurs (exec (.evcauseClear n v) s) (fun t => SameMemory s t ∧ ∀ i, i < 6 →
       (t.funcs[n]).evcause.getLsbD i = (f.evcause.getLsbD i && !v.getLsbD i))) ∧
     (∀ on, Spec.Occurs (exec (.busMasterEnableChange n on) s) (fun t => SameMemory s t ∧ (t.funcs[n]).bme = on)) ∧
     (∀ (site : CoreId) (d : List Byte), p.state = .running → p.has (dieOf site) = true → s.isDark site = false → s.isParked (dieOf site) = false →
       (let c := s.route site
        let r := stampRec (recParse d) 0 0 true 3 (s.now c)
        let parked : Prop := s.isParked (dieOf c) = true
        (d.length = 64 → ¬ parked → (s.ctx c).inbox.length < 64 → Spec.Occurs (exec (.hostPost n (64 * site.toNat) d) s) (fun t =>
          SameMemory s t ∧ (t.ctx c).inbox = Spec.inboxWith r (s.ctx c).inbox)) ∧
        (d.length = 64 → parked ∨ 64 ≤ (s.ctx c).inbox.length → Spec.Occurs (exec (.hostPost n (64 * site.toNat) d) s) (fun t =>
          SameMemory s t ∧ (t.ctx c).inbox = (s.ctx c).inbox ∧ ((s.core site).refused ≠ 0xFFFF → (t.core site).refused = (s.core site).refused + 1))) ∧
        (d.length ≠ 64 → Spec.Occurs (exec (.hostPost n (64 * site.toNat) d) s) (fun t => SameMemory s t ∧
          (t.ctx c).inbox = (s.ctx c).inbox ∧ ((s.core site).malformed ≠ 0xFFFF → (t.core site).malformed = (s.core site).malformed + 1))))) ∧
     (∀ (site : CoreId) (d : List Byte), p.state = .running → p.has (dieOf site) = false →
       Spec.Occurs (exec (.hostPost n (64 * site.toNat) d) s) (fun t => SameMemory s t ∧ t.cores = s.cores ∧ t.parts = s.parts)) ∧
     (∀ (m : Byte) (v : DWord), s.isMaster m = true → s.fount.boot ≠ .unpowered →
       (∀ code k, bits v 15 0 = code → bits v 28 16 ≤ 4096 → commandOf code = some k → Spec.idle s m →
         sets m 0x1000 v = .next (k m (padTo (bits v 28 16) (s.box m).data) s)) ∧
       (commandOf (bits v 15 0) = none ∨ 4096 < bits v 28 16 → Spec.idle s m → s.serves m false = true → Spec.tells s m (sets m 0x1000 v) 2 (fun _ => True)) ∧
       ((s.box m).state ≠ 1 → bits v 28 16 ≤ 4096 → s.fount.claims ≠ [] → Spec.Occurs (sets m 0x1000 v) (fun t => SameMemory s t ∧ (t.box m).state = 1 ∧
         t.fount.claims = s.fount.claims ++ [⟨m, padTo (bits v 28 16) (s.box m).data, s.owned, bits v 15 0⟩])) ∧
       ((s.box m).state = 1 → sets m 0x1000 v = .next s) ∧
       (∀ i, i < 512 → Spec.Occurs (sets m (0x2000 + 8 * i) v) (fun t => SameMemory s t ∧ ∀ j, j < 8 →
         (t.box m).data.getD (8 * i + j) 0 = (toBytes 8 v.toNat).getD j 0)) ∧
       (m = BitVec.ofNat 8 n.val → Spec.Occurs (sets m 0x48 v) (fun t => SameMemory s t ∧ (t.funcs[n]).nbase = v &&& 0xFFFFFFFFFFFFFFC1))) ∧
     (∀ v : DWord, p.state = .running → s.funcMayWrite n = true → v.getLsbD 24 = true →
       (let id := bits v 23 0
        let b := padTo 64 f.window
        let out := exec (.recordCommit n v) s
        (∀ code, recordRefusal p.ortSize id (ObjRec.parse b) = some code → Spec.Occurs out (fun t => SameMemory s t ∧
          (t.funcs[n]).commit = 2 ∧ (t.funcs[n]).result = code)) ∧
        (recordRefusal p.ortSize id (ObjRec.parse b) = none → s.dram.wf = true → Spec.Occurs out (fun t => (t.funcs[n]).commit = 2 ∧ (t.funcs[n]).result = 0 ∧
          SameMemoryBut (Spec.places (.phys (p.ortBase + 64 * id)) 64) s t ∧
          ∀ j, j < 64 → t.byteAt (.phys (p.ortBase + 64 * id + j)) = b.getD j 0)))))

/-- The numbers of a PART_CREATE descriptor that building goes by: the lowest die, and the entries of the object table (12 R431). -/
def Spec.lowDie (d : List Byte) : Nat := ((List.range 4).find? (fun x => (d.getD 1 0).toNat.testBit x)).getD 0
def Spec.entries (d : List Byte) : Nat := ofBytes ((d.drop 4).take 4)

/-- Building a partition for a boot program of n words writes place a: the object table at the start of the lowest die's first stack; the map
entries of the program's sub-tiles and of record 2's sixteen; the program; and the 1 MiB of record 2 (12 R442; where the maps and frames lie
is log 8). -/
def Spec.built (d : List Byte) (n a : Nat) : Prop :=
  let up (x z : Nat) : Nat := (x + z - 1) / z * z
  let base := 2 * Spec.lowDie d * 2 ^ 36
  let subs := (4 * n + 65535) / 65536
  let maps := base + up (64 * Spec.entries d) 65536
  let map2 := maps + up (8 * subs) 64
  let f1 := maps + up (8 * subs + 192) 65536
  let f2 := f1 + 65536 * subs
  let within (b z : Nat) : Prop := b ≤ a ∧ a < b + z
  within base (64 * Spec.entries d) ∨ within (base + 64) 128 ∨ within maps (8 * subs) ∨ within map2 128 ∨ within f1 (4 * n) ∨ within f2 (2 ^ 20)

/-- Power-on, ports and peers (12 R437 to R441). Power-on with a verified configuration record and an image that boots, the selected one or
else the other, and the other after three failed boots of an uncommitted one (R444), brings Fount to run, unowned, under a ceiling of 1,100 W, with zero
memory but for what building the default partitions writes; a site that is dark stays dark within
one power cycle; without either the module stands in recovery with no partition. A port comes up to a module whose id is
new, and goes down; a peer's write lands where an export window of the partition admits it, and changes nothing elsewhere; a peer's read changes nothing. -/
def Obligations.BootAndPeers : Prop :=
  (∀ (s : State) (b : BootInfo), s.bootOk b = true → s.fount.boot = .unpowered →
    (let sel := if b.trial = true ∧ 3 ≤ b.fails then 1 - b.active % 2 else b.active % 2
     let good (k : Nat) : Prop := b.slotOk.getD k false = true ∧ b.rollback ≤ b.versions.getD k 0
     let out := exec (.powerOnReset b) s
     let runs (k : Nat) : Prop := Spec.Occurs out (fun t => t.fount.boot = .running ∧ t.fount.owner = 0xFF ∧ t.fount.active = k ∧
       t.fount.ceiling = 1100 ∧ t.dark = b.dark ∧ t.host = s.host ∧ (∀ d : Fin 4, (t.dies[d]).state = .running) ∧ (∀ c o, t.byteAt (.pad c o) = 0) ∧
       ∀ a, (∀ d ∈ b.parts, descFormed d = true → ¬ Spec.built d b.program.length a) → t.byteAt (.phys a) = 0)
     (good sel → b.recordOk = true → runs sel) ∧
     (¬ good sel → good (1 - sel) → b.recordOk = true → runs (1 - sel)) ∧
     ((¬ good sel ∧ ¬ good (1 - sel)) ∨ b.recordOk = false → Spec.Occurs out (fun t => t.fount.boot = .recovery ∧ t.fount.owner = 0xFF ∧
       t.host = s.host ∧ (∀ n : Fin 4, (t.parts[n]).state = .absent) ∧ (∀ c k, t.gang? c k = none) ∧ (∀ c o, t.byteAt (.pad c o) = 0) ∧
       ∀ a, t.byteAt (.phys a) = 0)))) ∧
  (∀ (s : State) (b : BootInfo), s.bootOk b = false → exec (.powerOnReset b) s = .next s) ∧
  (∀ (s : State) (b : BootInfo), s.bootOk b = true → s.fount.boot ≠ .unpowered → b.cycle = false →
    Spec.Occurs (exec (.powerOnReset b) s) (fun t => ∀ c ∈ s.dark, c ∈ t.dark)) ∧
  (∀ (s : State) (port : BitVec 4) (peer : ModuleId),
    (Tbl.get? s.fount.portUp port.toNat = none → s.fount.boot = .running → peer ≠ s.fount.modid → (∀ x ∈ s.fount.portUp, x.2 ≠ peer.toNat) →
      Spec.Occurs (exec (.portLinkUp port peer) s) (fun t => SameMemory s t ∧ Tbl.get? t.fount.portUp port.toNat = some peer.toNat ∧
        ∀ n, s.portPart port = some n → (t.funcs[n]).evcause.getLsbD 4 = true)) ∧
    (Tbl.get? s.fount.portUp port.toNat = none → s.fount.boot = .running → peer = s.fount.modid →
      Spec.Occurs (exec (.portLinkUp port peer) s) (fun t => t.fount.portUp = s.fount.portUp)) ∧
    (Tbl.get? s.fount.portUp port.toNat ≠ none → Tbl.rising s.fount.portUp = true →
      Spec.Occurs (exec (.portLinkDown port) s) (fun t => SameMemory s t ∧ Tbl.get? t.fount.portUp port.toNat = none)) ∧
    (Tbl.get? s.fount.portUp port.toNat = none → exec (.portLinkDown port) s = .next s)) ∧
  (∀ (s : State) (src : ModuleId) (a : Nat) (d : List Byte) (n : Fin 4), s.addrPart a = some n →
    exec (.peerAccess src .read a d) s = .next s ∧
    ((∃ x ∈ s.fount.portUp, x.2 = src.toNat) → (s.parts[n]).admits src .write (a / 65536) = true → (a + d.length - 1) / 65536 = a / 65536 →
      a < 0x7F00000000 → s.dram.wf = true → Spec.Occurs (exec (.peerAccess src .write a d) s) (fun t =>
        SameMemoryBut (Spec.places (.phys a) d.length) s t ∧ ∀ j (h : j < d.length), t.byteAt (.phys (a + j)) = d[j])) ∧
    ((s.parts[n]).admits src .write (a / 65536) = false → exec (.peerAccess src .write a d) s = .next s))

/-! Power (15 R451 to R462). -/

/-- What a partition is held to, in mW: its share, or less in proportion to the shares where these and the common load exceed the ceiling (15
R453); the common load is the module's power less that of the partitions (log 89). -/
def Spec.heldTo (s : State) (n : Fin 4) : Nat :=
  let f := s.fount
  let common := f.samples.headD 0 - ((List.finRange 4).map (fun k => (f.partPwr[k]).headD 0)).sum
  let w := (s.parts[n]).share
  min (w * 1000) (w * (f.ceiling * 1000 - common) / s.shares)

/-- A full window of samples whose mean is at most a limit (15 R453). -/
abbrev Spec.meets (l : List Nat) (limit : Nat) : Prop := 1000 ≤ l.length ∧ (l.take 1000).sum / 1000 ≤ limit

/-- The P-state that a partition's last step in line leads to. -/
def Spec.goal (p : Part) : Nat :=
  ((p.trans.filterMap (fun t => match t with | .step v => some v | _ => none)).getLast?).getD p.pcur

/-- Transitions and measurements (15 R451 to R462). A park, an unpark or a P-state step in line completes: the die is parked; it runs, each
of its working cores stopped over an empty scratchpad, its Tarn store intact; the partition's state is the step's. Steps are decided when they are due,
one up no sooner than 10 ms after the last one up.
Samples give the means of their windows; one that breaks a limit of R453 does not arrive (log 89). Above what it is held to, and only then, a
partition's duty falls; it rises only when the window averages are met. -/
def Spec.powerEvents : Prop :=
  (∀ (s : State) (d : Fin 4) (m : Byte),
    (s.line d = [.park d m] → Spec.tells s m (exec (.parkComplete d) s) 0 (fun t => (t.dies[d]).state = .parked ∧ t.line d = [])) ∧
    (s.line d = [.unpark d m] → Spec.answers m (exec (.unparkComplete d) s) 0 (fun t => (t.dies[d]).state = .running ∧ t.line d = [] ∧
      ∀ c : CoreId, dieOf c = d → s.isDark c = false → (t.core c).stopped = true ∧ (t.ctx c).empty = true ∧
        (t.core c).tarn = (s.core c).tarn ∧ ∀ o, t.byteAt (.pad c o) = 0)) ∧
    ((∀ m' rest, s.line d ≠ .park d m' :: rest) → exec (.parkComplete d) s = .next s) ∧
    ((∀ m' rest, s.line d ≠ .unpark d m' :: rest) → exec (.unparkComplete d) s = .next s)) ∧
  (∀ (s : State) (n : Fin 4),
    (let p := s.parts[n]
     let now := s.fount.time
     let free : Prop := p.state ≠ .absent ∧ p.dies ≠ 0 ∧ p.trans = [] ∧ ∀ k : Fin 4, k ≠ n → (s.parts[k]).dies &&& p.dies = 0
     let after (x : Option Nat) (len : Nat) : Prop := ∀ t, x = some t → t + len ≤ now
     let goes (out : Host.Outcome State Fault Refusal) (x : Nat) (up : Bool) : Prop := Spec.Occurs out (fun t => SameMemory s t ∧
       (t.parts[n]).trans = [.step x] ∧ (t.parts[n]).stepAt = (if up then p.stepAt else some now) ∧
       (t.parts[n]).upAt = (if up then some now else p.upAt) ∧ (t.parts[n]).pcur = p.pcur)
     (∀ x, p.trans = [.step x] → p.state ≠ .absent → p.dies ≠ 0 → (∀ k : Fin 4, k ≠ n → (s.parts[k]).dies &&& p.dies = 0) →
       Spec.Occurs (exec (.pstateStepComplete n) s) (fun t => SameMemory s t ∧ (t.parts[n]).pcur = x ∧ (t.parts[n]).trans = [])) ∧
     (free → p.pcur < 5 → p.pcur < p.pmax ∨ (p.lowAt ≠ none ∧ after p.lowAt 20 ∧ after p.stepAt 50) →
       goes (exec (.pstateStepDown n) s) (p.pcur + 1) false) ∧
     (p.pmax ≤ p.pcur → p.lowAt = none → exec (.pstateStepDown n) s = .next s) ∧
     (free → p.pmax < p.pcur → p.calmAt ≠ none → after p.calmAt 10000 → after p.upAt 10000 →
       (∀ d : Fin 4, p.dies.getLsbD d.val = true → ((s.dies[d]).tmax).toNat < 95 * 16) → goes (exec (.pstateStepUp n) s) (p.pcur - 1) true) ∧
     (p.pcur ≤ p.pmax ∨ p.calmAt = none → exec (.pstateStepUp n) s = .next s) ∧
     (∀ proj : List Nat, p.state ≠ .absent → Spec.Occurs (exec (.powerEstimate proj) s) (fun t => SameMemory s t ∧
       (let met : Prop := Spec.meets (s.fount.partPwr[n]) (Spec.heldTo s n) ∧ Spec.meets s.fount.samples (1000 * s.fount.ceiling)
        (Spec.heldTo s n < proj.getD n.val 0 → 0 < p.duty → (t.parts[n]).duty < p.duty) ∧
        (proj.getD n.val 0 ≤ Spec.heldTo s n → met → p.duty ≤ 63 → p.duty ≤ (t.parts[n]).duty ∧ (t.parts[n]).duty ≤ 63) ∧
        (proj.getD n.val 0 ≤ Spec.heldTo s n → ¬ met → (t.parts[n]).duty = p.duty)))) ∧
     (∀ w parts, s.mayMeasure (s.fount.sampled w parts) = false → exec (.railSample w parts) s = .next s) ∧
     (∀ w parts, s.mayMeasure (s.fount.sampled w parts) = true → 999 ≤ s.fount.samples.length → Spec.Occurs (exec (.railSample w parts) s) (fun t => SameMemory s t ∧
       t.fount.samples = (w :: s.fount.samples).take 1000 ∧ t.fount.pwr = (t.fount.samples.foldl (· + ·) 0) / 1000 ∧
       t.fount.pwrMax = max s.fount.pwrMax t.fount.pwr)) ∧
     (∀ w parts, s.mayMeasure (s.fount.sampled w parts) = true → s.fount.samples.length < 999 → Spec.Occurs (exec (.railSample w parts) s) (fun t => SameMemory s t ∧
       t.fount.samples = w :: s.fount.samples ∧ t.fount.pwr = s.fount.pwr))))

/-- Temperature (15 R458). A reading is stored in sixteenths of a degree; at 100 °C the die's partition steps down one state, after the
transitions in its line, and the step is logged; at 110 °C, by a reading of either kind, the module stands in recovery with no partition and no gang. -/
def Spec.thermalEvents : Prop :=
  ∀ (s : State) (d : Fin 4) (x : Nat), x < 4096 →
    (let tripped (o : Host.Outcome State Fault Refusal) : Prop := Spec.Occurs o (fun t => t.fount.boot = .recovery ∧
       ((t.dies[d]).tmax).toNat = x ∧ (∀ n : Fin 4, (t.parts[n]).state = .absent) ∧ (∀ e : Fin 4, (t.dies[e]).state = .off) ∧
       ∀ c k, t.gang? c k = none)
    (1760 ≤ x → s.fount.boot = .running → tripped (exec (.thermalTrip d x) s)) ∧
    (1760 ≤ x → s.fount.boot = .running → (s.dies[d]).state ≠ .off → tripped (exec (.thermalStep d x) s)) ∧
    (x < 1760 ∨ s.fount.boot ≠ .running →
     Spec.Occurs (exec (.thermalStep d x) s) (fun t => SameMemory s t ∧ ((t.dies[d]).tmax).toNat = x ∧
      (x < 1600 → t.parts = s.parts ∧ t.fount = s.fount) ∧
      (s.partOf d = none → t.parts = s.parts ∧ t.fount = s.fount) ∧
      (1600 ≤ x → (s.dies[d]).state ≠ .off → ∀ n, s.partOf d = some n → (∀ k : Fin 4, k ≠ n → (s.parts[k]).dies &&& (s.parts[n]).dies = 0) →
        (Spec.goal (s.parts[n]) < 5 → t.fount.logSeq = s.fount.logSeq + 2 ∧
          (t.parts[n]).trans = (s.parts[n]).trans ++ [.step (Spec.goal (s.parts[n]) + 1)]) ∧
        (5 ≤ Spec.goal (s.parts[n]) → t.parts = s.parts ∧ t.fount = s.fount)))) ∧
    (x < 1760 ∨ s.fount.boot ≠ .running → exec (.thermalTrip d x) s = .next s))

/-- Power and temperature (15). -/
def Obligations.PowerAndHeat : Prop :=
  Spec.powerEvents ∧ Spec.thermalEvents
end

