-- ==== Sys2Proof/Laws/State.lean ====
section
/-! SUPPORT. One lemma per field of State and of Gang for each shared update: what the update writes there, and that every other field keeps its value. -/

namespace Sys2Proof.Machine

section State_setCore
variable (s : State) (c : CoreId) (k : Core)
@[simp] theorem State.setCore_clock : (s.setCore c k).clock = s.clock := rfl
@[simp] theorem State.setCore_cur : (s.setCore c k).cur = s.cur := rfl
@[simp] theorem State.setCore_inputs : (s.setCore c k).inputs = s.inputs := rfl
@[simp] theorem State.setCore_mishaps : (s.setCore c k).mishaps = s.mishaps := rfl
@[simp] theorem State.setCore_accesses : (s.setCore c k).accesses = s.accesses := rfl
@[simp] theorem State.setCore_dram : (s.setCore c k).dram = s.dram := rfl
@[simp] theorem State.setCore_dramTags : (s.setCore c k).dramTags = s.dramTags := rfl
@[simp] theorem State.setCore_host : (s.setCore c k).host = s.host := rfl
@[simp] theorem State.setCore_cores : (s.setCore c k).cores = Tbl.put s.cores c.toNat k := rfl
@[simp] theorem State.setCore_dark : (s.setCore c k).dark = s.dark := rfl
@[simp] theorem State.setCore_dies : (s.setCore c k).dies = s.dies := rfl
@[simp] theorem State.setCore_parts : (s.setCore c k).parts = s.parts := rfl
@[simp] theorem State.setCore_funcs : (s.setCore c k).funcs = s.funcs := rfl
@[simp] theorem State.setCore_circuits : (s.setCore c k).circuits = s.circuits := rfl
@[simp] theorem State.setCore_fount : (s.setCore c k).fount = s.fount := rfl
@[simp] theorem State.setCore_launches : (s.setCore c k).launches = s.launches := rfl
end State_setCore

section State_modCore
variable (s : State) (c : CoreId) (f : Core → Core)
@[simp] theorem State.modCore_clock : (s.modCore c f).clock = s.clock := rfl
@[simp] theorem State.modCore_cur : (s.modCore c f).cur = s.cur := rfl
@[simp] theorem State.modCore_inputs : (s.modCore c f).inputs = s.inputs := rfl
@[simp] theorem State.modCore_mishaps : (s.modCore c f).mishaps = s.mishaps := rfl
@[simp] theorem State.modCore_accesses : (s.modCore c f).accesses = s.accesses := rfl
@[simp] theorem State.modCore_dram : (s.modCore c f).dram = s.dram := rfl
@[simp] theorem State.modCore_dramTags : (s.modCore c f).dramTags = s.dramTags := rfl
@[simp] theorem State.modCore_host : (s.modCore c f).host = s.host := rfl
@[simp] theorem State.modCore_cores : (s.modCore c f).cores = Tbl.put s.cores c.toNat (f (s.core c)) := rfl
@[simp] theorem State.modCore_dark : (s.modCore c f).dark = s.dark := rfl
@[simp] theorem State.modCore_dies : (s.modCore c f).dies = s.dies := rfl
@[simp] theorem State.modCore_parts : (s.modCore c f).parts = s.parts := rfl
@[simp] theorem State.modCore_funcs : (s.modCore c f).funcs = s.funcs := rfl
@[simp] theorem State.modCore_circuits : (s.modCore c f).circuits = s.circuits := rfl
@[simp] theorem State.modCore_fount : (s.modCore c f).fount = s.fount := rfl
@[simp] theorem State.modCore_launches : (s.modCore c f).launches = s.launches := rfl
end State_modCore

section State_modCtx
variable (s : State) (c : CoreId) (f : Ctx → Ctx)
@[simp] theorem State.modCtx_clock : (s.modCtx c f).clock = s.clock := rfl
@[simp] theorem State.modCtx_cur : (s.modCtx c f).cur = s.cur := rfl
@[simp] theorem State.modCtx_inputs : (s.modCtx c f).inputs = s.inputs := rfl
@[simp] theorem State.modCtx_mishaps : (s.modCtx c f).mishaps = s.mishaps := rfl
@[simp] theorem State.modCtx_accesses : (s.modCtx c f).accesses = s.accesses := rfl
@[simp] theorem State.modCtx_dram : (s.modCtx c f).dram = s.dram := rfl
@[simp] theorem State.modCtx_dramTags : (s.modCtx c f).dramTags = s.dramTags := rfl
@[simp] theorem State.modCtx_host : (s.modCtx c f).host = s.host := rfl
@[simp] theorem State.modCtx_cores : (s.modCtx c f).cores = Tbl.put s.cores c.toNat { s.core c with ctx := f (s.core c).ctx } := rfl
@[simp] theorem State.modCtx_dark : (s.modCtx c f).dark = s.dark := rfl
@[simp] theorem State.modCtx_dies : (s.modCtx c f).dies = s.dies := rfl
@[simp] theorem State.modCtx_parts : (s.modCtx c f).parts = s.parts := rfl
@[simp] theorem State.modCtx_funcs : (s.modCtx c f).funcs = s.funcs := rfl
@[simp] theorem State.modCtx_circuits : (s.modCtx c f).circuits = s.circuits := rfl
@[simp] theorem State.modCtx_fount : (s.modCtx c f).fount = s.fount := rfl
@[simp] theorem State.modCtx_launches : (s.modCtx c f).launches = s.launches := rfl
end State_modCtx

section State_setGang
variable (s : State) (c : CoreId) (k : SlotId) (g : Gang)
@[simp] theorem State.setGang_clock : (s.setGang c k g).clock = s.clock := rfl
@[simp] theorem State.setGang_cur : (s.setGang c k g).cur = s.cur := rfl
@[simp] theorem State.setGang_inputs : (s.setGang c k g).inputs = s.inputs := rfl
@[simp] theorem State.setGang_mishaps : (s.setGang c k g).mishaps = s.mishaps := rfl
@[simp] theorem State.setGang_accesses : (s.setGang c k g).accesses = s.accesses := rfl
@[simp] theorem State.setGang_dram : (s.setGang c k g).dram = s.dram := rfl
@[simp] theorem State.setGang_dramTags : (s.setGang c k g).dramTags = s.dramTags := rfl
@[simp] theorem State.setGang_host : (s.setGang c k g).host = s.host := rfl
@[simp] theorem State.setGang_cores : (s.setGang c k g).cores = Tbl.put s.cores c.toNat { s.core c with ctx := (s.core c).ctx.setSlot k (some g) } := rfl
@[simp] theorem State.setGang_dark : (s.setGang c k g).dark = s.dark := rfl
@[simp] theorem State.setGang_dies : (s.setGang c k g).dies = s.dies := rfl
@[simp] theorem State.setGang_parts : (s.setGang c k g).parts = s.parts := rfl
@[simp] theorem State.setGang_funcs : (s.setGang c k g).funcs = s.funcs := rfl
@[simp] theorem State.setGang_circuits : (s.setGang c k g).circuits = s.circuits := rfl
@[simp] theorem State.setGang_fount : (s.setGang c k g).fount = s.fount := rfl
@[simp] theorem State.setGang_launches : (s.setGang c k g).launches = s.launches := rfl
end State_setGang

section State_setMe
variable (s : State) (g : Gang)
@[simp] theorem State.setMe_clock : (s.setMe g).clock = s.clock := rfl
@[simp] theorem State.setMe_cur : (s.setMe g).cur = s.cur := rfl
@[simp] theorem State.setMe_inputs : (s.setMe g).inputs = s.inputs := rfl
@[simp] theorem State.setMe_mishaps : (s.setMe g).mishaps = s.mishaps := rfl
@[simp] theorem State.setMe_accesses : (s.setMe g).accesses = s.accesses := rfl
@[simp] theorem State.setMe_dram : (s.setMe g).dram = s.dram := rfl
@[simp] theorem State.setMe_dramTags : (s.setMe g).dramTags = s.dramTags := rfl
@[simp] theorem State.setMe_host : (s.setMe g).host = s.host := rfl
@[simp] theorem State.setMe_cores : (s.setMe g).cores = Tbl.put s.cores s.cur.core.toNat { s.core s.cur.core with ctx := (s.core s.cur.core).ctx.setSlot s.cur.slot (some g) } := rfl
@[simp] theorem State.setMe_dark : (s.setMe g).dark = s.dark := rfl
@[simp] theorem State.setMe_dies : (s.setMe g).dies = s.dies := rfl
@[simp] theorem State.setMe_parts : (s.setMe g).parts = s.parts := rfl
@[simp] theorem State.setMe_funcs : (s.setMe g).funcs = s.funcs := rfl
@[simp] theorem State.setMe_circuits : (s.setMe g).circuits = s.circuits := rfl
@[simp] theorem State.setMe_fount : (s.setMe g).fount = s.fount := rfl
@[simp] theorem State.setMe_launches : (s.setMe g).launches = s.launches := rfl
end State_setMe

section State_setPart
variable (s : State) (n : Fin 4) (p : Part)
@[simp] theorem State.setPart_clock : (s.setPart n p).clock = s.clock := rfl
@[simp] theorem State.setPart_cur : (s.setPart n p).cur = s.cur := rfl
@[simp] theorem State.setPart_inputs : (s.setPart n p).inputs = s.inputs := rfl
@[simp] theorem State.setPart_mishaps : (s.setPart n p).mishaps = s.mishaps := rfl
@[simp] theorem State.setPart_accesses : (s.setPart n p).accesses = s.accesses := rfl
@[simp] theorem State.setPart_dram : (s.setPart n p).dram = s.dram := rfl
@[simp] theorem State.setPart_dramTags : (s.setPart n p).dramTags = s.dramTags := rfl
@[simp] theorem State.setPart_host : (s.setPart n p).host = s.host := rfl
@[simp] theorem State.setPart_cores : (s.setPart n p).cores = s.cores := rfl
@[simp] theorem State.setPart_dark : (s.setPart n p).dark = s.dark := rfl
@[simp] theorem State.setPart_dies : (s.setPart n p).dies = s.dies := rfl
@[simp] theorem State.setPart_parts : (s.setPart n p).parts = s.parts.set n.val p := rfl
@[simp] theorem State.setPart_funcs : (s.setPart n p).funcs = s.funcs := rfl
@[simp] theorem State.setPart_circuits : (s.setPart n p).circuits = s.circuits := rfl
@[simp] theorem State.setPart_fount : (s.setPart n p).fount = s.fount := rfl
@[simp] theorem State.setPart_launches : (s.setPart n p).launches = s.launches := rfl
end State_setPart

section State_setDie
variable (s : State) (d : Fin 4) (x : Die)
@[simp] theorem State.setDie_clock : (s.setDie d x).clock = s.clock := rfl
@[simp] theorem State.setDie_cur : (s.setDie d x).cur = s.cur := rfl
@[simp] theorem State.setDie_inputs : (s.setDie d x).inputs = s.inputs := rfl
@[simp] theorem State.setDie_mishaps : (s.setDie d x).mishaps = s.mishaps := rfl
@[simp] theorem State.setDie_accesses : (s.setDie d x).accesses = s.accesses := rfl
@[simp] theorem State.setDie_dram : (s.setDie d x).dram = s.dram := rfl
@[simp] theorem State.setDie_dramTags : (s.setDie d x).dramTags = s.dramTags := rfl
@[simp] theorem State.setDie_host : (s.setDie d x).host = s.host := rfl
@[simp] theorem State.setDie_cores : (s.setDie d x).cores = s.cores := rfl
@[simp] theorem State.setDie_dark : (s.setDie d x).dark = s.dark := rfl
@[simp] theorem State.setDie_dies : (s.setDie d x).dies = s.dies.set d.val x := rfl
@[simp] theorem State.setDie_parts : (s.setDie d x).parts = s.parts := rfl
@[simp] theorem State.setDie_funcs : (s.setDie d x).funcs = s.funcs := rfl
@[simp] theorem State.setDie_circuits : (s.setDie d x).circuits = s.circuits := rfl
@[simp] theorem State.setDie_fount : (s.setDie d x).fount = s.fount := rfl
@[simp] theorem State.setDie_launches : (s.setDie d x).launches = s.launches := rfl
end State_setDie

section State_bump
variable (s : State)
@[simp] theorem State.bump_clock : (s.bump).clock = s.clock + 1 := rfl
@[simp] theorem State.bump_cur : (s.bump).cur = s.cur := rfl
@[simp] theorem State.bump_inputs : (s.bump).inputs = s.inputs := rfl
@[simp] theorem State.bump_mishaps : (s.bump).mishaps = s.mishaps := rfl
@[simp] theorem State.bump_accesses : (s.bump).accesses = s.accesses := rfl
@[simp] theorem State.bump_dram : (s.bump).dram = s.dram := rfl
@[simp] theorem State.bump_dramTags : (s.bump).dramTags = s.dramTags := rfl
@[simp] theorem State.bump_host : (s.bump).host = s.host := rfl
@[simp] theorem State.bump_cores : (s.bump).cores = s.cores := rfl
@[simp] theorem State.bump_dark : (s.bump).dark = s.dark := rfl
@[simp] theorem State.bump_dies : (s.bump).dies = s.dies := rfl
@[simp] theorem State.bump_parts : (s.bump).parts = s.parts := rfl
@[simp] theorem State.bump_funcs : (s.bump).funcs = s.funcs := rfl
@[simp] theorem State.bump_circuits : (s.bump).circuits = s.circuits := rfl
@[simp] theorem State.bump_fount : (s.bump).fount = s.fount := rfl
@[simp] theorem State.bump_launches : (s.bump).launches = s.launches := rfl
end State_bump

section Gang_setVAll
variable (g : Gang) (r : VReg) (x : Lanes Word)
@[simp] theorem Gang.setVAll_regs : (g.setVAll r x).regs = { g.regs with v := g.regs.v.set r.toNat x r.isLt } := rfl
@[simp] theorem Gang.setVAll_allot : (g.setVAll r x).allot = g.allot := rfl
@[simp] theorem Gang.setVAll_stack : (g.setVAll r x).stack = g.stack := rfl
@[simp] theorem Gang.setVAll_parked : (g.setVAll r x).parked = g.parked := rfl
@[simp] theorem Gang.setVAll_hold : (g.setVAll r x).hold = g.hold := rfl
@[simp] theorem Gang.setVAll_late : (g.setVAll r x).late = g.late := rfl
@[simp] theorem Gang.setVAll_save : (g.setVAll r x).save = g.save := rfl
@[simp] theorem Gang.setVAll_replay : (g.setVAll r x).replay = g.replay := rfl
@[simp] theorem Gang.setVAll_outer : (g.setVAll r x).outer = g.outer := rfl
@[simp] theorem Gang.setVAll_priv : (g.setVAll r x).priv = g.priv := rfl
@[simp] theorem Gang.setVAll_status : (g.setVAll r x).status = g.status := rfl
@[simp] theorem Gang.setVAll_fcode : (g.setVAll r x).fcode = g.fcode := rfl
@[simp] theorem Gang.setVAll_pending : (g.setVAll r x).pending = g.pending := rfl
@[simp] theorem Gang.setVAll_page : (g.setVAll r x).page = g.page := rfl
@[simp] theorem Gang.setVAll_rec_ : (g.setVAll r x).rec_ = g.rec_ := rfl
@[simp] theorem Gang.setVAll_freezeReq : (g.setVAll r x).freezeReq = g.freezeReq := rfl
@[simp] theorem Gang.setVAll_yielded : (g.setVAll r x).yielded = g.yielded := rfl
@[simp] theorem Gang.setVAll_ident : (g.setVAll r x).ident = g.ident := rfl
@[simp] theorem Gang.setVAll_hdr : (g.setVAll r x).hdr = g.hdr := rfl
@[simp] theorem Gang.setVAll_chan : (g.setVAll r x).chan = g.chan := rfl
@[simp] theorem Gang.setVAll_tx : (g.setVAll r x).tx = g.tx := rfl
@[simp] theorem Gang.setVAll_q : (g.setVAll r x).q = g.q := rfl
@[simp] theorem Gang.setVAll_selIn : (g.setVAll r x).selIn = g.selIn := rfl
@[simp] theorem Gang.setVAll_sel : (g.setVAll r x).sel = g.sel := rfl
@[simp] theorem Gang.setVAll_drainOut : (g.setVAll r x).drainOut = g.drainOut := rfl
@[simp] theorem Gang.setVAll_tokens : (g.setVAll r x).tokens = g.tokens := rfl
@[simp] theorem Gang.setVAll_past : (g.setVAll r x).past = g.past := rfl
@[simp] theorem Gang.setVAll_partner : (g.setVAll r x).partner = g.partner := rfl
@[simp] theorem Gang.setVAll_shadow : (g.setVAll r x).shadow = g.shadow := rfl
@[simp] theorem Gang.setVAll_held : (g.setVAll r x).held = g.held := rfl
@[simp] theorem Gang.setVAll_cnt : (g.setVAll r x).cnt = g.cnt := rfl
@[simp] theorem Gang.setVAll_heldClaims : (g.setVAll r x).heldClaims = g.heldClaims := rfl
@[simp] theorem Gang.setVAll_poisoned : (g.setVAll r x).poisoned = g.poisoned := rfl
@[simp] theorem Gang.setVAll_owed : (g.setVAll r x).owed = g.owed := rfl
end Gang_setVAll

section Gang_setC
variable (g : Gang) (r : CReg) (x : Cap)
@[simp] theorem Gang.setC_regs : (g.setC r x).regs = { g.regs with c := g.regs.c.set r.toNat x r.isLt } := rfl
@[simp] theorem Gang.setC_allot : (g.setC r x).allot = g.allot := rfl
@[simp] theorem Gang.setC_stack : (g.setC r x).stack = g.stack := rfl
@[simp] theorem Gang.setC_parked : (g.setC r x).parked = g.parked := rfl
@[simp] theorem Gang.setC_hold : (g.setC r x).hold = g.hold := rfl
@[simp] theorem Gang.setC_late : (g.setC r x).late = g.late := rfl
@[simp] theorem Gang.setC_save : (g.setC r x).save = g.save := rfl
@[simp] theorem Gang.setC_replay : (g.setC r x).replay = g.replay := rfl
@[simp] theorem Gang.setC_outer : (g.setC r x).outer = g.outer := rfl
@[simp] theorem Gang.setC_priv : (g.setC r x).priv = g.priv := rfl
@[simp] theorem Gang.setC_status : (g.setC r x).status = g.status := rfl
@[simp] theorem Gang.setC_fcode : (g.setC r x).fcode = g.fcode := rfl
@[simp] theorem Gang.setC_pending : (g.setC r x).pending = g.pending := rfl
@[simp] theorem Gang.setC_page : (g.setC r x).page = g.page := rfl
@[simp] theorem Gang.setC_rec_ : (g.setC r x).rec_ = g.rec_ := rfl
@[simp] theorem Gang.setC_freezeReq : (g.setC r x).freezeReq = g.freezeReq := rfl
@[simp] theorem Gang.setC_yielded : (g.setC r x).yielded = g.yielded := rfl
@[simp] theorem Gang.setC_ident : (g.setC r x).ident = g.ident := rfl
@[simp] theorem Gang.setC_hdr : (g.setC r x).hdr = g.hdr := rfl
@[simp] theorem Gang.setC_chan : (g.setC r x).chan = g.chan := rfl
@[simp] theorem Gang.setC_tx : (g.setC r x).tx = g.tx := rfl
@[simp] theorem Gang.setC_q : (g.setC r x).q = g.q := rfl
@[simp] theorem Gang.setC_selIn : (g.setC r x).selIn = g.selIn := rfl
@[simp] theorem Gang.setC_sel : (g.setC r x).sel = g.sel := rfl
@[simp] theorem Gang.setC_drainOut : (g.setC r x).drainOut = g.drainOut := rfl
@[simp] theorem Gang.setC_tokens : (g.setC r x).tokens = g.tokens := rfl
@[simp] theorem Gang.setC_past : (g.setC r x).past = g.past := rfl
@[simp] theorem Gang.setC_partner : (g.setC r x).partner = g.partner := rfl
@[simp] theorem Gang.setC_shadow : (g.setC r x).shadow = g.shadow := rfl
@[simp] theorem Gang.setC_held : (g.setC r x).held = g.held := rfl
@[simp] theorem Gang.setC_cnt : (g.setC r x).cnt = g.cnt := rfl
@[simp] theorem Gang.setC_heldClaims : (g.setC r x).heldClaims = g.heldClaims := rfl
@[simp] theorem Gang.setC_poisoned : (g.setC r x).poisoned = g.poisoned := rfl
@[simp] theorem Gang.setC_owed : (g.setC r x).owed = g.owed := rfl
end Gang_setC

section Gang_raise
variable (g : Gang) (f : BitVec 5)
@[simp] theorem Gang.raise_regs : (g.raise f).regs = { g.regs with fstat := g.regs.fstat ||| f } := rfl
@[simp] theorem Gang.raise_allot : (g.raise f).allot = g.allot := rfl
@[simp] theorem Gang.raise_stack : (g.raise f).stack = g.stack := rfl
@[simp] theorem Gang.raise_parked : (g.raise f).parked = g.parked := rfl
@[simp] theorem Gang.raise_hold : (g.raise f).hold = g.hold := rfl
@[simp] theorem Gang.raise_late : (g.raise f).late = g.late := rfl
@[simp] theorem Gang.raise_save : (g.raise f).save = g.save := rfl
@[simp] theorem Gang.raise_replay : (g.raise f).replay = g.replay := rfl
@[simp] theorem Gang.raise_outer : (g.raise f).outer = g.outer := rfl
@[simp] theorem Gang.raise_priv : (g.raise f).priv = g.priv := rfl
@[simp] theorem Gang.raise_status : (g.raise f).status = g.status := rfl
@[simp] theorem Gang.raise_fcode : (g.raise f).fcode = g.fcode := rfl
@[simp] theorem Gang.raise_pending : (g.raise f).pending = g.pending := rfl
@[simp] theorem Gang.raise_page : (g.raise f).page = g.page := rfl
@[simp] theorem Gang.raise_rec_ : (g.raise f).rec_ = g.rec_ := rfl
@[simp] theorem Gang.raise_freezeReq : (g.raise f).freezeReq = g.freezeReq := rfl
@[simp] theorem Gang.raise_yielded : (g.raise f).yielded = g.yielded := rfl
@[simp] theorem Gang.raise_ident : (g.raise f).ident = g.ident := rfl
@[simp] theorem Gang.raise_hdr : (g.raise f).hdr = g.hdr := rfl
@[simp] theorem Gang.raise_chan : (g.raise f).chan = g.chan := rfl
@[simp] theorem Gang.raise_tx : (g.raise f).tx = g.tx := rfl
@[simp] theorem Gang.raise_q : (g.raise f).q = g.q := rfl
@[simp] theorem Gang.raise_selIn : (g.raise f).selIn = g.selIn := rfl
@[simp] theorem Gang.raise_sel : (g.raise f).sel = g.sel := rfl
@[simp] theorem Gang.raise_drainOut : (g.raise f).drainOut = g.drainOut := rfl
@[simp] theorem Gang.raise_tokens : (g.raise f).tokens = g.tokens := rfl
@[simp] theorem Gang.raise_past : (g.raise f).past = g.past := rfl
@[simp] theorem Gang.raise_partner : (g.raise f).partner = g.partner := rfl
@[simp] theorem Gang.raise_shadow : (g.raise f).shadow = g.shadow := rfl
@[simp] theorem Gang.raise_held : (g.raise f).held = g.held := rfl
@[simp] theorem Gang.raise_cnt : (g.raise f).cnt = g.cnt := rfl
@[simp] theorem Gang.raise_heldClaims : (g.raise f).heldClaims = g.heldClaims := rfl
@[simp] theorem Gang.raise_poisoned : (g.raise f).poisoned = g.poisoned := rfl
@[simp] theorem Gang.raise_owed : (g.raise f).owed = g.owed := rfl
end Gang_raise

section Gang_setExm
variable (g : Gang) (m : Mask)
@[simp] theorem Gang.setExm_regs : (g.setExm m).regs = { g.regs with exm := m &&& ~~~ g.regs.pkm } := rfl
@[simp] theorem Gang.setExm_allot : (g.setExm m).allot = g.allot := rfl
@[simp] theorem Gang.setExm_stack : (g.setExm m).stack = g.stack := rfl
@[simp] theorem Gang.setExm_parked : (g.setExm m).parked = g.parked := rfl
@[simp] theorem Gang.setExm_hold : (g.setExm m).hold = g.hold := rfl
@[simp] theorem Gang.setExm_late : (g.setExm m).late = g.late := rfl
@[simp] theorem Gang.setExm_save : (g.setExm m).save = g.save := rfl
@[simp] theorem Gang.setExm_replay : (g.setExm m).replay = g.replay := rfl
@[simp] theorem Gang.setExm_outer : (g.setExm m).outer = g.outer := rfl
@[simp] theorem Gang.setExm_priv : (g.setExm m).priv = g.priv := rfl
@[simp] theorem Gang.setExm_status : (g.setExm m).status = g.status := rfl
@[simp] theorem Gang.setExm_fcode : (g.setExm m).fcode = g.fcode := rfl
@[simp] theorem Gang.setExm_pending : (g.setExm m).pending = g.pending := rfl
@[simp] theorem Gang.setExm_page : (g.setExm m).page = g.page := rfl
@[simp] theorem Gang.setExm_rec_ : (g.setExm m).rec_ = g.rec_ := rfl
@[simp] theorem Gang.setExm_freezeReq : (g.setExm m).freezeReq = g.freezeReq := rfl
@[simp] theorem Gang.setExm_yielded : (g.setExm m).yielded = g.yielded := rfl
@[simp] theorem Gang.setExm_ident : (g.setExm m).ident = g.ident := rfl
@[simp] theorem Gang.setExm_hdr : (g.setExm m).hdr = g.hdr := rfl
@[simp] theorem Gang.setExm_chan : (g.setExm m).chan = g.chan := rfl
@[simp] theorem Gang.setExm_tx : (g.setExm m).tx = g.tx := rfl
@[simp] theorem Gang.setExm_q : (g.setExm m).q = g.q := rfl
@[simp] theorem Gang.setExm_selIn : (g.setExm m).selIn = g.selIn := rfl
@[simp] theorem Gang.setExm_sel : (g.setExm m).sel = g.sel := rfl
@[simp] theorem Gang.setExm_drainOut : (g.setExm m).drainOut = g.drainOut := rfl
@[simp] theorem Gang.setExm_tokens : (g.setExm m).tokens = g.tokens := rfl
@[simp] theorem Gang.setExm_past : (g.setExm m).past = g.past := rfl
@[simp] theorem Gang.setExm_partner : (g.setExm m).partner = g.partner := rfl
@[simp] theorem Gang.setExm_shadow : (g.setExm m).shadow = g.shadow := rfl
@[simp] theorem Gang.setExm_held : (g.setExm m).held = g.held := rfl
@[simp] theorem Gang.setExm_cnt : (g.setExm m).cnt = g.cnt := rfl
@[simp] theorem Gang.setExm_heldClaims : (g.setExm m).heldClaims = g.heldClaims := rfl
@[simp] theorem Gang.setExm_poisoned : (g.setExm m).poisoned = g.poisoned := rfl
@[simp] theorem Gang.setExm_owed : (g.setExm m).owed = g.owed := rfl
end Gang_setExm

section Gang_setS
variable (g : Gang) (r : SReg) (x : DWord)
@[simp] theorem Gang.setS_allot : (g.setS r x).allot = g.allot := by unfold Gang.setS; split <;> rfl
@[simp] theorem Gang.setS_stack : (g.setS r x).stack = g.stack := by unfold Gang.setS; split <;> rfl
@[simp] theorem Gang.setS_parked : (g.setS r x).parked = g.parked := by unfold Gang.setS; split <;> rfl
@[simp] theorem Gang.setS_hold : (g.setS r x).hold = g.hold := by unfold Gang.setS; split <;> rfl
@[simp] theorem Gang.setS_late : (g.setS r x).late = g.late := by unfold Gang.setS; split <;> rfl
@[simp] theorem Gang.setS_save : (g.setS r x).save = g.save := by unfold Gang.setS; split <;> rfl
@[simp] theorem Gang.setS_replay : (g.setS r x).replay = g.replay := by unfold Gang.setS; split <;> rfl
@[simp] theorem Gang.setS_outer : (g.setS r x).outer = g.outer := by unfold Gang.setS; split <;> rfl
@[simp] theorem Gang.setS_priv : (g.setS r x).priv = g.priv := by unfold Gang.setS; split <;> rfl
@[simp] theorem Gang.setS_status : (g.setS r x).status = g.status := by unfold Gang.setS; split <;> rfl
@[simp] theorem Gang.setS_fcode : (g.setS r x).fcode = g.fcode := by unfold Gang.setS; split <;> rfl
@[simp] theorem Gang.setS_pending : (g.setS r x).pending = g.pending := by unfold Gang.setS; split <;> rfl
@[simp] theorem Gang.setS_page : (g.setS r x).page = g.page := by unfold Gang.setS; split <;> rfl
@[simp] theorem Gang.setS_rec_ : (g.setS r x).rec_ = g.rec_ := by unfold Gang.setS; split <;> rfl
@[simp] theorem Gang.setS_freezeReq : (g.setS r x).freezeReq = g.freezeReq := by unfold Gang.setS; split <;> rfl
@[simp] theorem Gang.setS_yielded : (g.setS r x).yielded = g.yielded := by unfold Gang.setS; split <;> rfl
@[simp] theorem Gang.setS_ident : (g.setS r x).ident = g.ident := by unfold Gang.setS; split <;> rfl
@[simp] theorem Gang.setS_hdr : (g.setS r x).hdr = g.hdr := by unfold Gang.setS; split <;> rfl
@[simp] theorem Gang.setS_chan : (g.setS r x).chan = g.chan := by unfold Gang.setS; split <;> rfl
@[simp] theorem Gang.setS_tx : (g.setS r x).tx = g.tx := by unfold Gang.setS; split <;> rfl
@[simp] theorem Gang.setS_q : (g.setS r x).q = g.q := by unfold Gang.setS; split <;> rfl
@[simp] theorem Gang.setS_selIn : (g.setS r x).selIn = g.selIn := by unfold Gang.setS; split <;> rfl
@[simp] theorem Gang.setS_sel : (g.setS r x).sel = g.sel := by unfold Gang.setS; split <;> rfl
@[simp] theorem Gang.setS_drainOut : (g.setS r x).drainOut = g.drainOut := by unfold Gang.setS; split <;> rfl
@[simp] theorem Gang.setS_tokens : (g.setS r x).tokens = g.tokens := by unfold Gang.setS; split <;> rfl
@[simp] theorem Gang.setS_past : (g.setS r x).past = g.past := by unfold Gang.setS; split <;> rfl
@[simp] theorem Gang.setS_partner : (g.setS r x).partner = g.partner := by unfold Gang.setS; split <;> rfl
@[simp] theorem Gang.setS_shadow : (g.setS r x).shadow = g.shadow := by unfold Gang.setS; split <;> rfl
@[simp] theorem Gang.setS_held : (g.setS r x).held = g.held := by unfold Gang.setS; split <;> rfl
@[simp] theorem Gang.setS_cnt : (g.setS r x).cnt = g.cnt := by unfold Gang.setS; split <;> rfl
@[simp] theorem Gang.setS_heldClaims : (g.setS r x).heldClaims = g.heldClaims := by unfold Gang.setS; split <;> rfl
@[simp] theorem Gang.setS_poisoned : (g.setS r x).poisoned = g.poisoned := by unfold Gang.setS; split <;> rfl
@[simp] theorem Gang.setS_owed : (g.setS r x).owed = g.owed := by unfold Gang.setS; split <;> rfl
end Gang_setS

section Gang_setP
variable (g : Gang) (r : PReg) (x : Mask)
@[simp] theorem Gang.setP_allot : (g.setP r x).allot = g.allot := by unfold Gang.setP; split <;> rfl
@[simp] theorem Gang.setP_stack : (g.setP r x).stack = g.stack := by unfold Gang.setP; split <;> rfl
@[simp] theorem Gang.setP_parked : (g.setP r x).parked = g.parked := by unfold Gang.setP; split <;> rfl
@[simp] theorem Gang.setP_hold : (g.setP r x).hold = g.hold := by unfold Gang.setP; split <;> rfl
@[simp] theorem Gang.setP_late : (g.setP r x).late = g.late := by unfold Gang.setP; split <;> rfl
@[simp] theorem Gang.setP_save : (g.setP r x).save = g.save := by unfold Gang.setP; split <;> rfl
@[simp] theorem Gang.setP_replay : (g.setP r x).replay = g.replay := by unfold Gang.setP; split <;> rfl
@[simp] theorem Gang.setP_outer : (g.setP r x).outer = g.outer := by unfold Gang.setP; split <;> rfl
@[simp] theorem Gang.setP_priv : (g.setP r x).priv = g.priv := by unfold Gang.setP; split <;> rfl
@[simp] theorem Gang.setP_status : (g.setP r x).status = g.status := by unfold Gang.setP; split <;> rfl
@[simp] theorem Gang.setP_fcode : (g.setP r x).fcode = g.fcode := by unfold Gang.setP; split <;> rfl
@[simp] theorem Gang.setP_pending : (g.setP r x).pending = g.pending := by unfold Gang.setP; split <;> rfl
@[simp] theorem Gang.setP_page : (g.setP r x).page = g.page := by unfold Gang.setP; split <;> rfl
@[simp] theorem Gang.setP_rec_ : (g.setP r x).rec_ = g.rec_ := by unfold Gang.setP; split <;> rfl
@[simp] theorem Gang.setP_freezeReq : (g.setP r x).freezeReq = g.freezeReq := by unfold Gang.setP; split <;> rfl
@[simp] theorem Gang.setP_yielded : (g.setP r x).yielded = g.yielded := by unfold Gang.setP; split <;> rfl
@[simp] theorem Gang.setP_ident : (g.setP r x).ident = g.ident := by unfold Gang.setP; split <;> rfl
@[simp] theorem Gang.setP_hdr : (g.setP r x).hdr = g.hdr := by unfold Gang.setP; split <;> rfl
@[simp] theorem Gang.setP_chan : (g.setP r x).chan = g.chan := by unfold Gang.setP; split <;> rfl
@[simp] theorem Gang.setP_tx : (g.setP r x).tx = g.tx := by unfold Gang.setP; split <;> rfl
@[simp] theorem Gang.setP_q : (g.setP r x).q = g.q := by unfold Gang.setP; split <;> rfl
@[simp] theorem Gang.setP_selIn : (g.setP r x).selIn = g.selIn := by unfold Gang.setP; split <;> rfl
@[simp] theorem Gang.setP_sel : (g.setP r x).sel = g.sel := by unfold Gang.setP; split <;> rfl
@[simp] theorem Gang.setP_drainOut : (g.setP r x).drainOut = g.drainOut := by unfold Gang.setP; split <;> rfl
@[simp] theorem Gang.setP_tokens : (g.setP r x).tokens = g.tokens := by unfold Gang.setP; split <;> rfl
@[simp] theorem Gang.setP_past : (g.setP r x).past = g.past := by unfold Gang.setP; split <;> rfl
@[simp] theorem Gang.setP_partner : (g.setP r x).partner = g.partner := by unfold Gang.setP; split <;> rfl
@[simp] theorem Gang.setP_shadow : (g.setP r x).shadow = g.shadow := by unfold Gang.setP; split <;> rfl
@[simp] theorem Gang.setP_held : (g.setP r x).held = g.held := by unfold Gang.setP; split <;> rfl
@[simp] theorem Gang.setP_cnt : (g.setP r x).cnt = g.cnt := by unfold Gang.setP; split <;> rfl
@[simp] theorem Gang.setP_heldClaims : (g.setP r x).heldClaims = g.heldClaims := by unfold Gang.setP; split <;> rfl
@[simp] theorem Gang.setP_poisoned : (g.setP r x).poisoned = g.poisoned := by unfold Gang.setP; split <;> rfl
@[simp] theorem Gang.setP_owed : (g.setP r x).owed = g.owed := by unfold Gang.setP; split <;> rfl
end Gang_setP

end Sys2Proof.Machine
end

