-- ==== Sys2Proof/Laws/Table.lean ====
section
/-! SUPPORT. Laws of the sparse tables, of memories and of granule sets: read after write, and the canonical form. -/

namespace Sys2Proof.Machine

variable {α : Type}

/-! A table is its keys: what a write and a removal list. -/

@[simp] theorem Tbl.get?_nil (n : Nat) : Tbl.get? ([] : Tbl α) n = none := rfl

theorem Tbl.get?_cons (e : Nat × α) (t : Tbl α) (n : Nat) : Tbl.get? (e :: t) n = if e.1 = n then some e.2 else Tbl.get? t n := rfl

theorem Tbl.put_cons (e : Nat × α) (t : Tbl α) (n : Nat) (a : α) :
    Tbl.put (e :: t) n a = if n < e.1 then (n, a) :: e :: t else if n = e.1 then (n, a) :: t else e :: Tbl.put t n a := rfl

theorem Tbl.del_cons (e : Nat × α) (t : Tbl α) (n : Nat) : Tbl.del (e :: t) n = if e.1 = n then t else e :: Tbl.del t n := rfl

/-- Reading any key after a write. -/
theorem Tbl.get?_put (t : Tbl α) (n : Nat) (a : α) (m : Nat) :
    Tbl.get? (Tbl.put t n a) m = if m = n then some a else Tbl.get? t m := by
  induction t with
  | nil => simp [Tbl.put, Tbl.get?, eq_comm]
  | cons e t ih =>
    rw [Tbl.put_cons]
    by_cases h1 : n < e.1
    · simp [h1, Tbl.get?_cons, eq_comm]
    · by_cases h2 : n = e.1
      · subst h2
        by_cases h : m = e.1 <;> simp [Tbl.get?_cons, h, eq_comm]
      · rw [if_neg h1, if_neg h2, Tbl.get?_cons, ih, Tbl.get?_cons]
        by_cases h : e.1 = m
        · rw [if_pos h, if_pos h, if_neg (fun x => h2 (x.symm.trans h.symm))]
        · rw [if_neg h, if_neg h]

@[simp] theorem Tbl.get?_put_self (t : Tbl α) (n : Nat) (a : α) : Tbl.get? (Tbl.put t n a) n = some a := by
  simp [Tbl.get?_put]

theorem Tbl.get?_put_ne (t : Tbl α) {n m : Nat} (a : α) (h : m ≠ n) : Tbl.get? (Tbl.put t n a) m = Tbl.get? t m := by
  simp [Tbl.get?_put, h]

/-- A write lists its own entry and old ones. -/
theorem Tbl.mem_put {t : Tbl α} {n : Nat} {a : α} {x : Nat × α} (h : x ∈ Tbl.put t n a) : x = (n, a) ∨ x ∈ t := by
  induction t with
  | nil => simpa [Tbl.put] using h
  | cons e t ih =>
    rw [Tbl.put_cons] at h
    split at h
    · simpa using h
    · split at h
      · exact (List.mem_cons.1 h).imp_right (List.mem_cons_of_mem e)
      · exact (List.mem_cons.1 h).elim (fun y => .inr (y ▸ List.mem_cons_self)) (fun y => (ih y).imp_right (List.mem_cons_of_mem e))

/-- A removal keeps the other entries in their order. -/
theorem Tbl.del_sublist (t : Tbl α) (n : Nat) : List.Sublist (Tbl.del t n) t := by
  induction t with
  | nil => exact List.Sublist.refl _
  | cons e t ih =>
    rw [Tbl.del_cons]
    split
    · exact List.sublist_cons_self e t
    · exact ih.cons_cons e

theorem Tbl.get?_del_ne (t : Tbl α) {n m : Nat} (h : m ≠ n) : Tbl.get? (Tbl.del t n) m = Tbl.get? t m := by
  induction t with
  | nil => rfl
  | cons e t ih =>
    rw [Tbl.del_cons]
    by_cases he : e.1 = n
    · rw [if_pos he, Tbl.get?_cons, if_neg (fun x => h (x.symm.trans he))]
    · rw [if_neg he, Tbl.get?_cons, Tbl.get?_cons, ih]

/-- A key that no entry has. -/
theorem Tbl.get?_none {t : Tbl α} {n : Nat} (h : ∀ x ∈ t, x.1 ≠ n) : Tbl.get? t n = none := by
  induction t with
  | nil => rfl
  | cons e t ih =>
    rw [Tbl.get?_cons, if_neg (h e List.mem_cons_self)]
    exact ih (fun x hx => h x (List.mem_cons_of_mem e hx))

/-! Rising keys. -/

theorem Tbl.rising_iff (t : Tbl α) : Tbl.rising t = true ↔ t.Pairwise (fun x y => x.1 < y.1) := decide_eq_true_iff

theorem Tbl.rising_cons (e : Nat × α) (t : Tbl α) : Tbl.rising (e :: t) = true ↔ (∀ x ∈ t, e.1 < x.1) ∧ Tbl.rising t = true := by
  rw [Tbl.rising_iff, Tbl.rising_iff, List.pairwise_cons]

theorem Tbl.rising_sublist {t u : Tbl α} (h : List.Sublist u t) (ht : Tbl.rising t = true) : Tbl.rising u = true :=
  (Tbl.rising_iff u).2 (((Tbl.rising_iff t).1 ht).sublist h)

theorem Tbl.rising_put (t : Tbl α) (n : Nat) (a : α) (ht : Tbl.rising t = true) : Tbl.rising (Tbl.put t n a) = true := by
  induction t with
  | nil => exact (Tbl.rising_iff _).2 (List.pairwise_singleton _ _)
  | cons e t ih =>
    obtain ⟨h1, h2⟩ := (Tbl.rising_cons e t).1 ht
    rw [Tbl.put_cons]
    split
    · rename_i h
      exact (Tbl.rising_cons _ _).2 ⟨fun x hx => (List.mem_cons.1 hx).elim (fun y => y ▸ h) (fun y => h.trans (h1 x y)), ht⟩
    · split
      · rename_i h
        exact (Tbl.rising_cons _ _).2 ⟨fun x hx => h ▸ h1 x hx, h2⟩
      · exact (Tbl.rising_cons _ _).2 ⟨fun x hx => (Tbl.mem_put hx).elim (fun y => by rw [y]; show e.1 < n; omega) (h1 x), ih h2⟩

theorem Tbl.get?_del_self (t : Tbl α) (n : Nat) (ht : Tbl.rising t = true) : Tbl.get? (Tbl.del t n) n = none := by
  induction t with
  | nil => rfl
  | cons e t ih =>
    obtain ⟨h1, h2⟩ := (Tbl.rising_cons e t).1 ht
    rw [Tbl.del_cons]
    by_cases he : e.1 = n
    · rw [if_pos he]
      exact Tbl.get?_none (fun x hx => by have := h1 x hx; omega)
    · rw [if_neg he, Tbl.get?_cons, if_neg he, ih h2]

/-! Memories. -/

theorem Memory.wf_iff (m : Memory) : m.wf = true ↔ Tbl.rising m = true ∧ ∀ x ∈ m, x.2 ≠ Memory.unlisted := by
  simp [Memory.wf]

theorem Memory.wf_nil : Memory.wf [] = true := rfl

/-- Dropping cells keeps the canonical form. -/
theorem Memory.wf_sublist {m k : Memory} (h : List.Sublist k m) (hm : m.wf = true) : k.wf = true := by
  obtain ⟨h1, h2⟩ := m.wf_iff.1 hm
  exact k.wf_iff.2 ⟨Tbl.rising_sublist h h1, fun x hx => h2 x (h.subset hx)⟩

theorem Memory.wf_filter {m : Memory} (p : Host.Cell → Bool) (h : m.wf = true) : Memory.wf (m.filter p) = true :=
  Memory.wf_sublist List.filter_sublist h

/-- A byte written keeps the canonical form. -/
theorem Memory.wf_set {m : Memory} (a : Nat) (b : Byte) (h : m.wf = true) : (m.set a b).wf = true := by
  unfold Memory.set
  split
  · exact Memory.wf_sublist (Tbl.del_sublist m a) h
  · rename_i hb
    obtain ⟨h1, h2⟩ := m.wf_iff.1 h
    exact (Memory.wf_iff _).2 ⟨Tbl.rising_put m a b h1, fun x hx => (Tbl.mem_put hx).elim (fun y => y ▸ hb) (h2 x)⟩

/-- Bytes written keep the canonical form. -/
theorem Memory.wf_write {m : Memory} (a : Nat) (bs : List Byte) (h : m.wf = true) : (m.write a bs).wf = true := by
  induction bs generalizing m a with
  | nil => exact h
  | cons b bs ih => exact ih (a + 1) (Memory.wf_set a b h)

/-- Reading any byte after a byte is written. -/
theorem Memory.get_set {m : Memory} (a : Nat) (b : Byte) (x : Nat) (h : m.wf = true) :
    (m.set a b).get x = if x = a then b else m.get x := by
  unfold Memory.get Memory.set
  by_cases hx : x = a
  · subst hx
    split
    · rename_i hb
      rw [Tbl.get?_del_self m x (m.wf_iff.1 h).1, if_pos rfl, hb]
      rfl
    · simp
  · rw [if_neg hx]
    split
    · rw [Tbl.get?_del_ne m hx]
    · rw [Tbl.get?_put_ne m b hx]

theorem Memory.get_set_ne (m : Memory) {a x : Nat} (b : Byte) (h : x ≠ a) : (m.set a b).get x = m.get x := by
  unfold Memory.get Memory.set
  split <;> simp [Tbl.get?_del_ne, Tbl.get?_put_ne, h]

/-- A write leaves the bytes outside it alone. -/
theorem Memory.get_write_out (m : Memory) (a x : Nat) (bs : List Byte) (h : x < a ∨ a + bs.length ≤ x) :
    (m.write a bs).get x = m.get x := by
  induction bs generalizing m a with
  | nil => rfl
  | cons b bs ih =>
    rw [List.length_cons] at h
    exact (ih (m.set a b) (a + 1) (by omega)).trans (Memory.get_set_ne m b (by omega))

/-- A write puts its bytes. -/
theorem Memory.get_write_in (m : Memory) (a : Nat) (bs : List Byte) (i : Nat) (hw : m.wf = true) (h : i < bs.length) :
    (m.write a bs).get (a + i) = bs[i] := by
  induction bs generalizing m a i with
  | nil => exact absurd h (Nat.not_lt_zero i)
  | cons b bs ih =>
    cases i with
    | zero => exact (Memory.get_write_out (m.set a b) (a + 1) a bs (.inl (by omega))).trans (by rw [Memory.get_set a b a hw]; simp)
    | succ i =>
      have := ih (m.set a b) (a + 1) i (Memory.wf_set a b hw) (Nat.lt_of_succ_lt_succ h)
      rwa [show a + 1 + i = a + (i + 1) by omega] at this

/-- Reading back what was written. -/
theorem Memory.read_write_self (m : Memory) (a : Nat) (bs : List Byte) (hw : m.wf = true) : (m.write a bs).read a bs.length = bs :=
  List.ext_getElem (by simp [Memory.read]) (fun i _ h2 => by
    simp only [Memory.read, List.getElem_map, List.getElem_range]
    exact Memory.get_write_in m a bs i hw h2)

/-! Filling. -/

theorem Memory.mem_cells {a : Nat} {bs : List Byte} {x : Nat × Byte} (h : x ∈ Memory.cells a bs) :
    a ≤ x.1 ∧ x.1 < a + bs.length ∧ x.2 ≠ Memory.unlisted := by
  induction bs generalizing a with
  | nil => cases h
  | cons b bs ih =>
    rw [Memory.cells] at h
    rw [List.length_cons]
    split at h
    · have := ih h
      exact ⟨by omega, by omega, this.2.2⟩
    · rename_i hb
      rcases List.mem_cons.1 h with rfl | h
      · exact ⟨Nat.le_refl a, by show a < _; omega, hb⟩
      · have := ih h
        exact ⟨by omega, by omega, this.2.2⟩

theorem Memory.rising_cells (a : Nat) (bs : List Byte) : Tbl.rising (Memory.cells a bs) = true := by
  induction bs generalizing a with
  | nil => rfl
  | cons b bs ih =>
    rw [Memory.cells]
    split
    · exact ih (a + 1)
    · exact (Tbl.rising_cons _ _).2 ⟨fun x hx => by have := Memory.mem_cells hx; show a < x.1; omega, ih (a + 1)⟩

/-- Filling keeps the canonical form. -/
theorem Memory.wf_fill {m : Memory} (a n : Nat) (bs : List Byte) (h : m.wf = true) : (m.fill a n bs).wf = true := by
  obtain ⟨h1, h2⟩ := m.wf_iff.1 h
  have short : (bs.take n).length ≤ n := by simp
  refine (Memory.wf_iff _).2 ⟨(Tbl.rising_iff _).2 ?_, fun x hx => ?_⟩
  · refine List.pairwise_append.2 ⟨((Tbl.rising_iff m).1 h1).sublist List.filter_sublist, List.pairwise_append.2
      ⟨(Tbl.rising_iff _).1 (Memory.rising_cells a _), ((Tbl.rising_iff m).1 h1).sublist List.filter_sublist, ?_⟩, ?_⟩
    · intro x hx y hy
      have := Memory.mem_cells hx
      have := (List.mem_filter.1 hy).2
      simp only [decide_eq_true_eq] at this
      omega
    · intro x hx y hy
      have hx := (List.mem_filter.1 hx).2
      simp only [decide_eq_true_eq] at hx
      rcases List.mem_append.1 hy with hy | hy
      · have := Memory.mem_cells hy
        omega
      · have := (List.mem_filter.1 hy).2
        simp only [decide_eq_true_eq] at this
        omega
  · rcases List.mem_append.1 hx with hx | hx
    · exact h2 x (List.mem_filter.1 hx).1
    · rcases List.mem_append.1 hx with hx | hx
      · exact (Memory.mem_cells hx).2.2
      · exact h2 x (List.mem_filter.1 hx).1

end Sys2Proof.Machine
end

