-- ==== Sys2Proof/Laws/Gang.lean ====
section
/-! SUPPORT. Reading a core, a gang or a register after it is written; the hard-wired registers. -/

namespace Sys2Proof.Machine

/-! Cores and gangs. -/

@[simp] theorem State.core_setCore_self (s : State) (c : CoreId) (k : Core) : (s.setCore c k).core c = k := by
  simp [State.core]

theorem State.core_setCore_ne (s : State) {c d : CoreId} (k : Core) (h : d ≠ c) : (s.setCore c k).core d = s.core d := by
  have h' : d.toNat ≠ c.toNat := fun e => h (BitVec.eq_of_toNat_eq e)
  simp [State.core, Tbl.get?_put_ne _ _ h']

@[simp] theorem State.core_modCore_self (s : State) (c : CoreId) (f : Core → Core) : (s.modCore c f).core c = f (s.core c) :=
  State.core_setCore_self s c _

theorem State.core_modCore_ne (s : State) {c d : CoreId} (f : Core → Core) (h : d ≠ c) : (s.modCore c f).core d = s.core d :=
  State.core_setCore_ne s _ h

@[simp] theorem State.ctx_modCtx_self (s : State) (c : CoreId) (f : Ctx → Ctx) : (s.modCtx c f).ctx c = f (s.ctx c) := by
  simp [State.ctx, State.modCtx]

theorem State.ctx_modCtx_ne (s : State) {c d : CoreId} (f : Ctx → Ctx) (h : d ≠ c) : (s.modCtx c f).ctx d = s.ctx d := by
  simp [State.ctx, State.modCtx, State.core_modCore_ne s _ h]

@[simp] theorem Ctx.setSlot_slots_self (x : Ctx) (k : SlotId) (g : Option Gang) : (x.setSlot k g).slots[k.val] = g := by
  simp [Ctx.setSlot]

theorem Ctx.setSlot_slots_ne (x : Ctx) {k j : SlotId} (g : Option Gang) (h : j ≠ k) :
    (x.setSlot k g).slots[j.val] = x.slots[j.val] := by
  have : k.val ≠ j.val := fun e => h (Fin.ext e.symm)
  simp [Ctx.setSlot, Vector.getElem_set_ne, this]

@[simp] theorem State.gang?_setGang_self (s : State) (c : CoreId) (k : SlotId) (g : Gang) : (s.setGang c k g).gang? c k = some g := by
  simp [State.gang?, State.setGang]

theorem State.gang?_setGang_slot (s : State) (c : CoreId) {k j : SlotId} (g : Gang) (h : j ≠ k) :
    (s.setGang c k g).gang? c j = s.gang? c j := by
  simp [State.gang?, State.setGang, Ctx.setSlot_slots_ne _ _ h]

theorem State.gang?_setGang_core (s : State) {c d : CoreId} (k j : SlotId) (g : Gang) (h : d ≠ c) :
    (s.setGang c k g).gang? d j = s.gang? d j := by
  simp [State.gang?, State.setGang, State.ctx_modCtx_ne s _ h]

@[simp] theorem State.me?_setMe (s : State) (g : Gang) : (s.setMe g).me? = some g := by
  show (s.setGang s.cur.core s.cur.slot g).gang? s.cur.core s.cur.slot = some g
  exact State.gang?_setGang_self s _ _ g

theorem State.me?_eq (s : State) : s.me? = s.gang? s.cur.core s.cur.slot := rfl

theorem State.modGang_some {s : State} {c : CoreId} {k : SlotId} {g : Gang} (f : Gang → Gang) (h : s.gang? c k = some g) :
    s.modGang c k f = s.setGang c k (f g) := by
  simp [State.modGang, h]

theorem State.modGang_none {s : State} {c : CoreId} {k : SlotId} (f : Gang → Gang) (h : s.gang? c k = none) :
    s.modGang c k f = s := by
  simp [State.modGang, h]

/-! Registers: S0 reads 0 and discards writes, P0 reads true and discards writes (01 R21). -/

@[simp] theorem Gang.s_zero (g : Gang) : g.s 0 = 0 := rfl
@[simp] theorem Gang.p_zero (g : Gang) : g.p 0 = BitVec.allOnes 32 := rfl
@[simp] theorem Gang.setS_zero (g : Gang) (x : DWord) : g.setS 0 x = g := rfl
@[simp] theorem Gang.setP_zero (g : Gang) (x : Mask) : g.setP 0 x = g := rfl

theorem Gang.s_setS_self (g : Gang) {r : SReg} (x : DWord) (h : r ≠ 0) : (g.setS r x).s r = x := by
  unfold Gang.s Gang.setS
  rw [if_neg h, if_neg h]
  exact Vector.getElem_set_self _

theorem Gang.s_setS_ne (g : Gang) {r q : SReg} (x : DWord) (h : q ≠ r) : (g.setS r x).s q = g.s q := by
  have h' : r.toNat ≠ q.toFin.val := fun e => h (BitVec.eq_of_toNat_eq e.symm)
  unfold Gang.s Gang.setS
  split
  · rfl
  · split
    · rfl
    · exact Vector.getElem_set_ne r.isLt q.isLt h'

theorem Gang.p_setP_self (g : Gang) {r : PReg} (x : Mask) (h : r ≠ 0) : (g.setP r x).p r = x := by
  unfold Gang.p Gang.setP
  rw [if_neg h, if_neg h]
  exact Vector.getElem_set_self _

theorem Gang.p_setP_ne (g : Gang) {r q : PReg} (x : Mask) (h : q ≠ r) : (g.setP r x).p q = g.p q := by
  have h' : r.toNat ≠ q.toFin.val := fun e => h (BitVec.eq_of_toNat_eq e.symm)
  unfold Gang.p Gang.setP
  split
  · rfl
  · split
    · rfl
    · exact Vector.getElem_set_ne r.isLt q.isLt h'

@[simp] theorem Gang.v_setVAll_self (g : Gang) (r : VReg) (x : Lanes Word) : (g.setVAll r x).v r = x :=
  Vector.getElem_set_self _

theorem Gang.v_setVAll_ne (g : Gang) {r q : VReg} (x : Lanes Word) (h : q ≠ r) : (g.setVAll r x).v q = g.v q := by
  have h' : r.toNat ≠ q.toFin.val := fun e => h (BitVec.eq_of_toNat_eq e.symm)
  exact Vector.getElem_set_ne r.isLt q.isLt h'

@[simp] theorem Gang.c_setC_self (g : Gang) (r : CReg) (x : Cap) : (g.setC r x).c r = x :=
  Vector.getElem_set_self _

theorem Gang.c_setC_ne (g : Gang) {r q : CReg} (x : Cap) (h : q ≠ r) : (g.setC r x).c q = g.c q := by
  have h' : r.toNat ≠ q.toFin.val := fun e => h (BitVec.eq_of_toNat_eq e.symm)
  exact Vector.getElem_set_ne r.isLt q.isLt h'

/-- A V register written in the active lanes (08 R251). -/
theorem Gang.v_setV (g : Gang) (r : VReg) (f : Fin 32 → Word) (i : Fin 32) :
    ((g.setV r f).v r)[i] = if Mask.has g.active i then f i else (g.v r)[i] := by
  simp [Gang.setV, Lanes.of]

theorem Gang.v_setV_ne (g : Gang) {r q : VReg} (f : Fin 32 → Word) (h : q ≠ r) : (g.setV r f).v q = g.v q :=
  Gang.v_setVAll_ne g _ h

end Sys2Proof.Machine
end

