-- ==== Sys2Proof/Laws/Hash.lean ====
section
/-! SUPPORT. A hash is 32 bytes. -/

namespace Sys2Proof.Machine

theorem Sponge.round_length (a : Sponge) (rc : BitVec 64) : (a.round rc).length = 25 := by
  have h : a.theta.rhoPi.chi.length = 25 := by simp [Sponge.chi]
  unfold Sponge.round
  split <;> simp_all

theorem Sponge.rounds_length (l : List (BitVec 64)) : ∀ a : Sponge, a.length = 25 ∨ l ≠ [] → (l.foldl Sponge.round a).length = 25 := by
  induction l with
  | nil => exact fun _ h => h.resolve_right (· rfl)
  | cons x l ih => exact fun a _ => ih _ (.inl (a.round_length x))

theorem Sponge.permute_length (a : Sponge) : a.permute.length = 25 :=
  Sponge.rounds_length _ a (.inr (by decide))

theorem Sponge.absorbAll_length (n : Nat) : ∀ (a : Sponge) (b : List Byte), a.length = 25 → (a.absorbAll b n).length = 25 := by
  induction n with
  | zero => exact fun _ _ h => h
  | succ n ih => exact fun a b _ => ih _ _ (Sponge.permute_length _)

/-- A hash of SHA3-256 is 32 bytes. -/
@[simp] theorem sha3_length (b : List Byte) : (sha3 b).length = 32 := by
  unfold sha3
  have h := Sponge.absorbAll_length ((hashPadded b).length / hashRate) (List.replicate 25 0) (hashPadded b) (List.length_replicate ..)
  simp only [List.length_flatMap, toBytes, List.length_map, List.length_range, List.map_const', List.sum_replicate_nat, List.length_take, h]
  decide

end Sys2Proof.Machine
end

