-- ==== Sys2Proof/Laws/Run.lean ====
section
/-! SUPPORT. What retiring, publishing, freezing and running a word can do, said once. -/

namespace Sys2Proof.Machine

/-! Moves that leave every byte of memory and the executing place alone. -/

/-- Every byte of memory and the executing place stand as before. -/
structure Quiet (s t : State) : Prop where
  dram : t.dram = s.dram
  host : t.host = s.host
  pad  : ∀ c, (t.ctx c).pad = (s.ctx c).pad
  cur  : t.cur = s.cur

theorem Quiet.refl (s : State) : Quiet s s := ⟨rfl, rfl, fun _ => rfl, rfl⟩

theorem Quiet.trans {s t u : State} (a : Quiet s t) (b : Quiet t u) : Quiet s u :=
  ⟨b.dram.trans a.dram, b.host.trans a.host, fun c => (b.pad c).trans (a.pad c), b.cur.trans a.cur⟩

theorem Quiet.sameMemory {s t : State} (h : Quiet s t) : SameMemory s t := by
  intro l
  cases l <;> simp [State.byteAt, h.dram, h.host, h.pad]

theorem Quiet.memOk {s t : State} (h : Quiet s t) (ok : s.memOk) : t.memOk := by
  simpa [State.memOk, h.dram, h.host] using ok

theorem quiet_setCore (s : State) (c : CoreId) (k : Core) (h : k.ctx.pad = (s.ctx c).pad) : Quiet s (s.setCore c k) := by
  refine ⟨rfl, rfl, fun d => ?_, rfl⟩
  by_cases e : d = c
  · subst e; simp [State.ctx, h]
  · simp [State.ctx, State.core_setCore_ne s k e]

theorem quiet_modCore (s : State) (c : CoreId) (f : Core → Core) (h : ∀ k, (f k).ctx.pad = k.ctx.pad) :
    Quiet s (s.modCore c f) := quiet_setCore s c _ (h _)

theorem quiet_modCtx (s : State) (c : CoreId) (f : Ctx → Ctx) (h : ∀ x, (f x).pad = x.pad) : Quiet s (s.modCtx c f) :=
  quiet_modCore s c _ (fun k => h k.ctx)

theorem quiet_setGang (s : State) (c : CoreId) (k : SlotId) (g : Gang) : Quiet s (s.setGang c k g) :=
  quiet_modCtx s c _ (fun _ => rfl)

theorem quiet_setMe (s : State) (g : Gang) : Quiet s (s.setMe g) := quiet_setGang s _ _ g

theorem quiet_modGang (s : State) (c : CoreId) (k : SlotId) (f : Gang → Gang) : Quiet s (s.modGang c k f) := by
  unfold State.modGang
  split
  · exact quiet_setGang s c k _
  · exact Quiet.refl s

/-- A fold of quiet moves is quiet. -/
theorem quiet_foldl {α : Type} (f : State → α → State) (h : ∀ s x, Quiet s (f s x)) (l : List α) (s : State) :
    Quiet s (l.foldl f s) := by
  induction l generalizing s with
  | nil => exact Quiet.refl s
  | cons x l ih => exact (h s x).trans (ih (f s x))

theorem quiet_sendPacket (s : State) (ch c : CoreId) (p : StreamPkt) : Quiet s (s.sendPacket ch c p) := by
  unfold State.sendPacket
  refine quiet_foldl _ (fun s x => ?_) _ s
  dsimp only
  split
  · exact quiet_modGang s _ _ _
  · exact Quiet.refl s

theorem quiet_publish (s : State) (c : CoreId) (k : SlotId) (w : Word) (b : Bool) : Quiet s (s.publish c k w b) := by
  unfold State.publish
  split
  · exact Quiet.refl s
  · split
    · refine Quiet.trans (Quiet.trans (quiet_modCore s c _ ?_) (quiet_setGang _ c k _)) (quiet_sendPacket _ _ _ _)
      exact fun _ => rfl
    · exact Quiet.refl s

theorem quiet_publishFault (s : State) : Quiet s s.publishFault := by
  unfold State.publishFault
  split
  · exact Quiet.refl s
  · exact quiet_publish s _ _ _ _

theorem quiet_publishWait (s : State) : Quiet s s.publishWait := by
  unfold State.publishWait
  split
  · exact Quiet.refl s
  · exact quiet_publish s _ _ _ _

theorem quiet_releaseHeld (s : State) (c : CoreId) (k : SlotId) (pc : DWord) : Quiet s (s.releaseHeld c k pc) := by
  unfold State.releaseHeld
  split
  · split
    · split
      · exact Quiet.refl s
      · exact (quiet_setGang s c k _).trans (quiet_modCtx _ c _ (fun _ => rfl))
    · exact Quiet.refl s
  · exact Quiet.refl s

theorem quiet_retire (s : State) (pc : Option DWord) : Quiet s (s.retire pc) := by
  unfold State.retire
  split
  · exact Quiet.refl s
  · dsimp only
    split
    · exact (quiet_publish s _ _ _ _).trans (quiet_releaseHeld _ _ _ _)
    · exact ((quiet_publish s _ _ _ _).trans (quiet_releaseHeld _ _ _ _)).trans (quiet_setMe _ _)

theorem quiet_raisePacket (s : State) (c : CoreId) (k : SlotId) (r : FaultRec) : Quiet s (s.raisePacket c k r) := by
  unfold State.raisePacket
  split
  · exact Quiet.refl s
  · exact quiet_modCtx s c _ (fun _ => rfl)

theorem quiet_count (s : State) (k : Fin 16) (n : Nat) : Quiet s (s.count k n) := ⟨rfl, rfl, fun _ => rfl, rfl⟩

theorem quiet_cause (s : State) (n : Fin 4) (b : Nat) : Quiet s (s.cause n b) := by
  unfold State.cause
  dsimp only
  split
  · exact Quiet.refl s
  · exact ⟨rfl, rfl, fun _ => rfl, rfl⟩

theorem quiet_fleet (s : State) (p : Option (Fin 4)) : Quiet s (s.fleet p) := by
  unfold State.fleet
  cases p <;> dsimp only <;> split
  · exact quiet_cause _ _ _
  · exact Quiet.refl s
  · exact (quiet_cause s _ _).trans (quiet_cause _ _ _)
  · exact quiet_cause s _ _

/-- Counting a fault touches counters and causes alone. -/
theorem quiet_countFault (s : State) (c : CoreId) (f : Flt) : Quiet s (s.countFault c f) := by
  unfold State.countFault
  split
  · exact (quiet_count s _ _).trans (quiet_fleet _ _)
  · exact Quiet.refl s

theorem quiet_halt (s : State) (c : CoreId) (k : SlotId) (f : Flt) (l : Mask) (w : Word) : Quiet s (s.halt c k f l w) := by
  unfold State.halt
  split
  · exact Quiet.refl s
  · exact (quiet_setGang s c k _).trans (quiet_raisePacket _ c k _)

theorem quiet_freeze (s : State) (c : CoreId) (k : SlotId) (f : Flt) (l : Mask) (w : Word) : Quiet s (s.freeze c k f l w) :=
  (quiet_halt s c k f l w).trans (quiet_countFault _ c f)

theorem quiet_freezeParked (s : State) (c : CoreId) (k : SlotId) : Quiet s (s.freezeParked c k) := by
  unfold State.freezeParked
  split
  · exact Quiet.refl s
  · exact (quiet_setGang s c k _).trans (quiet_foldl _ (fun s x => quiet_raisePacket s c k _) _ _)

theorem quiet_waitMe (s : State) (w : Why) : Quiet s (s.waitMe w) := by
  unfold State.waitMe
  have h := quiet_publishWait s
  dsimp only
  split
  · exact h
  · exact ⟨h.dram, h.host, fun c => ((quiet_setMe _ _).pad c).trans (h.pad c), h.cur⟩

theorem quiet_retires (s : State) (g : Gang) : Quiet s (s.retires g) := (quiet_setMe s g).trans (quiet_retire _ _)
theorem quiet_jumps (s : State) (g : Gang) (pc : DWord) : Quiet s (s.jumps g pc) := (quiet_setMe s g).trans (quiet_retire _ _)
theorem quiet_faults (s : State) (g : Gang) (f : Flt) : Quiet s (s.faults g f) :=
  (quiet_publishFault s).trans (quiet_freeze _ _ _ _ _ _)

/-! The gangs after a packet is sent: subscribers alone receive, and only their channel state changes. -/

/-- The same gang but for its channel state. -/
def SameButChan (g h : Gang) : Prop := h = { g with chan := h.chan }

theorem SameButChan.refl (g : Gang) : SameButChan g g := rfl
theorem SameButChan.put (g : Gang) (ch : Chan) : SameButChan g { g with chan := ch } := rfl
theorem SameButChan.trans {g h k : Gang} (a : SameButChan g h) (b : SameButChan h k) : SameButChan g k := by
  unfold SameButChan at *
  rw [b, a]

/-- An entry of the gang list of a partition stands in its slot. -/
theorem mem_gangsOf {s : State} {p : Part} {c : CoreId} {k : SlotId} {g : Gang} (h : (c, k, g) ∈ s.gangsOf p) :
    s.gang? c k = some g := by
  simp only [State.gangsOf, List.mem_flatMap, List.mem_map, Ctx.gangs, List.mem_filterMap] at h
  obtain ⟨c', -, kg, ⟨j, -, hj⟩, e⟩ := h
  rw [Option.map_eq_some_iff] at hj
  obtain ⟨g', hg, rfl⟩ := hj
  simp only [Prod.mk.injEq] at e
  obtain ⟨rfl, rfl, rfl⟩ := e
  exact hg

theorem gang?_modGang_self (s : State) (c : CoreId) (k : SlotId) (f : Gang → Gang) :
    (s.modGang c k f).gang? c k = (s.gang? c k).map f := by
  cases h : s.gang? c k with
  | none => rw [State.modGang_none f h, h]; rfl
  | some g => rw [State.modGang_some f h]; simp

theorem gang?_modGang_ne (s : State) {c d : CoreId} {k j : SlotId} (f : Gang → Gang) (h : (d, j) ≠ (c, k)) :
    (s.modGang c k f).gang? d j = s.gang? d j := by
  cases e : s.gang? c k with
  | none => rw [State.modGang_none f e]
  | some g =>
    rw [State.modGang_some f e]
    by_cases hc : d = c
    · subst hc
      have hj : j ≠ k := fun e => h (by rw [e])
      exact State.gang?_setGang_slot s d (f g) hj
    · exact State.gang?_setGang_core s k j (f g) hc

/-- Sending a packet changes the channel state of gangs, and of no gang that neither waits at a RENDEZ nor follows. -/
theorem gang?_sendPacket (s : State) (ch fr : CoreId) (p : StreamPkt) (c : CoreId) (k : SlotId) :
    (s.gang? c k = none → (s.sendPacket ch fr p).gang? c k = none) ∧
    (∀ g, s.gang? c k = some g → ∃ h, (s.sendPacket ch fr p).gang? c k = some h ∧ SameButChan g h ∧
      (g.chan.role ≠ .waiting → g.chan.role ≠ .subscriber → h = g)) := by
  unfold State.sendPacket
  have key : ∀ (l : List (CoreId × SlotId × Gang)) (t : State),
      (∀ x ∈ l, s.gang? x.1 x.2.1 = some x.2.2) →
      ((t.gang? c k = none → (l.foldl (fun s x =>
        if (x.2.2.chan.role = .waiting ∨ x.2.2.chan.role = .subscriber) ∧ x.2.2.chan.chan = ch then
          s.modGang x.1 x.2.1 (fun g => { g with chan := { g.chan with
            due := g.chan.due ++ [(p.tick + entryDelay fr x.1, p)] } })
        else s) t).gang? c k = none) ∧
      (∀ g, t.gang? c k = some g → ∃ h, (l.foldl (fun s x =>
        if (x.2.2.chan.role = .waiting ∨ x.2.2.chan.role = .subscriber) ∧ x.2.2.chan.chan = ch then
          s.modGang x.1 x.2.1 (fun g => { g with chan := { g.chan with
            due := g.chan.due ++ [(p.tick + entryDelay fr x.1, p)] } })
        else s) t).gang? c k = some h ∧ SameButChan g h ∧
        (∀ g0, s.gang? c k = some g0 → g0.chan.role ≠ .waiting → g0.chan.role ≠ .subscriber → h = g))) := by
    intro l
    induction l with
    | nil => intro t _; exact ⟨fun h => h, fun g h => ⟨g, h, rfl, fun _ _ _ _ => rfl⟩⟩
    | cons x l ih =>
      intro t hl
      have hx := hl x (by simp)
      have hl' : ∀ y ∈ l, s.gang? y.1 y.2.1 = some y.2.2 := fun y hy => hl y (by simp [hy])
      simp only [List.foldl_cons]
      split
      · rename_i hr
        obtain ⟨i1, i2⟩ := ih (t.modGang x.1 x.2.1 (fun g => { g with chan := { g.chan with
            due := g.chan.due ++ [(p.tick + entryDelay fr x.1, p)] } })) hl'
        by_cases e : (c, k) = (x.1, x.2.1)
        · obtain ⟨rfl, rfl⟩ := Prod.mk.inj e
          rw [gang?_modGang_self] at i1 i2
          refine ⟨fun h => i1 (by rw [h]; rfl), fun g h => ?_⟩
          obtain ⟨h', a, b, _⟩ := i2 _ (by rw [h]; rfl)
          refine ⟨h', a, ?_, fun g0 hg n1 n2 => ?_⟩
          · exact SameButChan.trans (SameButChan.put _ _) b
          · rw [hx] at hg
            cases hg
            exact absurd hr.1 (by simp [n1, n2])
        · rw [gang?_modGang_ne t _ e] at i1 i2
          exact ⟨i1, i2⟩
      · exact ih t hl'
  obtain ⟨k1, k2⟩ := key (s.gangsOf (s.part fr)) s (fun x hx => mem_gangsOf hx)
  refine ⟨k1, fun g hg => ?_⟩
  obtain ⟨h, a, b, d⟩ := k2 g hg
  exact ⟨h, a, b, d g hg⟩

/-- A change of a core outside its context leaves every gang alone. -/
theorem gang?_modCore_ctx (s : State) (c : CoreId) (f : Core → Core) (h : ∀ k, (f k).ctx = k.ctx) (d : CoreId) (j : SlotId) :
    (s.modCore c f).gang? d j = s.gang? d j := by
  unfold State.gang? State.ctx State.modCore
  by_cases e : d = c
  · subst e; simp [h]
  · rw [State.core_setCore_ne s _ e]

/-- Publishing changes the channel state of gangs and nothing else of them. -/
theorem gang?_publish (s : State) (c : CoreId) (k : SlotId) (w : Word) (b : Bool) (d : CoreId) (j : SlotId) :
    (s.gang? d j = none → (s.publish c k w b).gang? d j = none) ∧
    (∀ g, s.gang? d j = some g → ∃ h, (s.publish c k w b).gang? d j = some h ∧ SameButChan g h) := by
  unfold State.publish
  split
  · exact ⟨fun h => h, fun g h => ⟨g, h, rfl⟩⟩
  · rename_i g0 h0
    split
    · let note (q : Core) : Core := q.noteSent (g0.channelAt c) ⟨w, g0.regs.pc, g0.chan.seq, s.now c, b, false⟩
      let sent (g : Gang) : Gang := { g with chan := { g.chan with done := some g0.regs.pc, seq := g0.chan.seq + 1 } }
      have noted (d : CoreId) (j : SlotId) : (s.modCore c note).gang? d j = s.gang? d j := gang?_modCore_ctx s c note (fun _ => rfl) d j
      obtain ⟨p1, p2⟩ := gang?_sendPacket ((s.modCore c note).setGang c k (sent g0)) (g0.channelAt c) c
        ⟨w, g0.regs.pc, g0.chan.seq, s.now c, b, false⟩ d j
      by_cases e : (d, j) = (c, k)
      · obtain ⟨rfl, rfl⟩ := Prod.mk.inj e
        refine ⟨fun h => absurd (h0.symm.trans h) (by simp), fun g h => ?_⟩
        rw [h0] at h; cases h
        obtain ⟨h', a, b', _⟩ := p2 _ (State.gang?_setGang_self _ _ _ _)
        exact ⟨h', a, SameButChan.trans (SameButChan.put _ _) b'⟩
      · have q : ((s.modCore c note).setGang c k (sent g0)).gang? d j = s.gang? d j := by
          have := gang?_modGang_ne (s.modCore c note) sent e
          rwa [State.modGang_some _ ((noted c k).trans h0), noted] at this
        rw [q] at p1 p2
        exact ⟨p1, fun g h => by obtain ⟨h', a, b', _⟩ := p2 g h; exact ⟨h', a, b'⟩⟩
    · exact ⟨fun h => h, fun g h => ⟨g, h, rfl⟩⟩

/-! Retiring. -/

/-- The gang after its instruction retires. -/
structure Retired (g g' : Gang) (pc : Option DWord) : Prop where
  regs   : g'.regs = { g.regs with pc := pc.getD (g.regs.pc + 4) }
  allot  : g'.allot = g.allot
  stack  : g'.stack = g.stack
  parked : g'.parked = g.parked
  save   : g'.save = g.save
  replay : g'.replay = g.replay
  priv   : g'.priv = g.priv
  status : g'.status = g.status
  tx     : g'.tx = g.tx
  q      : g'.q = g.q
  sel    : g'.sel = g.sel
  selIn  : g'.selIn = g.selIn
  yielded : g'.yielded = g.yielded
  ident  : g'.ident = g.ident
  held   : g'.held = g.held
  cnt    : g'.cnt = g.cnt.retire (g.regs.pkm != 0) g.hdr.persist

theorem gang?_modCtx_slots (s : State) (c : CoreId) (f : Ctx → Ctx) (h : ∀ x, (f x).slots = x.slots) (d : CoreId) (j : SlotId) :
    (s.modCtx c f).gang? d j = s.gang? d j := by
  unfold State.gang?
  by_cases e : d = c
  · subst e; simp [h]
  · rw [State.ctx_modCtx_ne s f e]

/-- Releasing held claims leaves every gang's other state alone. -/
theorem gang?_releaseHeld (s : State) (c : CoreId) (k : SlotId) (pc : DWord) {g : Gang} (h : s.gang? c k = some g) :
    ∃ p, (s.releaseHeld c k pc).gang? c k = some { g with heldClaims := p } := by
  unfold State.releaseHeld
  simp only [h]
  split
  · split
    · exact ⟨g.heldClaims, h⟩
    · refine ⟨none, ?_⟩
      have e := gang?_modCtx_slots (s.setGang c k { g with heldClaims := none }) c
        (fun x => { x with ops := x.ops.filter (fun o => !(o.slot == k && o.held)) }) (fun _ => rfl) c k
      rw [State.gang?_setGang_self] at e
      exact e
  · exact ⟨g.heldClaims, h⟩

/-- Retiring: the executing gang's registers stand but for PC, and its counts advance (08 R253). -/
theorem me?_retire {s : State} {g : Gang} (pc : Option DWord) (h : s.me? = some g) :
    ∃ g', s.meIn (s.retire pc) = some g' ∧ Retired g g' pc := by
  unfold State.retire
  simp only [h]
  generalize (pc.any (fun x => x != g.regs.pc + 4)) = taken
  obtain ⟨g1, h1, b1⟩ := (gang?_publish s s.cur.core s.cur.slot s.cur.word taken s.cur.core s.cur.slot).2 g h
  have c1 := (quiet_publish s s.cur.core s.cur.slot s.cur.word taken).cur
  obtain ⟨p, h2⟩ := gang?_releaseHeld _ s.cur.core s.cur.slot g.regs.pc h1
  have c2 := (quiet_releaseHeld (s.publish s.cur.core s.cur.slot s.cur.word taken) s.cur.core s.cur.slot g.regs.pc).cur.trans c1
  have hm : ((s.publish s.cur.core s.cur.slot s.cur.word taken).releaseHeld s.cur.core s.cur.slot g.regs.pc).me?
      = some { g1 with heldClaims := p } := by
    rw [State.me?_eq, c2, h2]
  simp only [hm]
  unfold State.meIn State.setMe
  rw [c2]
  refine ⟨_, State.gang?_setGang_self _ _ _ _, ?_⟩
  unfold SameButChan at b1
  generalize g1.chan = ch at b1
  subst b1
  constructor <;> (unfold Gang.popStream; split <;> rfl)

theorem meIn_setMe_retire (s : State) (g : Gang) (pc : Option DWord) :
    ∃ g', s.meIn ((s.setMe g).retire pc) = some g' ∧ Retired g g' pc := by
  obtain ⟨g', a, b⟩ := me?_retire (s := s.setMe g) pc (State.me?_setMe s g)
  exact ⟨g', a, b⟩

/-! Running a word. -/

/-- runFull under its conditions: the effect is completed. -/
theorem runFull_runs {s : State} {g : Gang} {need : Priv} {vs : List Nat} (h : Runs s g need vs) (window : Bool)
    (hw : window = true → g.partner.isSome = true) (body : State → Gang → Res) :
    runFull need vs window body s = .next (s.complete (fun s => match s.me? with
      | some g => body s g
      | none => .gone s)) := by
  have a : (vs.any (fun v => decide (g.vLimit ≤ v)) || (window && g.partner.isNone)) = false := by
    rw [Bool.or_eq_false_iff]
    refine ⟨?_, ?_⟩
    · rw [List.any_eq_false]
      intro v hv
      have := h.allot v hv
      simp only [decide_eq_true_eq]
      omega
    · cases window with
      | false => rfl
      | true => simp [Option.isSome_iff_ne_none] at hw ⊢; exact hw
  unfold runFull
  simp only [h.me, h.status, h.priv, a]
  simp

/-- A word that is done. -/
theorem runFull_done {s t : State} {g : Gang} {need : Priv} {window : Bool} {vs : List Nat} (h : Runs s g need vs)
    {body : State → Gang → Res} (hb : body s g = .done t)
    (hw : window = true → g.partner.isSome = true := by simp) : runFull need vs window body s = .next (t.retire none) := by
  rw [runFull_runs h window hw]
  simp [State.complete, h.me, hb, State.settle]

/-- A word that jumps. -/
theorem runFull_jump {s t : State} {g : Gang} {need : Priv} {window : Bool} {vs : List Nat} {pc : DWord} (h : Runs s g need vs)
    {body : State → Gang → Res} (hb : body s g = .jump t pc)
    (hw : window = true → g.partner.isSome = true := by simp) : runFull need vs window body s = .next (t.retire (some pc)) := by
  rw [runFull_runs h window hw]
  simp [State.complete, h.me, hb, State.settle]

/-- A word that waits. -/
theorem runFull_wait {s t : State} {g : Gang} {need : Priv} {window : Bool} {vs : List Nat} {w : Why} (h : Runs s g need vs)
    {body : State → Gang → Res} (hb : body s g = .wait t w)
    (hw : window = true → g.partner.isSome = true := by simp) : runFull need vs window body s = .next (t.waitMe w) := by
  rw [runFull_runs h window hw]
  simp [State.complete, h.me, hb, State.settle]

/-- A word after which the gang is no longer at it. -/
theorem runFull_gone {s t : State} {g : Gang} {need : Priv} {window : Bool} {vs : List Nat} (h : Runs s g need vs)
    {body : State → Gang → Res} (hb : body s g = .gone t)
    (hw : window = true → g.partner.isSome = true := by simp) : runFull need vs window body s = .next t := by
  rw [runFull_runs h window hw]
  simp [State.complete, h.me, hb, State.settle]

/-- A word that takes a gang-wide fault. -/
theorem runFull_fault {s : State} {g : Gang} {need : Priv} {window : Bool} {vs : List Nat} {f : Flt} (h : Runs s g need vs)
    {body : State → Gang → Res} (hb : body s g = .fault f)
    (hw : window = true → g.partner.isSome = true := by simp) : runFull need vs window body s = .next (s.faults g f) := by
  rw [runFull_runs h window hw]
  simp [State.complete, h.me, hb, State.settle, State.faults]

theorem runGang_done {s : State} {g g' : Gang} {vs : List VReg} (h : Runs s g .u (vs.map BitVec.toNat))
    {body : Gang → GRes} (hb : body g = .done g') : runGang vs body s = .next (s.retires g') :=
  runFull_done h (by simp [hb])

theorem runGang_jump {s : State} {g g' : Gang} {vs : List VReg} {pc : DWord} (h : Runs s g .u (vs.map BitVec.toNat))
    {body : Gang → GRes} (hb : body g = .jump g' pc) : runGang vs body s = .next (s.jumps g' pc) :=
  runFull_jump h (by simp [hb])

theorem runGang_fault {s : State} {g : Gang} {vs : List VReg} {f : Flt} (h : Runs s g .u (vs.map BitVec.toNat))
    {body : Gang → GRes} (hb : body g = .fault f) : runGang vs body s = .next (s.faults g f) :=
  runFull_fault h (by simp [hb])

/-- Everything runFull can answer. -/
theorem runFull_cases {s : State} {need : Priv} {vs : List Nat} {window : Bool} {body : State → Gang → Res}
    {o : Host.Outcome State Fault Refusal} (h : runFull need vs window body s = o) :
    (o = .fault .noGang ∧ ∀ g, s.me? = some g → g.status ≠ .running) ∨
    ∃ g, s.me? = some g ∧ g.status = .running ∧
      ((need.le g.priv = false ∧
          o = .next (s.freeze s.cur.core s.cur.slot (flt .privilege) g.active s.cur.word)) ∨
       (need.le g.priv = true ∧ (vs.any (fun v => decide (g.vLimit ≤ v)) || (window && g.partner.isNone)) = true ∧
          o = .next (s.freeze s.cur.core s.cur.slot (flt .illegal) g.active s.cur.word)) ∨
       (Runs s g need vs ∧ o = .next (s.complete (fun s => match s.me? with
          | some g => body s g
          | none => .gone s)))) := by
  subst h
  unfold runFull
  split
  · rename_i e
    exact .inl ⟨rfl, fun g h => by rw [e] at h; cases h⟩
  · rename_i g e
    split
    · rename_i h
      exact .inl ⟨rfl, fun g' h' => by rw [e] at h'; cases h'; exact h⟩
    · rename_i h
      have h : g.status = .running := by simpa using h
      refine .inr ⟨g, e, h, ?_⟩
      split
      · rename_i hp
        exact .inl ⟨hp, rfl⟩
      · rename_i hp
        have hp : need.le g.priv = true := by simpa using hp
        split
        · rename_i hv
          exact .inr (.inl ⟨hp, hv, rfl⟩)
        · rename_i hv
          refine .inr (.inr ⟨⟨e, h, hp, ?_⟩, rfl⟩)
          intro v hv'
          simp only [Bool.or_eq_true, not_or, List.any_eq_true, not_exists, not_and, decide_eq_true_eq] at hv
          have := hv.1 v hv'
          omega

/-- A word never refuses, and stops only where no running gang stands. -/
theorem runFull_next {s : State} {g : Gang} (need : Priv) (vs : List Nat) (window : Bool) (body : State → Gang → Res)
    (h : s.me? = some g) (hr : g.status = .running) : ∃ t, runFull need vs window body s = .next t := by
  rcases runFull_cases (o := runFull need vs window body s) rfl with ⟨-, n⟩ | ⟨_, _, _, a | a | a⟩
  · exact absurd hr (n g h)
  · exact ⟨_, a.2⟩
  · exact ⟨_, a.2.2⟩
  · exact ⟨_, a.2⟩

/-- Raising a packet leaves every gang alone. -/
theorem gang?_raisePacket (s : State) (c : CoreId) (k : SlotId) (r : FaultRec) (d : CoreId) (j : SlotId) :
    (s.raisePacket c k r).gang? d j = s.gang? d j := by
  unfold State.raisePacket
  cases s.gang? c k with
  | none => rfl
  | some g => apply gang?_modCtx_slots; exact fun _ => rfl

/-- Counting a fault leaves every core as it is. -/
theorem cores_cause (s : State) (n : Fin 4) (b : Nat) : (s.cause n b).cores = s.cores := by
  unfold State.cause
  dsimp only
  split <;> rfl

theorem cores_fleet (s : State) (p : Option (Fin 4)) : (s.fleet p).cores = s.cores := by
  unfold State.fleet
  cases p <;> dsimp only <;> split <;> simp only [cores_cause]

theorem cores_countFault (s : State) (c : CoreId) (f : Flt) : (s.countFault c f).cores = s.cores := by
  unfold State.countFault
  split
  · rw [cores_fleet]; rfl
  · rfl

theorem gang?_countFault (s : State) (c : CoreId) (f : Flt) (d : CoreId) (j : SlotId) :
    (s.countFault c f).gang? d j = s.gang? d j := by
  simp [State.gang?, State.ctx, State.core, cores_countFault]

/-- Freezing leaves the gang frozen with its code; but for the open transactions, which abort, its registers stand (01 R30). -/
theorem gang?_freeze {s : State} {c : CoreId} {k : SlotId} {g : Gang} (f : Flt) (l : Mask) (w : Word) (h : s.gang? c k = some g) :
    ∃ g', (s.freeze c k f l w).gang? c k = some g' ∧ g'.status = .frozen ∧ g'.fcode = f.code ∧
      ∃ g1, (g1 = if g.tx.active then g.abortAll 4 f.code.num else g) ∧ g'.regs = g1.regs ∧ g'.stack = g1.stack ∧
        g'.tx = g1.tx ∧ g'.parked = g1.parked ∧ g'.priv = g1.priv ∧ g'.allot = g1.allot := by
  unfold State.freeze
  rw [gang?_countFault]
  unfold State.halt
  simp only [h]
  generalize (if g.tx.active = true then g.abortAll 4 f.code.num else g) = g1
  rw [gang?_raisePacket, State.gang?_setGang_self]
  exact ⟨_, rfl, rfl, rfl, g1, rfl, rfl, rfl, rfl, rfl, rfl, rfl⟩

end Sys2Proof.Machine
end

