-- ==== Sys2Proof/Laws/Log.lean ====
section
/-! SUPPORT. What the event log, a hold that ends and a window's late writes can do, said once. -/

namespace Sys2Proof.Machine

/-! Logging writes Fount's log and nothing else. -/

@[simp] theorem State.logAdd_cores (s : State) (k : Nat) (m n : Byte) (d : List Byte) : (s.logAdd k m n d).cores = s.cores := rfl
@[simp] theorem State.logAdd_parts (s : State) (k : Nat) (m n : Byte) (d : List Byte) : (s.logAdd k m n d).parts = s.parts := rfl
@[simp] theorem State.logAdd_dies (s : State) (k : Nat) (m n : Byte) (d : List Byte) : (s.logAdd k m n d).dies = s.dies := rfl
@[simp] theorem State.logAdd_funcs (s : State) (k : Nat) (m n : Byte) (d : List Byte) : (s.logAdd k m n d).funcs = s.funcs := rfl
@[simp] theorem State.logAdd_seq (s : State) (k : Nat) (m n : Byte) (d : List Byte) :
    (s.logAdd k m n d).fount.logSeq = s.fount.logSeq + 1 := rfl

theorem quiet_logAdd (s : State) (k : Nat) (m n : Byte) (d : List Byte) : Quiet s (s.logAdd k m n d) := ⟨rfl, rfl, fun _ => rfl, rfl⟩

theorem quiet_logEnded (s : State) (c : CoreId) (m : Byte) (act : Nat) (l : List (SlotId × Nat)) : Quiet s (s.logEnded c m act l) :=
  quiet_foldl _ (fun s _ => quiet_logAdd s ..) l s

theorem quiet_endHolds (s : State) (n : Fin 4) : Quiet s (s.endHolds n) :=
  quiet_foldl _ (fun s _ => quiet_logAdd s ..) _ s

theorem quiet_setCopy (s : State) (c : CoreId) (n : Nat) (y : Copy) : Quiet s (s.setCopy c n y) := quiet_modCtx _ _ _ (fun _ => rfl)

/-- A hold that ends leaves memory alone. -/
theorem quiet_release (s : State) (c : CoreId) (k : SlotId) (n : Option Nat) (m : Byte) (act : Nat) : Quiet s (s.release c k n m act) := by
  unfold State.release
  split
  · split
    · exact (quiet_modGang ..).trans (quiet_logAdd ..)
    · exact .refl s
  · split
    · exact (quiet_setCopy ..).trans (quiet_logAdd ..)
    · exact .refl s

/-! A window's late writes. -/

/-- A gang with none is left as it is. -/
theorem State.windowLate_none {s : State} {c : CoreId} {k : SlotId} {g : Gang} (h : s.gang? c k = some g) (e : g.late = []) :
    s.windowLate c k = s.setGang c k g := by
  unfold State.windowLate
  rw [State.modGang_some _ h, if_pos e]

theorem quiet_windowLate (s : State) (c : CoreId) (k : SlotId) : Quiet s (s.windowLate c k) := quiet_modGang ..

/-! What stops the lanes of an access. -/

/-- Whether the lanes stop does not depend on the granules that are lost. -/
theorem State.laneStops_none (s : State) (ts : List (Fin 32 × LaneRes)) (lost : List (Fin 32 × Flt)) :
    s.laneStops ts lost = none ↔ s.laneStops ts = none := by
  unfold State.laneStops
  split
  · split <;> simp
  · rfl

/-- Lanes whose targets all stand do not stop. -/
theorem State.laneStops_stand {s : State} {ts : List (Fin 32 × LaneRes)} (hf : ∀ t ∈ ts, t.2.fault? = none) (hm : ∀ t ∈ ts, t.2.moving? = none)
    (lost : List (Fin 32 × Flt)) : s.laneStops ts lost = none := by
  have a : ts.filterMap (fun t => t.2.fault?.map (fun f => (t.1, f))) = [] := List.filterMap_eq_nil_iff.mpr (fun t ht => by rw [hf t ht]; rfl)
  have b : ts.filterMap (fun t => t.2.moving?) = [] := List.filterMap_eq_nil_iff.mpr hm
  unfold State.laneStops
  rw [a, b]

end Sys2Proof.Machine
end

