-- ==== Sys2Proof/Laws/PerInstr.lean ====
section
/-! SUPPORT. Facts about every instruction as syntax, one lemma per constructor: its word has 32 bits (07 R205). -/

namespace Sys2Proof.Laws

theorem AluOp.code_lt (x : AluOp) : x.code < 32 := by cases x <;> decide
theorem CmpOp.code_lt (x : CmpOp) : x.code < 16 := by cases x <;> decide
theorem VredKind.code_lt (x : VredKind) : x.code < 16 := by cases x <;> decide
theorem VscanKind.code_lt (x : VscanKind) : x.code < 16 := by cases x <;> decide
theorem VoteKind.code_lt (x : VoteKind) : x.code < 4 := by cases x <;> decide
theorem PlogOp.code_lt (x : PlogOp) : x.code < 8 := by cases x <;> decide
theorem FopOp.code_lt (x : FopOp) : x.code < 16 := by cases x <;> decide
theorem FmaOp.code_lt (x : FmaOp) : x.code < 4 := by cases x <;> decide
theorem FcmpOp.code_lt (x : FcmpOp) : x.code < 8 := by cases x <;> decide
theorem CvtTy.code_lt (x : CvtTy) : x.code < 16 := by cases x <;> decide
theorem ModeField.code_lt (x : ModeField) : x.code < 8 := by cases x <;> decide
theorem Scope.code_lt (x : Scope) : x.code < 8 := by cases x <;> decide
theorem FenceKind.code_lt (x : FenceKind) : x.code < 4 := by cases x <;> decide
theorem Size.code_lt (x : Size) : x.code < 8 := by cases x <;> decide
theorem LoadQ.code_lt (x : LoadQ) : x.code < 4 := by cases x <;> decide
theorem StoreQ.code_lt (x : StoreQ) : x.code < 4 := by cases x <;> decide
theorem AtomOp.code_lt (x : AtomOp) : x.code < 8 := by cases x <;> decide
theorem AtomQ.code_lt (x : AtomQ) : x.code < 8 := by cases x <;> decide
theorem CapField.code_lt (x : CapField) : x.code < 8 := by cases x <;> decide
theorem Counter.code_lt (x : Counter) : x.code < 4 := by cases x <;> decide

theorem wordA_lt {op d a b x : Nat} (hop : op < 256) (hd : d < 64) (ha : a < 64) (hb : b < 64) (hx : x < 64) :
    wordA op d a b x < 2 ^ 32 := by unfold wordA; omega
theorem wordB_lt {op d a imm : Nat} (hop : op < 256) (hd : d < 64) (ha : a < 64) (himm : imm < 4096) :
    wordB op d a imm < 2 ^ 32 := by unfold wordB; omega
theorem wordD_lt {op d cap idx am sz q : Nat} (hop : op < 256) (hd : d < 64) (hcap : cap < 16) (hidx : idx < 64) (ham : am < 4) (hsz : sz < 8) (hq : q < 8) :
    wordD op d cap idx am sz q < 2 ^ 32 := by unfold wordD; omega
theorem wordE_lt {op q s t f : Nat} (hop : op < 256) (hq : q < 16) (hs : s < 64) (ht : t < 64) (hf : f < 256) :
    wordE op q s t f < 2 ^ 32 := by unfold wordE; omega
theorem wordF_lt {op sub a b : Nat} (hop : op < 256) (hsub : sub < 256) (ha : a < 256) (hb : b < 256) :
    wordF op sub a b < 2 ^ 32 := by unfold wordF; omega
theorem wordC_lt {op : Nat} (h : op < 256) (c : Cond) (off : BitVec 20) : wordC op c off < 2 ^ 32 := by
  have := Bool.toNat_le c.neg
  unfold wordC; omega
theorem wordVM_lt {op d q : Nat} (ho : op < 256) (hd : d < 64) (m : VMem) (sz : Size) (hq : q < 8) : wordVM op d m sz q < 2 ^ 32 :=
  wordD_lt ho hd (by omega) (by omega) (by omega) (Size.code_lt sz) hq
theorem wordSM_lt {op d sz q : Nat} (ho : op < 256) (hd : d < 64) (m : SMem) (hz : sz < 8) (hq : q < 8) : wordSM op d m sz q < 2 ^ 32 :=
  wordD_lt ho hd (by omega) (by omega) (by omega) hz hq
theorem wordCpy_lt {op : Nat} (ho : op < 256) (s : VReg) (dst src : CReg) (cm sk : Bool) : wordCpy op s dst src cm sk < 2 ^ 32 := by
  have := Bool.toNat_le cm
  have := Bool.toNat_le sk
  exact wordE_lt ho (by omega) (by omega) (by omega) (by omega)
theorem wordBits_lt {op : Nat} (ho : op < 256) (cap : CReg) (d : VReg) (ba : BaReg) (w1 : BitVec 5) (inc : Bool) :
    wordBits op cap d ba w1 inc < 2 ^ 32 := by
  have := Bool.toNat_le inc
  exact wordE_lt ho (by omega) (by omega) (by omega) (by omega)
theorem wordTile_lt {op n a b : Nat} (ho : op < 256) (t : TileNo) (hn : n < 32) (ha : a < 256) (hb : b < 256) : wordTile op t n a b < 2 ^ 32 :=
  wordF_lt ho (by omega) ha hb
namespace Word32

/-- The word of the instruction has 32 bits. -/
def Statement (i : Instr) : Prop := encodeNat i < 2 ^ 32

theorem br (c : Cond) (off : BitVec 20) : Statement (.br c off) :=
  wordC_lt (by decide) _ _
theorem brany (c : Cond) (off : BitVec 20) : Statement (.brany c off) :=
  wordC_lt (by decide) _ _
theorem brall (c : Cond) (off : BitVec 20) : Statement (.brall c off) :=
  wordC_lt (by decide) _ _
theorem brnone (c : Cond) (off : BitVec 20) : Statement (.brnone c off) :=
  wordC_lt (by decide) _ _
theorem call (off : BitVec 20) : Statement (.call off) :=
  wordC_lt (by decide) _ _
theorem jmp (a : SReg) : Statement (.jmp a) :=
  wordF_lt (by decide) (by omega) (by omega) (by omega)
theorem callr (a : SReg) : Statement (.callr a) :=
  wordF_lt (by decide) (by omega) (by omega) (by omega)
theorem ret : Statement (.ret) :=
  wordF_lt (by decide) (by omega) (by omega) (by omega)
theorem if_ (c : Cond) (off : BitVec 20) : Statement (.if_ c off) :=
  wordC_lt (by decide) _ _
theorem else_ (off : BitVec 20) : Statement (.else_ off) :=
  wordC_lt (by decide) _ _
theorem endif : Statement (.endif) :=
  wordF_lt (by decide) (by omega) (by omega) (by omega)
theorem loop (off : BitVec 20) : Statement (.loop off) :=
  wordC_lt (by decide) _ _
theorem endloop (c : Cond) (off : BitVec 20) : Statement (.endloop c off) :=
  wordC_lt (by decide) _ _
theorem break_ (c : Cond) (off : BitVec 20) : Statement (.break_ c off) :=
  wordC_lt (by decide) _ _
theorem cont (c : Cond) (off : BitVec 20) : Statement (.cont c off) :=
  wordC_lt (by decide) _ _
theorem conv : Statement (.conv) :=
  wordF_lt (by decide) (by omega) (by omega) (by omega)
theorem exit : Statement (.exit) :=
  wordF_lt (by decide) (by omega) (by omega) (by omega)
theorem gangEnd (core : CoreId) (slot : SlotId) : Statement (.gangEnd core slot) := show 0 < 2 ^ 32 by decide
theorem yield : Statement (.yield) :=
  wordF_lt (by decide) (by omega) (by omega) (by omega)
theorem nop : Statement (.nop) :=
  wordF_lt (by decide) (by omega) (by omega) (by omega)
theorem setmode (a : SReg) : Statement (.setmode a) :=
  wordF_lt (by decide) (by omega) (by omega) (by omega)
theorem getmode (a : SReg) : Statement (.getmode a) :=
  wordF_lt (by decide) (by omega) (by omega) (by omega)
theorem setfs (a : SReg) : Statement (.setfs a) :=
  wordF_lt (by decide) (by omega) (by omega) (by omega)
theorem getfs (a : SReg) : Statement (.getfs a) :=
  wordF_lt (by decide) (by omega) (by omega) (by omega)
theorem setmf (f : ModeField) (imm : BitVec 12) : Statement (.setmf f imm) := by
  have := ModeField.code_lt f
  exact wordB_lt (by decide) (by omega) (by omega) (by omega)
theorem publish : Statement (.publish) :=
  wordF_lt (by decide) (by omega) (by omega) (by omega)
theorem unpublish : Statement (.unpublish) :=
  wordF_lt (by decide) (by omega) (by omega) (by omega)
theorem subscribe (a : SReg) (b : SReg) : Statement (.subscribe a b) :=
  wordF_lt (by decide) (by omega) (by omega) (by omega)
theorem subscribeRegistration (core : CoreId) (slot : SlotId) : Statement (.subscribeRegistration core slot) := show 0 < 2 ^ 32 by decide
theorem unsub (c : Cond) : Statement (.unsub c) :=
  wordC_lt (by decide) _ _
theorem resub (a : SReg) (b : SReg) : Statement (.resub a b) :=
  wordF_lt (by decide) (by omega) (by omega) (by omega)
theorem rendez (tag : BitVec 16) : Statement (.rendez tag) := by
  show wordB _ _ _ _ < 2 ^ 32
  unfold wordB; omega
theorem chstat (a : SReg) : Statement (.chstat a) :=
  wordF_lt (by decide) (by omega) (by omega) (by omega)
theorem streamPacketEntry (core : CoreId) (slot : SlotId) : Statement (.streamPacketEntry core slot) := show 0 < 2 ^ 32 by decide
theorem publisherHold (core : CoreId) : Statement (.publisherHold core) := show 0 < 2 ^ 32 by decide
theorem fence (kind : FenceKind) (scope : Option Scope) : Statement (.fence kind scope) := by
  have := FenceKind.code_lt kind
  cases scope with
  | none => exact wordF_lt (by decide) (by omega) (by omega) (by omega)
  | some v => have := Scope.code_lt v; exact wordF_lt (by decide) (by omega) (by omega) (by omega)
theorem fenceComplete (core : CoreId) (slot : SlotId) : Statement (.fenceComplete core slot) := show 0 < 2 ^ 32 by decide
theorem xfence (from_ : BitVec 4) (to_ : BitVec 4) : Statement (.xfence from_ to_) :=
  wordF_lt (by decide) (by omega) (by omega) (by omega)
theorem xfenceComplete (core : CoreId) (slot : SlotId) : Statement (.xfenceComplete core slot) := show 0 < 2 ^ 32 by decide
theorem barwtRelease (core : CoreId) (slot : SlotId) : Statement (.barwtRelease core slot) := show 0 < 2 ^ 32 by decide
theorem feset (a : CReg) : Statement (.feset a) :=
  wordF_lt (by decide) (by omega) (by omega) (by omega)
theorem feclr (a : CReg) : Statement (.feclr a) :=
  wordF_lt (by decide) (by omega) (by omega) (by omega)
theorem fewait (a : CReg) : Statement (.fewait a) :=
  wordF_lt (by decide) (by omega) (by omega) (by omega)
theorem fewaitComplete (core : CoreId) (slot : SlotId) : Statement (.fewaitComplete core slot) := show 0 < 2 ^ 32 by decide
theorem wmset (ch : BitVec 4) (a : SReg) (b : SReg) : Statement (.wmset ch a b) :=
  wordA_lt (by decide) (by omega) (by omega) (by omega) (by omega)
theorem wmwait (ch : BitVec 4) (a : SReg) : Statement (.wmwait ch a) :=
  wordA_lt (by decide) (by omega) (by omega) (by omega) (by omega)
theorem wmwaitComplete (core : CoreId) (slot : SlotId) : Statement (.wmwaitComplete core slot) := show 0 < 2 ^ 32 by decide
theorem watermarkLoadRelease (core : CoreId) (slot : SlotId) : Statement (.watermarkLoadRelease core slot) := show 0 < 2 ^ 32 by decide
theorem vop (op : AluOp) (d : VReg) (a : VReg) (b : VReg) : Statement (.vop op d a b) := by
  have := AluOp.code_lt op
  exact wordA_lt (by decide) (by omega) (by omega) (by omega) (by omega)
theorem vops (op : AluOp) (d : VReg) (a : VReg) (b : SReg) : Statement (.vops op d a b) := by
  have := AluOp.code_lt op
  exact wordA_lt (by decide) (by omega) (by omega) (by omega) (by omega)
theorem addImmV (d : VReg) (a : VReg) (imm : BitVec 12) : Statement (.addImmV d a imm) :=
  wordB_lt (by decide) (by omega) (by omega) (by omega)
theorem mulImmV (d : VReg) (a : VReg) (imm : BitVec 12) : Statement (.mulImmV d a imm) :=
  wordB_lt (by decide) (by omega) (by omega) (by omega)
theorem andImmV (d : VReg) (a : VReg) (imm : BitVec 12) : Statement (.andImmV d a imm) :=
  wordB_lt (by decide) (by omega) (by omega) (by omega)
theorem orImmV (d : VReg) (a : VReg) (imm : BitVec 12) : Statement (.orImmV d a imm) :=
  wordB_lt (by decide) (by omega) (by omega) (by omega)
theorem xorImmV (d : VReg) (a : VReg) (imm : BitVec 12) : Statement (.xorImmV d a imm) :=
  wordB_lt (by decide) (by omega) (by omega) (by omega)
theorem shlImmV (d : VReg) (a : VReg) (imm : BitVec 8) : Statement (.shlImmV d a imm) :=
  wordB_lt (by decide) (by omega) (by omega) (by omega)
theorem shrImmV (d : VReg) (a : VReg) (imm : BitVec 8) : Statement (.shrImmV d a imm) :=
  wordB_lt (by decide) (by omega) (by omega) (by omega)
theorem sraImmV (d : VReg) (a : VReg) (imm : BitVec 8) : Statement (.sraImmV d a imm) :=
  wordB_lt (by decide) (by omega) (by omega) (by omega)
theorem vcmp (op : CmpOp) (d : PReg) (a : VReg) (b : VReg) : Statement (.vcmp op d a b) := by
  have := CmpOp.code_lt op
  exact wordA_lt (by decide) (by omega) (by omega) (by omega) (by omega)
theorem vcmps (op : CmpOp) (d : PReg) (a : VReg) (b : SReg) : Statement (.vcmps op d a b) := by
  have := CmpOp.code_lt op
  exact wordA_lt (by decide) (by omega) (by omega) (by omega) (by omega)
theorem sel (d : VReg) (a : VReg) (b : VReg) (p : PReg) : Statement (.sel d a b p) :=
  wordA_lt (by decide) (by omega) (by omega) (by omega) (by omega)
theorem mad (d : VReg) (a : VReg) (b : VReg) : Statement (.mad d a b) :=
  wordA_lt (by decide) (by omega) (by omega) (by omega) (by omega)
theorem dot2 (d : VReg) (a : VReg) (b : VReg) : Statement (.dot2 d a b) :=
  wordA_lt (by decide) (by omega) (by omega) (by omega) (by omega)
theorem dot4 (d : VReg) (a : VReg) (b : VReg) : Statement (.dot4 d a b) :=
  wordA_lt (by decide) (by omega) (by omega) (by omega) (by omega)
theorem sop (op : AluOp) (d : SReg) (a : SReg) (b : SReg) : Statement (.sop op d a b) := by
  have := AluOp.code_lt op
  exact wordA_lt (by decide) (by omega) (by omega) (by omega) (by omega)
theorem addImmS (d : SReg) (a : SReg) (imm : BitVec 12) : Statement (.addImmS d a imm) :=
  wordB_lt (by decide) (by omega) (by omega) (by omega)
theorem mulImmS (d : SReg) (a : SReg) (imm : BitVec 12) : Statement (.mulImmS d a imm) :=
  wordB_lt (by decide) (by omega) (by omega) (by omega)
theorem andImmS (d : SReg) (a : SReg) (imm : BitVec 12) : Statement (.andImmS d a imm) :=
  wordB_lt (by decide) (by omega) (by omega) (by omega)
theorem orImmS (d : SReg) (a : SReg) (imm : BitVec 12) : Statement (.orImmS d a imm) :=
  wordB_lt (by decide) (by omega) (by omega) (by omega)
theorem xorImmS (d : SReg) (a : SReg) (imm : BitVec 12) : Statement (.xorImmS d a imm) :=
  wordB_lt (by decide) (by omega) (by omega) (by omega)
theorem shlImmS (d : SReg) (a : SReg) (imm : BitVec 8) : Statement (.shlImmS d a imm) :=
  wordB_lt (by decide) (by omega) (by omega) (by omega)
theorem shrImmS (d : SReg) (a : SReg) (imm : BitVec 8) : Statement (.shrImmS d a imm) :=
  wordB_lt (by decide) (by omega) (by omega) (by omega)
theorem sraImmS (d : SReg) (a : SReg) (imm : BitVec 8) : Statement (.sraImmS d a imm) :=
  wordB_lt (by decide) (by omega) (by omega) (by omega)
theorem lil (d : SReg) (imm : BitVec 16) : Statement (.lil d imm) := by
  show wordB _ _ _ _ < 2 ^ 32
  unfold wordB; omega
theorem lih (d : SReg) (imm : BitVec 16) (k : BitVec 2) : Statement (.lih d imm k) := by
  show wordB _ _ _ _ < 2 ^ 32
  unfold wordB; omega
theorem scmp (op : CmpOp) (d : PReg) (a : SReg) (b : SReg) : Statement (.scmp op d a b) := by
  have := CmpOp.code_lt op
  exact wordA_lt (by decide) (by omega) (by omega) (by omega) (by omega)
theorem shfl (d : VReg) (a : VReg) (b : VReg) : Statement (.shfl d a b) :=
  wordA_lt (by decide) (by omega) (by omega) (by omega) (by omega)
theorem shflUp (d : VReg) (a : VReg) (b : SReg) : Statement (.shflUp d a b) :=
  wordA_lt (by decide) (by omega) (by omega) (by omega) (by omega)
theorem shflDown (d : VReg) (a : VReg) (b : SReg) : Statement (.shflDown d a b) :=
  wordA_lt (by decide) (by omega) (by omega) (by omega) (by omega)
theorem shflXor (d : VReg) (a : VReg) (b : SReg) : Statement (.shflXor d a b) :=
  wordA_lt (by decide) (by omega) (by omega) (by omega) (by omega)
theorem shflBcast (d : VReg) (a : VReg) (b : SReg) : Statement (.shflBcast d a b) :=
  wordA_lt (by decide) (by omega) (by omega) (by omega) (by omega)
theorem vred (k : VredKind) (d : SReg) (a : VReg) : Statement (.vred k d a) := by
  have := VredKind.code_lt k
  exact wordA_lt (by decide) (by omega) (by omega) (by omega) (by omega)
theorem vscan (k : VscanKind) (d : VReg) (a : VReg) : Statement (.vscan k d a) := by
  have := VscanKind.code_lt k
  exact wordA_lt (by decide) (by omega) (by omega) (by omega) (by omega)
theorem vote (k : VoteKind) (d : SReg) (a : PReg) : Statement (.vote k d a) := by
  have := VoteKind.code_lt k
  exact wordA_lt (by decide) (by omega) (by omega) (by omega) (by omega)
theorem plog (op : PlogOp) (d : PReg) (a : PReg) (b : PReg) : Statement (.plog op d a b) := by
  have := PlogOp.code_lt op
  exact wordA_lt (by decide) (by omega) (by omega) (by omega) (by omega)
theorem ptos (d : SReg) (a : PReg) : Statement (.ptos d a) :=
  wordA_lt (by decide) (by omega) (by omega) (by omega) (by omega)
theorem pfroms (d : PReg) (a : SReg) : Statement (.pfroms d a) :=
  wordA_lt (by decide) (by omega) (by omega) (by omega) (by omega)
theorem setexm (a : SReg) : Statement (.setexm a) :=
  wordA_lt (by decide) (by omega) (by omega) (by omega) (by omega)
theorem getexm (d : SReg) : Statement (.getexm d) :=
  wordA_lt (by decide) (by omega) (by omega) (by omega) (by omega)
theorem getpkm (d : SReg) : Statement (.getpkm d) :=
  wordA_lt (by decide) (by omega) (by omega) (by omega) (by omega)
theorem andexm (a : PReg) : Statement (.andexm a) :=
  wordA_lt (by decide) (by omega) (by omega) (by omega) (by omega)
theorem vtos (d : SReg) (a : VReg) (b : SReg) : Statement (.vtos d a b) :=
  wordA_lt (by decide) (by omega) (by omega) (by omega) (by omega)
theorem stov (d : VReg) (a : SReg) (b : SReg) : Statement (.stov d a b) :=
  wordA_lt (by decide) (by omega) (by omega) (by omega) (by omega)
theorem laneid (d : VReg) : Statement (.laneid d) :=
  wordA_lt (by decide) (by omega) (by omega) (by omega) (by omega)
theorem fop (op : FopOp) (d : VReg) (a : VReg) (b : VReg) : Statement (.fop op d a b) := by
  have := FopOp.code_lt op
  exact wordA_lt (by decide) (by omega) (by omega) (by omega) (by omega)
theorem fops (op : FopOp) (d : VReg) (a : VReg) (b : SReg) : Statement (.fops op d a b) := by
  have := FopOp.code_lt op
  exact wordA_lt (by decide) (by omega) (by omega) (by omega) (by omega)
theorem sfop (op : FopOp) (d : SReg) (a : SReg) (b : SReg) : Statement (.sfop op d a b) := by
  have := FopOp.code_lt op
  exact wordA_lt (by decide) (by omega) (by omega) (by omega) (by omega)
theorem fma (op : FmaOp) (d : VReg) (a : VReg) (b : VReg) : Statement (.fma op d a b) := by
  have := FmaOp.code_lt op
  exact wordA_lt (by decide) (by omega) (by omega) (by omega) (by omega)
theorem fmaVs (op : FmaOp) (d : VReg) (a : VReg) (b : SReg) : Statement (.fmaVs op d a b) := by
  have := FmaOp.code_lt op
  exact wordA_lt (by decide) (by omega) (by omega) (by omega) (by omega)
theorem fmaS (op : FmaOp) (d : SReg) (a : SReg) (b : SReg) : Statement (.fmaS op d a b) := by
  have := FmaOp.code_lt op
  exact wordA_lt (by decide) (by omega) (by omega) (by omega) (by omega)
theorem fcmp (op : FcmpOp) (d : PReg) (a : VReg) (b : VReg) : Statement (.fcmp op d a b) := by
  have := FcmpOp.code_lt op
  exact wordA_lt (by decide) (by omega) (by omega) (by omega) (by omega)
theorem fcmpS (op : FcmpOp) (d : PReg) (a : VReg) (b : SReg) : Statement (.fcmpS op d a b) := by
  have := FcmpOp.code_lt op
  exact wordA_lt (by decide) (by omega) (by omega) (by omega) (by omega)
theorem fclass (d : VReg) (b : VReg) : Statement (.fclass d b) :=
  wordA_lt (by decide) (by omega) (by omega) (by omega) (by omega)
theorem fcvt (target : CvtTy) (source : CvtTy) (d : VReg) (a : VReg) : Statement (.fcvt target source d a) := by
  have := CvtTy.code_lt target
  have := CvtTy.code_lt source
  exact wordF_lt (by decide) (by omega) (by omega) (by omega)
theorem fcvtS (target : CvtTy) (source : CvtTy) (d : SReg) (a : SReg) : Statement (.fcvtS target source d a) := by
  have := CvtTy.code_lt target
  have := CvtTy.code_lt source
  exact wordF_lt (by decide) (by omega) (by omega) (by omega)
theorem ld (d : VReg) (m : VMem) (sz : Size) (q : LoadQ) : Statement (.ld d m sz q) := by
  have := Size.code_lt sz
  have := LoadQ.code_lt q
  exact wordVM_lt (by decide) (by omega) _ _ (by omega)
theorem lds (d : VReg) (m : VMem) (sz : Size) (q : LoadQ) : Statement (.lds d m sz q) := by
  have := Size.code_lt sz
  have := LoadQ.code_lt q
  exact wordVM_lt (by decide) (by omega) _ _ (by omega)
theorem st (d : VReg) (m : VMem) (sz : Size) (q : StoreQ) : Statement (.st d m sz q) := by
  have := Size.code_lt sz
  have := StoreQ.code_lt q
  exact wordVM_lt (by decide) (by omega) _ _ (by omega)
theorem sld (d : SReg) (m : SMem) (sz : Size) (q : LoadQ) : Statement (.sld d m sz q) := by
  have := Size.code_lt sz
  have := LoadQ.code_lt q
  exact wordSM_lt (by decide) (by omega) _ (by omega) (by omega)
theorem slds (d : SReg) (m : SMem) (sz : Size) (q : LoadQ) : Statement (.slds d m sz q) := by
  have := Size.code_lt sz
  have := LoadQ.code_lt q
  exact wordSM_lt (by decide) (by omega) _ (by omega) (by omega)
theorem sst (d : SReg) (m : SMem) (sz : Size) (q : StoreQ) : Statement (.sst d m sz q) := by
  have := Size.code_lt sz
  have := StoreQ.code_lt q
  exact wordSM_lt (by decide) (by omega) _ (by omega) (by omega)
theorem qualifiedLoadComplete (core : CoreId) (slot : SlotId) : Statement (.qualifiedLoadComplete core slot) := show 0 < 2 ^ 32 by decide
theorem ldc (d : CReg) (m : SMem) : Statement (.ldc d m) :=
  wordSM_lt (by decide) (by omega) _ (by omega) (by omega)
theorem stc (d : CReg) (m : SMem) : Statement (.stc d m) :=
  wordSM_lt (by decide) (by omega) _ (by omega) (by omega)
theorem ldb (cap : CReg) (d : VReg) (ba : BaReg) (w1 : BitVec 5) (inc : Bool) : Statement (.ldb cap d ba w1 inc) := by
  have := Bool.toNat_le inc
  exact wordBits_lt (by decide) _ _ _ _ _
theorem stb (cap : CReg) (d : VReg) (ba : BaReg) (w1 : BitVec 5) (inc : Bool) : Statement (.stb cap d ba w1 inc) := by
  have := Bool.toNat_le inc
  exact wordBits_lt (by decide) _ _ _ _ _
theorem baset (k : BaReg) (b : SReg) : Statement (.baset k b) :=
  wordF_lt (by decide) (by omega) (by omega) (by omega)
theorem baget (k : BaReg) (b : SReg) : Statement (.baget k b) :=
  wordF_lt (by decide) (by omega) (by omega) (by omega)
theorem baadd (k : BaReg) (b : SReg) : Statement (.baadd k b) :=
  wordF_lt (by decide) (by omega) (by omega) (by omega)
theorem cinc (d : CReg) (a : CReg) (b : SReg) : Statement (.cinc d a b) :=
  wordA_lt (by decide) (by omega) (by omega) (by omega) (by omega)
theorem csetb (d : CReg) (a : CReg) (b : SReg) : Statement (.csetb d a b) :=
  wordA_lt (by decide) (by omega) (by omega) (by omega) (by omega)
theorem cperm (d : CReg) (a : CReg) (b : SReg) : Statement (.cperm d a b) :=
  wordA_lt (by decide) (by omega) (by omega) (by omega) (by omega)
theorem cget (f : CapField) (d : SReg) (a : CReg) : Statement (.cget f d a) := by
  have := CapField.code_lt f
  exact wordA_lt (by decide) (by omega) (by omega) (by omega) (by omega)
theorem cmov (d : CReg) (a : CReg) : Statement (.cmov d a) :=
  wordA_lt (by decide) (by omega) (by omega) (by omega) (by omega)
theorem objview (d : CReg) (a : CReg) (b : SReg) : Statement (.objview d a b) :=
  wordA_lt (by decide) (by omega) (by omega) (by omega) (by omega)
theorem objinfo (d : SReg) (a : CReg) (word : BitVec 3) : Statement (.objinfo d a word) :=
  wordA_lt (by decide) (by omega) (by omega) (by omega) (by omega)
theorem objres (d : SReg) (a : CReg) (b : SReg) : Statement (.objres d a b) :=
  wordA_lt (by decide) (by omega) (by omega) (by omega) (by omega)
theorem objsum (d : VReg) (a : CReg) (b : SReg) : Statement (.objsum d a b) :=
  wordA_lt (by decide) (by omega) (by omega) (by omega) (by omega)
theorem atom (op : AtomOp) (d : VReg) (m : VMem) (sz : Size) : Statement (.atom op d m sz) := by
  have := AtomOp.code_lt op
  have := Size.code_lt sz
  exact wordVM_lt (by decide) (by omega) _ _ (by omega)
theorem atomAcq (op : AtomOp) (d : VReg) (m : VMem) (sz : Size) : Statement (.atomAcq op d m sz) := by
  have := AtomOp.code_lt op
  have := Size.code_lt sz
  exact wordVM_lt (by decide) (by omega) _ _ (by omega)
theorem atomRel (op : AtomOp) (d : VReg) (m : VMem) (sz : Size) : Statement (.atomRel op d m sz) := by
  have := AtomOp.code_lt op
  have := Size.code_lt sz
  exact wordVM_lt (by decide) (by omega) _ _ (by omega)
theorem atomAr (op : AtomOp) (d : VReg) (m : VMem) (sz : Size) : Statement (.atomAr op d m sz) := by
  have := AtomOp.code_lt op
  have := Size.code_lt sz
  exact wordVM_lt (by decide) (by omega) _ _ (by omega)
theorem atomSc (op : AtomOp) (d : VReg) (m : VMem) (sz : Size) : Statement (.atomSc op d m sz) := by
  have := AtomOp.code_lt op
  have := Size.code_lt sz
  exact wordVM_lt (by decide) (by omega) _ _ (by omega)
theorem atomc (q : AtomQ) (d : VReg) (m : VMem) (sz : Size) : Statement (.atomc q d m sz) := by
  have := AtomQ.code_lt q
  have := Size.code_lt sz
  exact wordVM_lt (by decide) (by omega) _ _ (by omega)
theorem red (op : AtomOp) (d : VReg) (m : VMem) (sz : Size) : Statement (.red op d m sz) := by
  have := AtomOp.code_lt op
  have := Size.code_lt sz
  exact wordVM_lt (by decide) (by omega) _ _ (by omega)
theorem redRel (op : AtomOp) (d : VReg) (m : VMem) (sz : Size) : Statement (.redRel op d m sz) := by
  have := AtomOp.code_lt op
  have := Size.code_lt sz
  exact wordVM_lt (by decide) (by omega) _ _ (by omega)
theorem atomicPerform (core : CoreId) (n : Nat) : Statement (.atomicPerform core n) := show 0 < 2 ^ 32 by decide
theorem reductionPerform (core : CoreId) (n : Nat) : Statement (.reductionPerform core n) := show 0 < 2 ^ 32 by decide
theorem atomr (cap : CReg) (sr : VReg) (t : VReg) (slot : BitVec 6) : Statement (.atomr cap sr t slot) :=
  wordE_lt (by decide) (by omega) (by omega) (by omega) (by omega)
theorem txLogGrant (core : CoreId) : Statement (.txLogGrant core) := show 0 < 2 ^ 32 by decide
theorem txend (off : BitVec 20) : Statement (.txend off) :=
  wordC_lt (by decide) _ _
theorem irrevocableTokenGrant (part : Fin 4) : Statement (.irrevocableTokenGrant part) := show 0 < 2 ^ 32 by decide
theorem txabort (code : BitVec 8) : Statement (.txabort code) :=
  wordB_lt (by decide) (by omega) (by omega) (by omega)
theorem txstat (d : VReg) : Statement (.txstat d) :=
  wordA_lt (by decide) (by omega) (by omega) (by omega) (by omega)
theorem cpy (sr : VReg) (dst : CReg) (src : CReg) (cmpl : Bool) : Statement (.cpy sr dst src cmpl) := by
  have := Bool.toNat_le cmpl
  exact wordCpy_lt (by decide) _ _ _ _ _
theorem cpym (sr : VReg) (dst : CReg) (src : CReg) (cmpl : Bool) (skipdark : Bool) : Statement (.cpym sr dst src cmpl skipdark) := by
  have := Bool.toNat_le cmpl
  have := Bool.toNat_le skipdark
  exact wordCpy_lt (by decide) _ _ _ _ _
theorem cpyo (sr : VReg) (dst : CReg) (src : CReg) (cmpl : Bool) : Statement (.cpyo sr dst src cmpl) := by
  have := Bool.toNat_le cmpl
  exact wordCpy_lt (by decide) _ _ _ _ _
theorem gathe (sr : VReg) (dst : CReg) (src : CReg) (cmpl : Bool) : Statement (.gathe sr dst src cmpl) := by
  have := Bool.toNat_le cmpl
  exact wordCpy_lt (by decide) _ _ _ _ _
theorem scate (sr : VReg) (dst : CReg) (src : CReg) (cmpl : Bool) : Statement (.scate sr dst src cmpl) := by
  have := Bool.toNat_le cmpl
  exact wordCpy_lt (by decide) _ _ _ _ _
theorem cpycan (sr : SReg) : Statement (.cpycan sr) :=
  wordE_lt (by decide) (by omega) (by omega) (by omega) (by omega)
theorem copyChunk (core : CoreId) (cslot : Nat) : Statement (.copyChunk core cslot) := show 0 < 2 ^ 32 by decide
theorem copyChunkComplete (core : CoreId) (cslot : Nat) (dest : Nat) : Statement (.copyChunkComplete core cslot dest) := show 0 < 2 ^ 32 by decide
theorem selk (sr : VReg) (t : SReg) : Statement (.selk sr t) :=
  wordE_lt (by decide) (by omega) (by omega) (by omega) (by omega)
theorem selectInputConsume (core : CoreId) (slot : SlotId) : Statement (.selectInputConsume core slot) := show 0 < 2 ^ 32 by decide
theorem selres (d : VReg) : Statement (.selres d) :=
  wordE_lt (by decide) (by omega) (by omega) (by omega) (by omega)
theorem qpush (q : QReg) (a : VReg) : Statement (.qpush q a) :=
  wordA_lt (by decide) (by omega) (by omega) (by omega) (by omega)
theorem qpop (d : VReg) (q : QReg) : Statement (.qpop d q) :=
  wordA_lt (by decide) (by omega) (by omega) (by omega) (by omega)
theorem qstat (d : SReg) (q : QReg) : Statement (.qstat d q) :=
  wordA_lt (by decide) (by omega) (by omega) (by omega) (by omega)
theorem queueWake (core : CoreId) (slot : SlotId) : Statement (.queueWake core slot) := show 0 < 2 ^ 32 by decide
theorem send (sr : VReg) (t : SReg) : Statement (.send sr t) :=
  wordE_lt (by decide) (by omega) (by omega) (by omega) (by omega)
theorem inboxWaiterEntry (core : CoreId) : Statement (.inboxWaiterEntry core) := show 0 < 2 ^ 32 by decide
theorem waitmsgDelivery (core : CoreId) : Statement (.waitmsgDelivery core) := show 0 < 2 ^ 32 by decide
theorem ringmk (cap : CReg) (sr : SReg) (t : SReg) : Statement (.ringmk cap sr t) :=
  wordE_lt (by decide) (by omega) (by omega) (by omega) (by omega)
theorem ringdes (a : SReg) : Statement (.ringdes a) :=
  wordF_lt (by decide) (by omega) (by omega) (by omega)
theorem rpush (sr : VReg) (t : SReg) : Statement (.rpush sr t) :=
  wordE_lt (by decide) (by omega) (by omega) (by omega) (by omega)
theorem rpop (sr : VReg) (t : SReg) : Statement (.rpop sr t) :=
  wordE_lt (by decide) (by omega) (by omega) (by omega) (by omega)
theorem ringRequestApply (core : CoreId) (n : Nat) : Statement (.ringRequestApply core n) := show 0 < 2 ^ 32 by decide
theorem spawn (sr : VReg) : Statement (.spawn sr) :=
  wordE_lt (by decide) (by omega) (by omega) (by omega) (by omega)
theorem binTimerExpiry (die : Fin 4) (bin : BitVec 8) : Statement (.binTimerExpiry die bin) := show 0 < 2 ^ 32 by decide
theorem mma (t : TileNo) (n1 : BitVec 5) (f : VReg) (ca : CReg) (cb : CReg) : Statement (.mma t n1 f ca cb) :=
  wordTile_lt (by decide) _ (by omega) (by omega) (by omega)
theorem mmaS (t : TileNo) (n1 : BitVec 5) (f : VReg) (ca : CReg) (cb : CReg) : Statement (.mmaS t n1 f ca cb) :=
  wordTile_lt (by decide) _ (by omega) (by omega) (by omega)
theorem indexPassComplete (core : CoreId) (slot : SlotId) : Statement (.indexPassComplete core slot) := show 0 < 2 ^ 32 by decide
theorem matrixOpStart (core : CoreId) : Statement (.matrixOpStart core) := show 0 < 2 ^ 32 by decide
theorem matrixStep (core : CoreId) : Statement (.matrixStep core) := show 0 < 2 ^ 32 by decide
theorem mzero (t : TileNo) : Statement (.mzero t) :=
  wordTile_lt (by decide) _ (by omega) (by omega) (by omega)
theorem mload (t : TileNo) (c : CReg) (b : SReg) : Statement (.mload t c b) :=
  wordTile_lt (by decide) _ (by omega) (by omega) (by omega)
theorem mdrain (t : TileNo) (c : CReg) (b : SReg) : Statement (.mdrain t c b) :=
  wordTile_lt (by decide) _ (by omega) (by omega) (by omega)
theorem mdrainQ (t : TileNo) (b : SReg) : Statement (.mdrainQ t b) :=
  wordTile_lt (by decide) _ (by omega) (by omega) (by omega)
theorem drainQ11Push (core : CoreId) (slot : SlotId) : Statement (.drainQ11Push core slot) := show 0 < 2 ^ 32 by decide
theorem mstat (t : TileNo) (a : SReg) : Statement (.mstat t a) :=
  wordTile_lt (by decide) _ (by omega) (by omega) (by omega)
theorem mwait (t : TileNo) : Statement (.mwait t) :=
  wordTile_lt (by decide) _ (by omega) (by omega) (by omega)
theorem prune (ci : CReg) (co : CReg) (b : SReg) : Statement (.prune ci co b) :=
  wordF_lt (by decide) (by omega) (by omega) (by omega)
theorem sphdr (a : SReg) (c : CReg) : Statement (.sphdr a c) :=
  wordF_lt (by decide) (by omega) (by omega) (by omega)
theorem sphdrChk (a : SReg) (c : CReg) : Statement (.sphdrChk a c) :=
  wordF_lt (by decide) (by omega) (by omega) (by omega)
theorem plane (ci : CReg) (co : CReg) (b : SReg) : Statement (.plane ci co b) :=
  wordF_lt (by decide) (by omega) (by omega) (by omega)
theorem unplane (ci : CReg) (co : CReg) (b : SReg) : Statement (.unplane ci co b) :=
  wordF_lt (by decide) (by omega) (by omega) (by omega)
theorem qbni (d : VReg) (a : VReg) (p : BitVec 6) : Statement (.qbni d a p) :=
  wordA_lt (by decide) (by omega) (by omega) (by omega) (by omega)
theorem dqbni (d : VReg) (a : VReg) (p : BitVec 6) : Statement (.dqbni d a p) :=
  wordA_lt (by decide) (by omega) (by omega) (by omega) (by omega)
theorem launch (a : SReg) : Statement (.launch a) :=
  wordF_lt (by decide) (by omega) (by omega) (by omega)
theorem gangPlacement (die : Fin 4) : Statement (.gangPlacement die) := show 0 < 2 ^ 32 by decide
theorem bincfg (a : SReg) (b : SReg) : Statement (.bincfg a b) :=
  wordF_lt (by decide) (by omega) (by omega) (by omega)
theorem grow (a : BitVec 12) : Statement (.grow a) :=
  wordB_lt (by decide) (by omega) (by omega) (by omega)
theorem growGrant (core : CoreId) : Statement (.growGrant core) := show 0 < 2 ^ 32 by decide
theorem shrink (a : BitVec 12) : Statement (.shrink a) :=
  wordB_lt (by decide) (by omega) (by omega) (by omega)
theorem wid (d : VReg) : Statement (.wid d) :=
  wordA_lt (by decide) (by omega) (by omega) (by omega) (by omega)
theorem widf (d : VReg) (k : BitVec 3) : Statement (.widf d k) :=
  wordA_lt (by decide) (by omega) (by omega) (by omega) (by omega)
theorem rdcnt (k : Counter) (d : SReg) : Statement (.rdcnt k d) := by
  have := Counter.code_lt k
  exact wordA_lt (by decide) (by omega) (by omega) (by omega) (by omega)
theorem trap (code : BitVec 12) : Statement (.trap code) :=
  wordB_lt (by decide) (by omega) (by omega) (by omega)
theorem brk (code : BitVec 12) : Statement (.brk code) :=
  wordB_lt (by decide) (by omega) (by omega) (by omega)
theorem supsetCore (a : SReg) (b : SReg) : Statement (.supsetCore a b) :=
  wordF_lt (by decide) (by omega) (by omega) (by omega)
theorem supsetPriv (a : SReg) (b : SReg) : Statement (.supsetPriv a b) :=
  wordF_lt (by decide) (by omega) (by omega) (by omega)
theorem supsetGet (a : SReg) (b : SReg) : Statement (.supsetGet a b) :=
  wordF_lt (by decide) (by omega) (by omega) (by omega)
theorem freeze (a : SReg) : Statement (.freeze a) :=
  wordF_lt (by decide) (by omega) (by omega) (by omega)
theorem resume (a : SReg) (b : SReg) : Statement (.resume a b) :=
  wordF_lt (by decide) (by omega) (by omega) (by omega)
theorem cpyres (a : SReg) (b : SReg) : Statement (.cpyres a b) :=
  wordF_lt (by decide) (by omega) (by omega) (by omega)
theorem cpyresCan (a : SReg) (b : SReg) : Statement (.cpyresCan a b) :=
  wordF_lt (by decide) (by omega) (by omega) (by omega)
theorem ctxsave (a : SReg) : Statement (.ctxsave a) :=
  wordF_lt (by decide) (by omega) (by omega) (by omega)
theorem ctxsaveSpill (a : SReg) (m : CReg) : Statement (.ctxsaveSpill a m) :=
  wordF_lt (by decide) (by omega) (by omega) (by omega)
theorem ctxswap (a : SReg) : Statement (.ctxswap a) :=
  wordF_lt (by decide) (by omega) (by omega) (by omega)
theorem ctxload (a : SReg) : Statement (.ctxload a) :=
  wordF_lt (by decide) (by omega) (by omega) (by omega)
theorem ctxloadFill (a : SReg) (m : CReg) : Statement (.ctxloadFill a m) :=
  wordF_lt (by decide) (by omega) (by omega) (by omega)
theorem migrate (a : SReg) (b : SReg) : Statement (.migrate a b) :=
  wordF_lt (by decide) (by omega) (by omega) (by omega)
theorem migrateRetire (a : SReg) : Statement (.migrateRetire a) :=
  wordF_lt (by decide) (by omega) (by omega) (by omega)
theorem stopCore (a : SReg) : Statement (.stopCore a) :=
  wordF_lt (by decide) (by omega) (by omega) (by omega)
theorem startCore (a : SReg) : Statement (.startCore a) :=
  wordF_lt (by decide) (by omega) (by omega) (by omega)
theorem objinv (a : SReg) : Statement (.objinv a) :=
  wordF_lt (by decide) (by omega) (by omega) (by omega)
theorem rtnld (a : SReg) (b : SReg) : Statement (.rtnld a b) :=
  wordF_lt (by decide) (by omega) (by omega) (by omega)
theorem rtnclr (a : SReg) : Statement (.rtnclr a) :=
  wordF_lt (by decide) (by omega) (by omega) (by omega)
theorem ortsetBase (a : SReg) (b : SReg) : Statement (.ortsetBase a b) :=
  wordF_lt (by decide) (by omega) (by omega) (by omega)
theorem ortsetRec (a : SReg) (b : SReg) : Statement (.ortsetRec a b) :=
  wordF_lt (by decide) (by omega) (by omega) (by omega)
theorem chanctlSet (a : SReg) (b : SReg) : Statement (.chanctlSet a b) :=
  wordF_lt (by decide) (by omega) (by omega) (by omega)
theorem chanctlClr (a : SReg) : Statement (.chanctlClr a) :=
  wordF_lt (by decide) (by omega) (by omega) (by omega)
theorem partctl (k : BitVec 3) (a : SReg) (b : SReg) : Statement (.partctl k a b) :=
  wordF_lt (by decide) (by omega) (by omega) (by omega)
theorem illegalWord (w : Word) : Statement (.illegalWord w) := show 0 < 2 ^ 32 by decide
theorem loadPerform (core : CoreId) (n : Nat) : Statement (.loadPerform core n) := show 0 < 2 ^ 32 by decide
theorem tileOperationComplete (core : CoreId) : Statement (.tileOperationComplete core) := show 0 < 2 ^ 32 by decide
theorem storePerform (core : CoreId) (n : Nat) : Statement (.storePerform core n) := show 0 < 2 ^ 32 by decide
theorem readCacheLineExpiry (core : CoreId) (line : Nat) : Statement (.readCacheLineExpiry core line) := show 0 < 2 ^ 32 by decide
theorem scWindowComplete (part : Fin 4) : Statement (.scWindowComplete part) := show 0 < 2 ^ 32 by decide
theorem orderedEventRelease (core : CoreId) (slot : SlotId) : Statement (.orderedEventRelease core slot) := show 0 < 2 ^ 32 by decide
theorem faultPacketDelivery (n : Nat) : Statement (.faultPacketDelivery n) := show 0 < 2 ^ 32 by decide
theorem watchdogHung (core : CoreId) (slot : SlotId) : Statement (.watchdogHung core slot) := show 0 < 2 ^ 32 by decide
theorem convergenceCountFreeze (core : CoreId) (slot : SlotId) : Statement (.convergenceCountFreeze core slot) := show 0 < 2 ^ 32 by decide
theorem powerOnReset (b : BootInfo) : Statement (.powerOnReset b) := show 0 < 2 ^ 32 by decide
theorem sysReadCompletion (core : CoreId) (slot : SlotId) (status : SysStatus) : Statement (.sysReadCompletion core slot status) := show 0 < 2 ^ 32 by decide
theorem sysReadTimeout (core : CoreId) (slot : SlotId) : Statement (.sysReadTimeout core slot) := show 0 < 2 ^ 32 by decide
theorem partScrubComplete (part : Fin 4) : Statement (.partScrubComplete part) := show 0 < 2 ^ 32 by decide
theorem parkComplete (die : Fin 4) : Statement (.parkComplete die) := show 0 < 2 ^ 32 by decide
theorem unparkComplete (die : Fin 4) : Statement (.unparkComplete die) := show 0 < 2 ^ 32 by decide
theorem pstateStepComplete (part : Fin 4) : Statement (.pstateStepComplete part) := show 0 < 2 ^ 32 by decide
theorem pstateStepDown (part : Fin 4) : Statement (.pstateStepDown part) := show 0 < 2 ^ 32 by decide
theorem pstateStepUp (part : Fin 4) : Statement (.pstateStepUp part) := show 0 < 2 ^ 32 by decide
theorem fountPacketService : Statement (.fountPacketService) := show 0 < 2 ^ 32 by decide
theorem debugWindowWrite (by_ : Actor) (pa : Nat) (size : Nat) (value : DWord) : Statement (.debugWindowWrite by_ pa size value) := show 0 < 2 ^ 32 by decide
theorem debugStatusRead (by_ : Actor) (core : CoreId) (slot : SlotId) : Statement (.debugStatusRead by_ core slot) := show 0 < 2 ^ 32 by decide
theorem functionLevelReset (n : Fin 4) : Statement (.functionLevelReset n) := show 0 < 2 ^ 32 by decide
theorem hostPost (fn : Fin 4) (offset : Nat) (data : List Byte) : Statement (.hostPost fn offset data) := show 0 < 2 ^ 32 by decide
theorem registerWrite (master : Byte) (offset : Nat) (size : Nat) (value : DWord) : Statement (.registerWrite master offset size value) := show 0 < 2 ^ 32 by decide
theorem evcauseClear (fn : Fin 4) (value : DWord) : Statement (.evcauseClear fn value) := show 0 < 2 ^ 32 by decide
theorem recordCommit (fn : Fin 4) (value : DWord) : Statement (.recordCommit fn value) := show 0 < 2 ^ 32 by decide
theorem claim (master : Byte) (data : List Byte) : Statement (.claim master data) := show 0 < 2 ^ 32 by decide
theorem claimVerification : Statement (.claimVerification) := show 0 < 2 ^ 32 by decide
theorem renew (master : Byte) (data : List Byte) : Statement (.renew master data) := show 0 < 2 ^ 32 by decide
theorem yieldOwnership (master : Byte) (data : List Byte) : Statement (.yieldOwnership master data) := show 0 < 2 ^ 32 by decide
theorem leaseWarning : Statement (.leaseWarning) := show 0 < 2 ^ 32 by decide
theorem leaseRevocation : Statement (.leaseRevocation) := show 0 < 2 ^ 32 by decide
theorem partCreate (master : Byte) (data : List Byte) : Statement (.partCreate master data) := show 0 < 2 ^ 32 by decide
theorem partDestroy (master : Byte) (data : List Byte) : Statement (.partDestroy master data) := show 0 < 2 ^ 32 by decide
theorem partReset (master : Byte) (data : List Byte) : Statement (.partReset master data) := show 0 < 2 ^ 32 by decide
theorem setDeleg (master : Byte) (data : List Byte) : Statement (.setDeleg master data) := show 0 < 2 ^ 32 by decide
theorem setModid (master : Byte) (data : List Byte) : Statement (.setModid master data) := show 0 < 2 ^ 32 by decide
theorem setRoute (master : Byte) (data : List Byte) : Statement (.setRoute master data) := show 0 < 2 ^ 32 by decide
theorem setExport (master : Byte) (data : List Byte) : Statement (.setExport master data) := show 0 < 2 ^ 32 by decide
theorem attest (master : Byte) (data : List Byte) : Statement (.attest master data) := show 0 < 2 ^ 32 by decide
theorem extend (master : Byte) (data : List Byte) : Statement (.extend master data) := show 0 < 2 ^ 32 by decide
theorem cert (master : Byte) (data : List Byte) : Statement (.cert master data) := show 0 < 2 ^ 32 by decide
theorem updateWrite (master : Byte) (data : List Byte) : Statement (.updateWrite master data) := show 0 < 2 ^ 32 by decide
theorem updateActivate (master : Byte) (data : List Byte) : Statement (.updateActivate master data) := show 0 < 2 ^ 32 by decide
theorem updateCommit (master : Byte) (data : List Byte) : Statement (.updateCommit master data) := show 0 < 2 ^ 32 by decide
theorem logRead (master : Byte) (data : List Byte) : Statement (.logRead master data) := show 0 < 2 ^ 32 by decide
theorem logSegmentSign : Statement (.logSegmentSign) := show 0 < 2 ^ 32 by decide
theorem portLinkUp (port : BitVec 4) (peer : ModuleId) : Statement (.portLinkUp port peer) := show 0 < 2 ^ 32 by decide
theorem peerAccess (source : ModuleId) (kind : PeerKind) (addr : Nat) (data : List Byte) : Statement (.peerAccess source kind addr data) := show 0 < 2 ^ 32 by decide
theorem setCeiling (master : Byte) (data : List Byte) : Statement (.setCeiling master data) := show 0 < 2 ^ 32 by decide
theorem setShare (master : Byte) (data : List Byte) : Statement (.setShare master data) := show 0 < 2 ^ 32 by decide
theorem setPmax (master : Byte) (data : List Byte) : Statement (.setPmax master data) := show 0 < 2 ^ 32 by decide
theorem park (master : Byte) (data : List Byte) : Statement (.park master data) := show 0 < 2 ^ 32 by decide
theorem unpark (master : Byte) (data : List Byte) : Statement (.unpark master data) := show 0 < 2 ^ 32 by decide
theorem setEscpol (master : Byte) (data : List Byte) : Statement (.setEscpol master data) := show 0 < 2 ^ 32 by decide
theorem fresume (master : Byte) (data : List Byte) : Statement (.fresume master data) := show 0 < 2 ^ 32 by decide
theorem setWdog (master : Byte) (data : List Byte) : Statement (.setWdog master data) := show 0 < 2 ^ 32 by decide
theorem clrCounters (master : Byte) (data : List Byte) : Statement (.clrCounters master data) := show 0 < 2 ^ 32 by decide
theorem railSample (module : Nat) (parts : List Nat) : Statement (.railSample module parts) := show 0 < 2 ^ 32 by decide
theorem powerEstimate (projected : List Nat) : Statement (.powerEstimate projected) := show 0 < 2 ^ 32 by decide
theorem thermalStep (die : Fin 4) (tmax : Nat) : Statement (.thermalStep die tmax) := show 0 < 2 ^ 32 by decide
theorem thermalTrip (die : Fin 4) (tmax : Nat) : Statement (.thermalTrip die tmax) := show 0 < 2 ^ 32 by decide
theorem portLinkDown (port : BitVec 4) : Statement (.portLinkDown port) := show 0 < 2 ^ 32 by decide
theorem busMasterEnableChange (fn : Fin 4) (on : Bool) : Statement (.busMasterEnableChange fn on) := show 0 < 2 ^ 32 by decide
theorem bararv : Statement (.bararv) :=
  wordF_lt (by decide) (by omega) (by omega) (by omega)
theorem barwtI : Statement (.barwtI) :=
  wordF_lt (by decide) (by omega) (by omega) (by omega)
theorem barwtX : Statement (.barwtX) :=
  wordF_lt (by decide) (by omega) (by omega) (by omega)
theorem txbegin : Statement (.txbegin) :=
  wordF_lt (by decide) (by omega) (by omega) (by omega)
theorem waitmsg : Statement (.waitmsg) :=
  wordF_lt (by decide) (by omega) (by omega) (by omega)
theorem beat : Statement (.beat) :=
  wordF_lt (by decide) (by omega) (by omega) (by omega)
theorem stopPart : Statement (.stopPart) :=
  wordF_lt (by decide) (by omega) (by omega) (by omega)
theorem startPart : Statement (.startPart) :=
  wordF_lt (by decide) (by omega) (by omega) (by omega)

end Word32

end Sys2Proof.Laws
end

