-- ==== Sys2Proof/Tests/Slice0.lean ====
section
/-! SUPPORT. Tests: ill-formed terms, words written out from the encodings of 07, small steps with results taken from the spec, and for
every statement of Obligations a state and operands that meet its hypotheses. -/

open Sys2Proof Sys2Proof.Machine

namespace Sys2Proof.Tests

set_option Elab.async false

/-! Small states. -/

/-- The partition that Fount builds on die 0 (12 R442): its boot gang, of level P, is about to issue its one word, NOP. -/
def bench : State := State.reset.withFetchWord 32 0x0E030000

/-- The boot gang changed. -/
def benchG (f : Gang → Gang) : State := bench.modGang 0 0 f

/-- Its registers changed. -/
def benchR (f : Regs → Regs) : State := benchG (fun g => { g with regs := f g.regs })

/-- MODE set. -/
def benchM (m : Word) : State := benchR (fun r => { r with mode := m })

/-- A packet of a stream at PC 2^40 + 0x100. -/
def packet (taken : Bool) : StreamPkt := { word := 0x0E030000, pc := 0x10000000100, seq := 5, tick := 0, taken := taken }

/-- The executing gang follows a stream. -/
def State.streamed (s : State) (taken : Bool) : State := { s with cur := { s.cur with stream := some (packet taken) } }

/-- The word an outcome goes on from. -/
def nextState? (o : Host.Outcome State Fault Refusal) : Option State :=
  match o with
  | .next t => some t
  | _ => none

theorem next_of {o : Host.Outcome State Fault Refusal} {q : State → Bool} (h : (nextState? o).any q = true) :
    ∃ t, o = .next t ∧ q t = true := by
  cases o with
  | next t => exact ⟨t, rfl, by simpa [nextState?] using h⟩
  | fault f => simp [nextState?] at h
  | refused r => simp [nextState?] at h

/-- Whether the executing gang may run a word of a level that names some V registers, and q holds of it. -/
def runsB (s : State) (need : Priv) (vs : List Nat) (q : Gang → Bool) : Bool :=
  s.me?.any (fun g => g.status == .running && need.le g.priv && vs.all (fun v => decide (v < g.vLimit)) && q g)

theorem runs_of {s : State} {need : Priv} {vs : List Nat} {q : Gang → Prop} [DecidablePred q]
    (h : runsB s need vs (fun g => decide (q g)) = true) : ∃ g, Runs s g need vs ∧ q g := by
  unfold runsB at h
  cases e : s.me? with
  | none => simp [e] at h
  | some g =>
    simp only [e, Option.any_some, Bool.and_eq_true, beq_iff_eq, List.all_eq_true, decide_eq_true_eq] at h
    exact ⟨g, ⟨e, h.1.1.1, h.1.1.2, h.1.2⟩, h.2⟩

theorem gang_of {s : State} {c : CoreId} {k : SlotId} {q : Gang → Prop} [DecidablePred q]
    (h : (s.gang? c k).any (fun g => decide (q g)) = true) : ∃ g, s.gang? c k = some g ∧ q g := by
  cases e : s.gang? c k with
  | none => simp [e] at h
  | some g => exact ⟨g, rfl, by simpa [e] using h⟩

/-! Ill-formed terms, one for each check of Instr.wf (07 R207, R210, R220 to R224, R227 to R230). -/

theorem test_wf_subops : (Instr.vop .mulhu 1 2 3).wf = false ∧ (Instr.vop .neg 1 2 3).wf = false ∧
    (Instr.vops .maxu 1 2 3).wf = false ∧ (Instr.vops .mov 1 2 3).wf = false ∧ (Instr.sop .abs 1 2 3).wf = false ∧
    (Instr.vcmp .ltu 1 2 3).wf = false ∧ (Instr.vcmps .geu 1 2 3).wf = false ∧ (Instr.plog .pnot 1 2 3).wf = false ∧
    (Instr.fop .fsqrt 1 2 3).wf = false ∧ (Instr.fops .fneg 1 2 3).wf = false ∧ (Instr.sfop .fabs 1 2 3).wf = false ∧
    (Instr.fcvt .f32 .f32 1 2).wf = false ∧ (Instr.fcvt .i64 .f32 1 2).wf = false ∧ (Instr.fcvt .f32 .n64 1 2).wf = false ∧
    (Instr.fcvtS .n64 .n64 1 2).wf = false := by decide +kernel

theorem test_wf_memory : (Instr.ld 1 ⟨2, 3, 0⟩ .q .sc).wf = false ∧ (Instr.lds 1 ⟨2, 3, 0⟩ .w .plain).wf = false ∧
    (Instr.st 1 ⟨2, 3, 0⟩ .q .sc).wf = false ∧ (Instr.sld 1 ⟨2, 3, 0⟩ .q .plain).wf = false ∧
    (Instr.slds 1 ⟨2, 3, 0⟩ .d .plain).wf = false ∧ (Instr.sst 1 ⟨2, 3, 0⟩ .q .plain).wf = false ∧
    (Instr.atom .add 1 ⟨2, 3, 0⟩ .h).wf = false ∧ (Instr.atomAcq .add 1 ⟨2, 3, 0⟩ .b).wf = false ∧
    (Instr.atomRel .add 1 ⟨2, 3, 0⟩ .q).wf = false ∧ (Instr.atomAr .add 1 ⟨2, 3, 0⟩ .h).wf = false ∧
    (Instr.atomSc .add 1 ⟨2, 3, 0⟩ .h).wf = false ∧ (Instr.atomc .sc 1 ⟨2, 3, 0⟩ .b).wf = false ∧
    (Instr.red .swap 1 ⟨2, 3, 0⟩ .w).wf = false ∧ (Instr.red .add 1 ⟨2, 3, 0⟩ .h).wf = false ∧
    (Instr.redRel .swap 1 ⟨2, 3, 0⟩ .d).wf = false ∧ (Instr.redRel .or 1 ⟨2, 3, 0⟩ .q).wf = false := by decide +kernel

theorem test_wf_codes : (Instr.qpush 8 1).wf = false ∧ (Instr.qpop 1 8).wf = false ∧ (Instr.qpop 1 15).wf = false ∧
    (Instr.qbni 1 2 1).wf = false ∧ (Instr.qbni 1 2 17).wf = false ∧ (Instr.dqbni 1 2 0).wf = false ∧
    (Instr.dqbni 1 2 17).wf = false ∧ (Instr.widf 1 6).wf = false ∧ (Instr.partctl 6 1 2).wf = false := by decide +kernel

/-! Words, written out field by field from the forms and tables of 07 R206 to R230 and 10 R374, or listed in the manual. -/

/-- Control words (07 R209, R216, R217; brany p3, top is the listing of R230). -/
theorem test_decode_control :
    decode 0x01200005 = some (.br ⟨false, 2⟩ 5) ∧
    decode 0x023FFFF0 = some (.brany ⟨false, 3⟩ 0xFFFF0) ∧
    decode 0x03C00001 = some (.brall ⟨true, 4⟩ 1) ∧
    decode 0x04080000 = some (.brnone ⟨false, 0⟩ 0x80000) ∧
    decode 0x05000007 = some (.call 7) ∧
    decode 0x06000600 = some (.jmp 6) ∧
    decode 0x06011F00 = some (.callr 31) ∧
    decode 0x06020000 = some .ret ∧
    decode 0x07900009 = some (.if_ ⟨true, 1⟩ 9) ∧
    decode 0x08000003 = some (.else_ 3) ∧
    decode 0x09000000 = some .endif ∧
    decode 0x0A00000C = some (.loop 12) ∧
    decode 0x0BFFFFFF = some (.endloop ⟨true, 7⟩ 0xFFFFF) ∧
    decode 0x0C500002 = some (.break_ ⟨false, 5⟩ 2) ∧
    decode 0x0DE00004 = some (.cont ⟨true, 6⟩ 4) ∧
    decode 0x0E000000 = some .conv ∧
    decode 0x0E010000 = some .exit ∧
    decode 0x0E020000 = some .yield ∧
    decode 0x0E030000 = some .nop ∧
    decode 0x0E040900 = some (.setmode 9) ∧
    decode 0x0E050A00 = some (.getmode 10) ∧
    decode 0x0E060B00 = some (.setfs 11) ∧
    decode 0x0E070C00 = some (.getfs 12) ∧
    decode 0x0F180004 = some (.setmf .scope 4) ∧
    decode 0x0F1C001F = some (.setmf .kresume 31) := by
  decide +kernel

/-- Channels and synchronisation (07 R218; 09 R318 to R322 give fences, barriers, FESET and WMSET). -/
theorem test_decode_channels :
    decode 0x10000000 = some .publish ∧
    decode 0x11000000 = some .unpublish ∧
    decode 0x12000304 = some (.subscribe 3 4) ∧
    decode 0x13A00000 = some (.unsub ⟨true, 2⟩) ∧
    decode 0x14000506 = some (.resub 5 6) ∧
    decode 0x1500ABCD = some (.rendez 0xABCD) ∧
    decode 0x16000700 = some (.chstat 7) ∧
    decode 0x18110000 = some (.fence .acq (some .pkg)) ∧
    decode 0x18120000 = some (.fence .rel (some .pkg)) ∧
    decode 0x180B0000 = some (.fence .full (some .crew)) ∧
    decode 0x18230000 = some (.fence .full none) ∧
    decode 0x19000204 = some (.xfence 2 4) ∧
    decode 0x19000102 = some (.xfence 1 2) ∧
    decode 0x1A000000 = some .bararv ∧
    decode 0x1B000000 = some .barwtI ∧
    decode 0x1B010000 = some .barwtX ∧
    decode 0x1C000600 = some (.feset 6) ∧
    decode 0x1C010500 = some (.feclr 5) ∧
    decode 0x1C020F00 = some (.fewait 15) ∧
    decode 0x1D0C4140 = some (.wmset 3 4 5) ∧
    decode 0x1D389001 = some (.wmwait 14 9) := by
  decide +kernel

/-- Integer words (07 R219 to R221). -/
theorem test_decode_integer :
    decode 0x200C1080 = some (.vop .add 3 1 2) ∧
    decode 0x20FFEF57 = some (.vop .avg 63 62 61) ∧
    decode 0x210420CF = some (.vops .ror 1 2 3) ∧
    decode 0x22105FFF = some (.addImmV 4 5 0xFFF) ∧
    decode 0x23105800 = some (.mulImmV 4 5 0x800) ∧
    decode 0x24105F0F = some (.andImmV 4 5 0xF0F) ∧
    decode 0x25105001 = some (.orImmV 4 5 1) ∧
    decode 0x26105002 = some (.xorImmV 4 5 2) ∧
    decode 0x271050FF = some (.shlImmV 4 5 0xFF) ∧
    decode 0x2810501F = some (.shrImmV 4 5 31) ∧
    decode 0x29105007 = some (.sraImmV 4 5 7) ∧
    decode 0x2A1C824A = some (.vcmp .tst 7 8 9) ∧
    decode 0x2B041004 = some (.vcmps .gt 1 1 0) ∧
    decode 0x2C28B305 = some (.sel 10 11 12 5) ∧
    decode 0x2D0420C0 = some (.mad 1 2 3) ∧
    decode 0x2D0420C1 = some (.dot2 1 2 3) ∧
    decode 0x2D0420C2 = some (.dot4 1 2 3) ∧
    decode 0x307DE75C = some (.sop .maxu 31 30 29) ∧
    decode 0x30100155 = some (.sop .mov 4 0 5) ∧
    decode 0x311877FF = some (.addImmS 6 7 0x7FF) ∧
    decode 0x32187003 = some (.mulImmS 6 7 3) ∧
    decode 0x33187FFF = some (.andImmS 6 7 0xFFF) ∧
    decode 0x34187123 = some (.orImmS 6 7 0x123) ∧
    decode 0x35187009 = some (.xorImmS 6 7 9) ∧
    decode 0x3618703F = some (.shlImmS 6 7 63) ∧
    decode 0x37187001 = some (.shrImmS 6 7 1) ∧
    decode 0x38187040 = some (.sraImmS 6 7 0x40) ∧
    decode 0x390C0002 = some (.lil 3 2) ∧
    decode 0x3A121234 = some (.lih 4 0x1234 2) ∧
    decode 0x3B083109 = some (.scmp .geu 2 3 4) := by
  decide +kernel

/-- Lane and predicate words (07 R222). -/
theorem test_decode_lanes :
    decode 0x400420C0 = some (.shfl 1 2 3) ∧
    decode 0x410420C0 = some (.shflUp 1 2 3) ∧
    decode 0x410420C1 = some (.shflDown 1 2 3) ∧
    decode 0x410420C2 = some (.shflXor 1 2 3) ∧
    decode 0x410420C3 = some (.shflBcast 1 2 3) ∧
    decode 0x4210500A = some (.vred .fmax 4 5) ∧
    decode 0x43187008 = some (.vscan .fadd 6 7) ∧
    decode 0x43187001 = some (.vscan .addx 6 7) ∧
    decode 0x44203003 = some (.vote .count 8 3) ∧
    decode 0x450420C3 = some (.plog .pandn 1 2 3) ∧
    decode 0x451C0185 = some (.plog .pmov 7 0 6) ∧
    decode 0x46244000 = some (.ptos 9 4) ∧
    decode 0x4614A001 = some (.pfroms 5 10) ∧
    decode 0x4700B000 = some (.setexm 11) ∧
    decode 0x47300001 = some (.getexm 12) ∧
    decode 0x47340002 = some (.getpkm 13) ∧
    decode 0x47006003 = some (.andexm 6) ∧
    decode 0x4838F400 = some (.vtos 14 15 16) ∧
    decode 0x494524C0 = some (.stov 17 18 19) ∧
    decode 0x4A500000 = some (.laneid 20) := by
  decide +kernel

/-- Floating-point words (07 R223, R224; the listings of 08 R293). -/
theorem test_decode_float :
    decode 0x50141042 = some (.fop .fmul 5 1 1) ∧
    decode 0x501461CB = some (.fop .fcpys 5 6 7) ∧
    decode 0x510420C3 = some (.fops .fdiv 1 2 3) ∧
    decode 0x52100146 = some (.sfop .fsqrt 4 0 5) ∧
    decode 0x53081040 = some (.fma .fma 2 1 1) ∧
    decode 0x540C4143 = some (.fmaVs .fnms 3 4 5) ∧
    decode 0x55187201 = some (.fmaS .fms 6 7 8) ∧
    decode 0x560420C5 = some (.fcmp .fge 1 2 3) ∧
    decode 0x57105181 = some (.fcmpS .fne 4 5 6) ∧
    decode 0x58240280 = some (.fclass 9 10) ∧
    decode 0x59960704 = some (.fcvt .e4m3 .f32 7 4) ∧
    decode 0x5AD80809 = some (.fcvtS .n64 .bf16 8 9) := by
  decide +kernel

/-- Memory words (07 R210, R225). -/
theorem test_decode_memory :
    decode 0x70148711 = some (.ld 5 ⟨2, 7, 0⟩ .w .fe) ∧
    decode 0x7118C84A = some (.lds 6 ⟨3, 8, 1⟩ .h .fk) ∧
    decode 0x721D09A0 = some (.st 7 ⟨4, 9, 2⟩ .q .plain) ∧
    decode 0x73214ADB = some (.sld 8 ⟨5, 10, 3⟩ .d .sc) ∧
    decode 0x74258B00 = some (.slds 9 ⟨6, 11, 0⟩ .b .plain) ∧
    decode 0x7529CC53 = some (.sst 10 ⟨7, 12, 1⟩ .w .sc) ∧
    decode 0x762E0DA0 = some (.ldc 11 ⟨8, 13, 2⟩) ∧
    decode 0x77324E20 = some (.stc 12 ⟨9, 14, 0⟩) ∧
    decode 0x78350127 = some (.ldb 3 20 1 7 true) ∧
    decode 0x7945421F = some (.stb 4 21 2 31 false) ∧
    decode 0x7A000105 = some (.baset 1 5) ∧
    decode 0x7A010206 = some (.baget 2 6) ∧
    decode 0x7A020307 = some (.baadd 3 7) := by
  decide +kernel

/-- Capability and object words (07 R226; cinc c5, c2, s7 is the listing of 09 R305). -/
theorem test_decode_capabilities :
    decode 0x901421C0 = some (.cinc 5 2 7) ∧
    decode 0x910420C0 = some (.csetb 1 2 3) ∧
    decode 0x92105180 = some (.cperm 4 5 6) ∧
    decode 0x931C8004 = some (.cget .length 7 8) ∧
    decode 0x9424A000 = some (.cmov 9 10) ∧
    decode 0x950420C0 = some (.objview 1 2 3) ∧
    decode 0x96105007 = some (.objinfo 4 5 7) ∧
    decode 0x97187200 = some (.objres 6 7 8) ∧
    decode 0x9824A2C0 = some (.objsum 9 10 11) := by
  decide +kernel

/-- Atomic and transaction words (07 R227; atom.add.w v4, [c1, v2] is the listing of 09 R311). -/
theorem test_decode_atomics :
    decode 0xA0104210 = some (.atom .add 4 ⟨1, 2, 0⟩ .w) ∧
    decode 0xA1148359 = some (.atomAcq .min 5 ⟨2, 3, 1⟩ .d) ∧
    decode 0xA214835A = some (.atomRel .max 5 ⟨2, 3, 1⟩ .d) ∧
    decode 0xA314835B = some (.atomAr .and 5 ⟨2, 3, 1⟩ .d) ∧
    decode 0xA414835E = some (.atomSc .swap 5 ⟨2, 3, 1⟩ .d) ∧
    decode 0xA518C493 = some (.atomc .ar 6 ⟨3, 4, 2⟩ .w) ∧
    decode 0xA61D0515 = some (.red .xor 7 ⟨4, 5, 0⟩ .w) ∧
    decode 0xA721461C = some (.redRel .or 8 ⟨5, 6, 0⟩ .d) ∧
    decode 0xA8624A21 = some (.atomr 6 9 10 33) ∧
    decode 0xA9000000 = some .txbegin ∧
    decode 0xAA0FFFFD = some (.txend 0xFFFFD) ∧
    decode 0xAB00005A = some (.txabort 0x5A) ∧
    decode 0xAC2C0000 = some (.txstat 11) := by
  decide +kernel

/-- Engine, queue, ring and record words (07 R228; listings of 09 R323, R335, R337 and 10 R359). -/
theorem test_decode_engines :
    decode 0xB0820418 = some (.cpy 8 4 1 true) ∧
    decode 0xB182452C = some (.cpym 9 5 2 true true) ∧
    decode 0xB2828630 = some (.cpyo 10 6 3 false) ∧
    decode 0xB382C748 = some (.gathe 11 7 4 true) ∧
    decode 0xB4830850 = some (.scate 12 8 5 false) ∧
    decode 0xB5834000 = some (.cpycan 13) ∧
    decode 0xB6C0C900 = some (.selk 3 9) ∧
    decode 0xB7D38000 = some (.selres 14) ∧
    decode 0xB81CF000 = some (.qpush 7 15) ∧
    decode 0xB840E001 = some (.qpop 16 14) ∧
    decode 0xB8108002 = some (.qstat 4 8) ∧
    decode 0xB9010900 = some (.send 4 9) ∧
    decode 0xBA000000 = some .waitmsg ∧
    decode 0xBB21C800 = some (.ringmk 2 7 8) ∧
    decode 0xBC000900 = some (.ringdes 9) ∧
    decode 0xBDF10900 = some (.rpush 4 9) ∧
    decode 0xBEF18900 = some (.rpop 6 9) ∧
    decode 0xBF014000 = some (.spawn 5) := by
  decide +kernel

/-- Matrix, plane and block words (07 R229; listings of 10 R343, R347, R356). -/
theorem test_decode_matrix :
    decode 0xC0430834 = some (.mma 2 3 8 3 4) ∧
    decode 0xC1FF0912 = some (.mmaS 7 31 9 1 2) ∧
    decode 0xC2600000 = some (.mzero 3) ∧
    decode 0xC3800506 = some (.mload 4 5 6) ∧
    decode 0xC4000206 = some (.mdrain 0 2 6) ∧
    decode 0xC4300007 = some (.mdrainQ 1 7) ∧
    decode 0xC5A00800 = some (.mstat 5 8) ∧
    decode 0xC6C00000 = some (.mwait 6) ∧
    decode 0xC7001203 = some (.prune 1 2 3) ∧
    decode 0xC8000405 = some (.sphdr 4 5) ∧
    decode 0xC8010607 = some (.sphdrChk 6 7) ∧
    decode 0xC900890A = some (.plane 8 9 10) ∧
    decode 0xCA00BC0D = some (.unplane 11 12 13) ∧
    decode 0xCB244004 = some (.qbni 9 4 4) ∧
    decode 0xCC28B010 = some (.dqbni 10 11 16) := by
  decide +kernel

/-- Launch, register, identity and counter words (07 R230; listings of 10 R366, R368 and R369). -/
theorem test_decode_launch :
    decode 0xD0000400 = some (.launch 4) ∧
    decode 0xD1000506 = some (.bincfg 5 6) ∧
    decode 0xD2000030 = some (.grow 48) ∧
    decode 0xD3000010 = some (.shrink 16) ∧
    decode 0xD41C0000 = some (.wid 7) ∧
    decode 0xD5040000 = some (.widf 1 0) ∧
    decode 0xD60C0001 = some (.rdcnt .retired 3) ∧
    decode 0xD7000000 = some .beat ∧
    decode 0xD8000ABC = some (.trap 0xABC) ∧
    decode 0xD9000001 = some (.brk 1) := by
  decide +kernel

/-- Privileged words (10 R374). -/
theorem test_decode_privileged :
    decode 0xE0000102 = some (.supsetCore 1 2) ∧
    decode 0xE0010102 = some (.supsetPriv 1 2) ∧
    decode 0xE0020102 = some (.supsetGet 1 2) ∧
    decode 0xE1000300 = some (.freeze 3) ∧
    decode 0xE2000405 = some (.resume 4 5) ∧
    decode 0xE3000607 = some (.cpyres 6 7) ∧
    decode 0xE3010809 = some (.cpyresCan 8 9) ∧
    decode 0xE4000100 = some (.ctxsave 1) ∧
    decode 0xE4C10200 = some (.ctxsaveSpill 2 12) ∧
    decode 0xE4020200 = some (.ctxswap 2) ∧
    decode 0xE5000300 = some (.ctxload 3) ∧
    decode 0xE5D10400 = some (.ctxloadFill 4 13) ∧
    decode 0xE6000506 = some (.migrate 5 6) ∧
    decode 0xE6010700 = some (.migrateRetire 7) ∧
    decode 0xE7000000 = some .stopPart ∧
    decode 0xE7010800 = some (.stopCore 8) ∧
    decode 0xE7020000 = some .startPart ∧
    decode 0xE7030900 = some (.startCore 9) ∧
    decode 0xE8000A00 = some (.objinv 10) ∧
    decode 0xE9000B0C = some (.rtnld 11 12) ∧
    decode 0xE9010D00 = some (.rtnclr 13) ∧
    decode 0xEA000E0F = some (.ortsetBase 14 15) ∧
    decode 0xEA011011 = some (.ortsetRec 16 17) ∧
    decode 0xEB001213 = some (.chanctlSet 18 19) ∧
    decode 0xEB011400 = some (.chanctlClr 20) ∧
    decode 0xEC051516 = some (.partctl 5 21 22) := by
  decide +kernel

/-- Words that are no instruction: an unassigned opcode, a register or field out of its class, a code that the map does not list (07 R207, R211, R212, R217 to R229). -/
theorem test_decode_refused :
    decode 0x30800000 = none ∧
    decode 0xF0123456 = none ∧
    decode 0xFF000000 = none ∧
    decode 0x06030000 = none ∧
    decode 0x0E080000 = none ∧
    decode 0x0F200000 = none ∧
    decode 0x05100000 = none ∧
    decode 0x12010304 = none ∧
    decode 0x18100000 = none ∧
    decode 0x181B0000 = none ∧
    decode 0x18270000 = none ∧
    decode 0x19001204 = none ∧
    decode 0x1D404140 = none ∧
    decode 0x27041100 = none ∧
    decode 0x200420D8 = none ∧
    decode 0x200420D0 = none ∧
    decode 0x2A201080 = none ∧
    decode 0x2A041086 = none ∧
    decode 0x2C0420C8 = none ∧
    decode 0x39050000 = none ∧
    decode 0x42042006 = none ∧
    decode 0x47042000 = none ∧
    decode 0x500420CC = none ∧
    decode 0x59660102 = none ∧
    decode 0x59C60102 = none ∧
    decode 0x5AE60102 = none ∧
    decode 0x70048328 = none ∧
    decode 0x70048314 = none ∧
    decode 0x70048323 = none ∧
    decode 0x71048310 = none ∧
    decode 0x72048311 = none ∧
    decode 0x7304A010 = none ∧
    decode 0x73048320 = none ∧
    decode 0x76048318 = none ∧
    decode 0x76408320 = none ∧
    decode 0x78104400 = none ∧
    decode 0x78104040 = none ∧
    decode 0x93041006 = none ∧
    decode 0xA0048308 = none ∧
    decode 0xA0048317 = none ∧
    decode 0xA6048316 = none ∧
    decode 0xA5048315 = none ∧
    decode 0xB0720418 = none ∧
    decode 0xB082041C = none ∧
    decode 0xB8201000 = none ∧
    decode 0xB8048001 = none ∧
    decode 0xC2010000 = none ∧
    decode 0xC4300107 = none ∧
    decode 0xCB042001 = none ∧
    decode 0xCB042011 = none ∧
    decode 0xCC042000 = none ∧
    decode 0xD5040006 = none ∧
    decode 0xD6040003 = none ∧
    decode 0xE0030102 = none ∧
    decode 0xE1000301 = none ∧
    decode 0xE1002000 = none ∧
    decode 0xE4030100 = none ∧
    decode 0xE4100100 = none ∧
    decode 0xE7000100 = none ∧
    decode 0xEC060102 = none := by
  decide +kernel

/-! Hypotheses that are met: encoding, steps, faults (O1 to O11). -/

theorem test_hyp_DecodeOfEncode : (Instr.qpop 63 14).isWord = true ∧ (Instr.qpop 63 14).wf = true ∧
    (Instr.partctl 5 31 31).isWord = true ∧ (Instr.partctl 5 31 31).wf = true ∧ (Instr.fcvtS .n64 .e2m1 31 0).isWord = true ∧
    (Instr.fcvtS .n64 .e2m1 31 0).wf = true := by decide +kernel

theorem test_hyp_DecodeIsCanonical : decode 0x200C1080 = some (.vop .add 3 1 2) ∧ decode 0xE702_0000 = some .startPart := by
  decide +kernel

theorem test_hyp_StepRunsDecodedWord : bench.nextMove = .issue 0 0 ∧
    (bench.gang? 0 0).any (fun g => bench.source 0 g == .memory (.word 0x0E030000) && (bench.source 0 g).word? == some 0x0E030000) := by
  decide +kernel

/-- A gang that follows a stream whose packet has come. -/
def benchStream : State := benchG (fun g => { g with chan := { g.chan with role := .subscriber, chan := 1, buf := [packet true] } })

theorem test_hyp_StepRunsDecodedWord_packet : benchStream.nextMove = .issue 0 0 ∧
    (benchStream.gang? 0 0).any (fun g => benchStream.source 0 g == .packet (packet true)) := by
  decide +kernel

theorem test_hyp_EveryStepMovesOn : (∃ g, Runs bench g .u [] ∧ g.priv = .p) ∧
    (Instr.nop).isWord = true ∧ State.reset.me? = none := by
  refine ⟨runs_of (by decide +kernel), by decide +kernel⟩

theorem test_hyp_StepKeepsMemoryForm : bench.dram.wf = true ∧ bench.host.wf = true ∧ bench.dram ≠ [] ∧
    ∃ t, step bench = .next t ∧ (t.dram == bench.dram) = true :=
  ⟨by decide +kernel, by decide +kernel, by decide +kernel, next_of (by decide +kernel)⟩

/-- Two gangs of level U on core (0,0) beside the boot gang. -/
def benchThree : State := (bench.setGang 0 3 { Gang.fresh with allot := 16 }).setGang 0 7 { Gang.fresh with allot := 16 }

theorem test_hyp_RetiringMovesPcOnly : (∃ g, benchThree.gang? 0 0 = some g ∧ g.status = .running) ∧
    (∃ h, benchThree.gang? 0 7 = some h ∧ h.priv = .u) :=
  ⟨gang_of (by decide +kernel), gang_of (by decide +kernel)⟩

theorem test_hyp_GangFaultFreezesBeforeEffect : ∃ g, benchThree.gang? 0 3 = some g ∧ g.tx.active = false :=
  gang_of (by decide +kernel)

theorem test_hyp_TrapBreakAndUnassignedWords : (∃ g, Runs bench g .u [] ∧ g.priv = .p) ∧ decode 0xFF000000 = none ∧
    (∃ g, Runs (benchG (fun g => { g with priv := .u })) g .u [] ∧ g.priv = .u) ∧ decode 0xE0030000 = none ∧
    opcodeNeed (bits (0xE0030000#32) 31 24) = .p :=
  ⟨runs_of (by decide +kernel), by decide +kernel, runs_of (by decide +kernel), by decide +kernel⟩

theorem test_hyp_LevelAndAllotmentFaults :
    (∃ g, Runs (benchG (fun g => { g with priv := .s })) g .u [] ∧ (Spec.level (.supsetCore 1 2)).le g.priv = false) ∧
    (∃ g, Runs (benchG (fun g => { g with priv := .u })) g .u [] ∧ (Spec.level (.objinv 1)).le g.priv = false) ∧
    (∃ g, Runs (benchG (fun g => { g with allot := 16 })) g .u [] ∧ g.vLimit = 16) ∧ (16#6) ∈ Spec.vNamed (.vop .add 0 15 16) :=
  ⟨runs_of (by decide +kernel), runs_of (by decide +kernel), runs_of (by decide +kernel), by decide +kernel⟩

/-! Integer words (O12 to O16): each element type of R82 (ETYPE 0 to 5), a type that is refused, both SAT values. -/

theorem test_hyp_MultiplyAddsSaturateOnce :
    (∃ g, Runs (benchM 0) g .u [63, 62, 61] ∧ etypeInt (modeEtype g.regs.mode) = some ⟨32, true⟩) ∧
    (∃ g, Runs (benchM 0x1018) g .u [0, 1, 2] ∧ etypeInt (modeEtype g.regs.mode) = some ⟨16, false⟩ ∧ modeSat g.regs.mode = true) ∧
    (∃ g, Runs (benchM 0x20) g .u [3, 3, 3] ∧ etypeInt (modeEtype g.regs.mode) = some ⟨8, true⟩) :=
  ⟨runs_of (by decide +kernel), runs_of (by decide +kernel), runs_of (by decide +kernel)⟩

theorem test_hyp_IntegerArithmetic : (∃ g, Runs bench g .u [] ∧ g.s 0 = 0) ∧
    (∃ g, Runs (benchM 0x28) g .u [1, 2, 63] ∧ (Spec.vForm g (.vop .avg 1 2 63)).isSome = true ∧ aluTy .avg (modeEtype g.regs.mode) = some ⟨8, false⟩) ∧
    (∃ g, Runs (benchM 0x40) g .u [1, 2] ∧ aluTy .xor (modeEtype g.regs.mode) ≠ none) ∧
    (∃ g, Runs (benchM 0x30) g .u [1, 2] ∧ 5 < modeEtype g.regs.mode ∧ bitwiseOp .add = false) ∧
    (∃ g, Runs (benchM 0x50) g .u [1, 2] ∧ 8 < modeEtype g.regs.mode) ∧
    (etypeInt 4 = some ⟨8, true⟩ ∧ 0x80 < 2 ^ 8 ∧ 8 ≤ 8 ∧ 8 < 256) ∧ etypeInt 1 = some ⟨32, false⟩ ∧ 255 < 2 ^ 32 := by
  and_intros <;> first | exact runs_of (by decide +kernel) | decide +kernel

theorem test_hyp_ScalarResultsAndCompares :
    (∃ g, Runs bench g .u [] ∧ Spec.sResult g (.lih 31 0xFFFF 3) = some (31, 0xFFFF000000000000)) ∧
    (∃ g, Runs (benchM 0) g .u [1, 2] ∧ modeEtype g.regs.mode ≤ 1) ∧ (∃ g, Runs (benchM 8) g .u [63] ∧ modeEtype g.regs.mode = 1) ∧
    CmpOp.vectorLegal .tst = true :=
  ⟨runs_of (by decide +kernel), runs_of (by decide +kernel), runs_of (by decide +kernel), by decide +kernel⟩

theorem test_hyp_LanesMoveAndReduce :
    (∃ g, Runs (benchM 0x60) g .u [63, 62, 61] ∧ modeEtype g.regs.mode = 12 ∧ (Spec.laneMove g (.shfl 63 62 61)).isSome = true) ∧
    (∃ g, Runs (benchM 8) g .u [1, 2] ∧ modeEtype g.regs.mode ≤ 1) ∧
    (∃ g, Runs (benchM 0x30) g .u [1] ∧ modeEtype g.regs.mode = 6 ∧ VredKind.float .fadd = true ∧
      (g.vredFloat .fmax 1).1.length = 32) ∧
    (∃ g, Runs (benchR (fun r => { r with mode := 0x30, exm := 0 })) g .u [1] ∧ modeEtype g.regs.mode = 6 ∧ g.active = 0) :=
  ⟨runs_of (by decide +kernel), runs_of (by decide +kernel), runs_of (by decide +kernel), runs_of (by decide +kernel)⟩

theorem test_hyp_StatusWrites : (∃ g, Runs bench g .u [] ∧ Spec.modeOk g.regs.mode) ∧
    (∃ g, Runs (benchG (fun g => g.setS 4 0x3D4D37)) g .u [] ∧ (g.s 4).toNat < 2 ^ 32 ∧ Spec.modeOk ((g.s 4).truncate 32)) ∧
    (∃ g, Runs (benchG (fun g => g.setS 4 0x100000000)) g .u [] ∧ ¬ (g.s 4).toNat < 2 ^ 32) ∧
    (∃ g, Runs (benchG (fun g => g.setS 4 0x600)) g .u [] ∧ ¬ Spec.modeOk ((g.s 4).truncate 32)) ∧
    (∃ g, Runs (benchG (fun g => g.setS 4 31)) g .u [] ∧ (g.s 4).toNat < 32) ∧
    (∃ g, Runs (benchG (fun g => g.setS 4 32)) g .u [] ∧ 32 ≤ (g.s 4).toNat) := by
  and_intros <;> exact runs_of (by decide +kernel)

theorem test_hyp_FloatingPoint :
    (∃ g, Runs (benchM 0x30) g .u [1, 2, 3] ∧ Spec.fpTakes .fexp2 (modeEtype g.regs.mode) = some f32) ∧
    (∃ g, Runs (benchM 0x38) g .u [1, 2, 3] ∧ Spec.fpTakes .fadd (modeEtype g.regs.mode) = some f16) ∧
    (∃ g, Runs (benchM 0x40) g .u [1, 2] ∧ Spec.fpTakes .fcpys (modeEtype g.regs.mode) = some bf16) ∧
    (∃ g, Runs (benchM 0x60) g .u [1, 2] ∧ modeEtype g.regs.mode ≠ 13 ∧ modeEtype g.regs.mode ≠ 14) ∧
    (∃ g, Runs bench g .u [] ∧ g.s 31 = 0) ∧ (0xFFFF < 2 ^ f16.width ∧ 0x8000 < 2 ^ bf16.width) := by
  and_intros <;> first | exact runs_of (by decide +kernel) | decide +kernel

theorem test_hyp_FloatingPoint_numbers :
    Spec.isNum f32 false 0x3F800000 1 ∧ Spec.isNum f32 true 0x80000000 0 ∧ Spec.isNum bf16 true 1 0 ∧
    Spec.isNum f16 false 1 ((2 : ℝ) ^ (-24 : ℤ)) ∧ Spec.isNum e4m3 false 0x7E 448 ∧ (0x80000000 < 2 ^ f32.width ∧ 1 < 2 ^ bf16.width) ∧
    Spec.isNan f32 0x7F800001 ∧ Spec.isSnan f32 0x7F800001 ∧ ¬ Spec.isSnan f32 0x7FC00000 ∧ Spec.isInf f16 0x7C00 ∧ Spec.isNan e4m3 0xFF ∧
    Spec.cvtFloat .e4m3 = some e4m3 ∧ Spec.cvtFloat .f32 = some f32 ∧ Spec.cvtInt .n64 = some (64, false) ∧ Spec.cvtInt .i8 = some (8, true) := by
  and_intros <;> first | decide | norm_num [f32, f16, bf16, e4m3]

/-- Binary exponents and units of the spacing: 1 in f32, the least subnormal, tiny under FTZ, and a value beyond f16's largest. -/
theorem test_hyp_FloatingPoint_rounded :
    ((2 : ℝ) ^ (0 : ℤ) ≤ |1| ∧ |(1 : ℝ)| < 2 ^ (0 + 1 : ℤ) ∧ Int.fract ((1 : ℝ) / 2 ^ (-23 : ℤ)) = 0) ∧
    ((2 : ℝ) ^ (-149 : ℤ) ≤ |2 ^ (-149 : ℤ)| ∧ |(2 : ℝ) ^ (-149 : ℤ)| < 2 ^ (-149 + 1 : ℤ) ∧ (-149 : ℤ) < 1 - (f32.bias : ℤ)) ∧
    ((2 : ℝ) ^ (16 : ℤ) ≤ |65536| ∧ |(65536 : ℝ)| < 2 ^ (16 + 1 : ℤ) ∧ ((2 - 2 ^ (-f16.fbits : ℤ)) * 2 ^ f16.bias : ℝ) < 65536) ∧
    (f32 ∈ [f32, f16, bf16] ∧ bf16 ∈ [f32, f16, bf16]) := by
  have h : ((2 : ℝ) ^ (-23 : ℤ))⁻¹ = ((8388608 : ℤ) : ℝ) := by norm_num
  refine ⟨⟨by norm_num, by norm_num, ?_⟩, ⟨le_abs_self _, ?_, by decide⟩, ⟨by norm_num, by norm_num, by norm_num [f16]⟩, by decide⟩
  · rw [one_div, h, Int.fract_intCast]
  · rw [abs_of_pos (by positivity)]; norm_num

theorem test_hyp_LanesMoveAndReduce_float :
    ∃ g, Runs (benchR (fun r => { r with mode := 0x30, exm := 0x80000001, v := r.v.set 1 (Vector.replicate 32 0x3F800000) })) g .u [1] ∧
      (g.vredFloat .fadd 1).1 = [] ++ (0, 0x3F800000) :: (31, 0x40000000) :: [] := runs_of (by decide +kernel)

/-! Control (O18 to O21): inside and outside a stream, taken and not, at both ends of the mask stack. -/

theorem test_hyp_ControlTransfers :
    (∃ g, Runs (benchR (fun r => { r with p := r.p.set 1 1#32 })) g .u [] ∧ Spec.test g ⟨false, 1⟩ 0 ∧ ¬ Spec.test g ⟨true, 1⟩ 0 ∧
      ¬ ∀ n, Mask.has g.active n = true → Spec.test g ⟨false, 1⟩ n) ∧
    bench.cur.stream = none ∧ (State.streamed bench true).cur.stream ≠ none ∧ (∃ g, Runs (State.streamed bench true) g .u [] ∧ g.s 1 = 0) ∧
    (∃ g, Runs (benchG (fun g => (g.setS 5 0x10000000FFC).setS 31 0x10000000FFC)) g .u [] ∧ (g.s 5).toNat % 4 = 0 ∧ (g.s 31).toNat % 4 = 0) ∧
    (∃ g, Runs (benchG (fun g => (g.setS 5 2).setS 31 1)) g .u [] ∧ (g.s 5).toNat % 4 ≠ 0 ∧ (g.s 31).toNat % 4 ≠ 0) := by
  and_intros <;> first | exact runs_of (by decide +kernel) | decide +kernel

/-- The boot gang with a mask stack. -/
def benchStack (st : List Entry) : State := benchG (fun g => { g with stack := st })

def full32 : List Entry := List.replicate 32 ⟨0xF, .if_, 0⟩

theorem test_hyp_StructuredControl :
    (∃ g, Runs (benchStack (full32.drop 1)) g .u [] ∧ g.stack.length < 32) ∧ (∃ g, Runs (benchStack full32) g .u [] ∧ 32 ≤ g.stack.length) ∧
    (∃ g, Runs (benchStack [⟨0xF, .if_, 0⟩]) g .u [] ∧ g.stack = ⟨0xF, .if_, 0⟩ :: []) ∧
    (∃ g, Runs (benchStack [⟨0xF, .else_, 0⟩]) g .u [] ∧ g.stack = ⟨0xF, .else_, 0⟩ :: []) ∧ (∃ g, Runs bench g .u [] ∧ g.stack = []) ∧
    (∃ g, Runs (benchStack [⟨0xF, .loop, 1⟩]) g .u [] ∧ g.stack = ⟨0xF, .loop, 1⟩ :: [] ∧
      (0xF#32) &&& ~~~ 1#32 &&& ~~~ g.regs.pkm &&& Spec.testMask g ⟨false, 0⟩ ≠ 0 ∧
      (0xF#32) &&& ~~~ 1#32 &&& ~~~ g.regs.pkm &&& Spec.testMask g ⟨true, 0⟩ = 0) ∧
    (∃ g, Runs (benchStack [⟨1, .if_, 0⟩, ⟨3, .else_, 0⟩, ⟨0xF, .loop, 1⟩, ⟨0xFF, .loop, 0⟩]) g .u [] ∧
      g.stack = [⟨1, .if_, 0⟩, ⟨3, .else_, 0⟩] ++ ⟨0xF, .loop, 1⟩ :: [⟨0xFF, .loop, 0⟩]) ∧
    (State.streamed bench true).cur.stream = some (packet true) ∧ (State.streamed bench false).cur.stream = some (packet false) := by
  and_intros <;> first | exact runs_of (by decide +kernel) | decide +kernel

theorem test_hyp_IdleConvergeExit :
    (∃ g, Runs bench g .u [] ∧ g.regs.pkm = 0 ∧ g.replay = false ∧ (∀ e ∈ g.stack, e.kind ≠ .tx) ∧ g.partner = none ∧
      bench.engineBusy bench.cur.core bench.cur.slot = false) ∧
    (∃ g, Runs (benchR (fun r => { r with pkm := 1 })) g .u [] ∧ g.regs.pkm ≠ 0 ∧ g.replay = false) ∧
    (∃ g, Runs (benchG (fun g => { g with selIn := [{ vals := Lanes.of (fun _ => 0), mask := 1, param := 0, ftz := false, lt := 0 }] })) g .u [] ∧ g.regs.pkm = 0 ∧
      (benchG (fun g => { g with selIn := [{ vals := Lanes.of (fun _ => 0), mask := 1, param := 0, ftz := false, lt := 0 }] })).engineBusy 0 0 = true) ∧
    (∃ g, (benchG (fun g => { g with status := .waiting { why := .exit, since := 0 } })).gang? 0 0 = some g ∧ g.why? = some .exit ∧ g.partner = none ∧
      (benchG (fun g => { g with status := .waiting { why := .exit, since := 0 } })).engineBusy 0 0 = false) :=
  ⟨runs_of (by decide +kernel), runs_of (by decide +kernel), runs_of (by decide +kernel), gang_of (by decide +kernel)⟩

theorem test_hyp_GangInstructionFrame : (Spec.computes (.fop .fadd 1 2 3)).isSome = true ∧ (Spec.controls (.callr 4)).isSome = true ∧
    (∃ t, exec (.callr 4) bench = .next t ∧ (bench.meIn t).any (fun g' => g'.status == .running) = true) ∧
    (∃ t, exec (.fop .fadd 1 2 3) (benchM 0x30) = .next t ∧ ((benchM 0x30).meIn t).any (fun g' => g'.status == .running) = true) :=
  ⟨by decide +kernel, by decide +kernel, next_of (by decide +kernel), next_of (by decide +kernel)⟩

/-! Loads and stores (O22 to O27): a place at the last word below the packet region, LOCAL and object space, each qualifier. -/

/-- The executing gang of a small state. -/
def me (s : State) : Gang := s.me?.getD Gang.fresh

theorem runs_me {s : State} {need : Priv} {vs : List Nat} (h : runsB s need vs (fun _ => true) = true) : Runs s (me s) need vs := by
  unfold runsB at h
  cases e : s.me? with
  | none => simp [e] at h
  | some g =>
    simp only [e, Option.any_some, Bool.and_eq_true, beq_iff_eq, List.all_eq_true, decide_eq_true_eq] at h
    have hg : me s = g := by simp [me, e]
    exact ⟨by rw [hg]; exact e, by rw [hg]; exact h.1.1.1, by rw [hg]; exact h.1.1.2, by rw [hg]; exact h.1.2⟩

def okB {α ε : Type} (e : Except ε α) (q : α → Bool) : Bool :=
  match e with
  | .ok r => q r
  | .error _ => false

theorem ok_of {α ε : Type} {e : Except ε α} {q : α → Prop} [DecidablePred q] (h : okB e (fun r => decide (q r)) = true) :
    ∃ r, e = .ok r ∧ q r := by
  cases e with
  | ok r => exact ⟨r, rfl, by simpa [okB] using h⟩
  | error f => simp [okB] at h

/-- V1 and S1 index the last word of LOCAL below the packet region; C0 holds A besides. -/
def benchLast : State := benchG (fun g => ((g.setVAll 1 (Vector.replicate 32 0xDBFF)).setS 1 0xDBFF).setC 0
  (Cap.mk' 0 (pA + pR + pW + pK) 0 0 padEnd true))

/-- The same, with its granule full. -/
def benchFull : State := benchLast.modCtx 0 (fun x => { x with full := [0x36FF] })

def loadTargets (s : State) (m : VMem) (sz : Size) (q : LoadQ) (r : Reach) : List (Fin 32 × LaneRes) :=
  s.laneTargets (me s) ((me s).c m.cap) m.cap.toNat m.am.toNat .load (modeOosz (me s).regs.mode) false (q == .sc) r (sizeBytes sz)
    ((me s).vIndex m)

/-- The lanes of LD that read a lost granule. -/
def lostOf (s : State) (m : VMem) (sz : Size) (q : LoadQ) (r : Reach) : List (Fin 32 × Flt) :=
  s.lostLanes (loadTargets s m sz q r) (sizeBytes sz) ((me s).c m.cap) m.cap.toNat

/-- The last granule below the packet region is lost (02 R60); lane 0 alone, or every lane, reads it. -/
def benchLost (all : Bool) : State :=
  (if all then benchFull else benchG (fun g => ((g.setVAll 1 ((Vector.replicate 32 0).set 0 0xDBFF)).setS 1 0xDBFF).setC 0
    (Cap.mk' 0 (pA + pR + pW + pK) 0 0 padEnd true))).modCtx 0 (fun x => { x with lost := (List.range 16).map (fun i => 0x36FF0 + i) })

def locs (ts : List (Fin 32 × LaneRes)) : List Loc := ts.filterMap (fun t => t.2.loc?)

/-- The hypotheses of Spec.vectorLoads for LD of V2, with those of a clause. -/
def LoadMeets (s : State) (m : VMem) (sz : Size) (q : LoadQ) (clause : Reach → List Loc → Prop) : Prop :=
  Runs s (me s) .u (vNames 2 (sizeRegs sz) m) ∧ modeEtype (me s).regs.mode ≠ 13 ∧ modeEtype (me s).regs.mode ≠ 14 ∧
    (me s).tx.active = false ∧
    ∃ r, s.openAccess (me s) ((me s).c m.cap) m.cap.toNat m.am.toNat pR (q == .fe || q == .fk) (q == .sc) false = .ok r ∧
      (s.laneStops (loadTargets s m sz q r)).isNone = true ∧ Spec.plain (loadTargets s m sz q r) ∧
      (locs (loadTargets s m sz q r)).length = 32 ∧ clause r (locs (loadTargets s m sz q r))

theorem load_of {s : State} {m : VMem} {sz : Size} {q : LoadQ} {clause : Reach → List Loc → Prop} [∀ r l, Decidable (clause r l)]
    (h1 : runsB s .u (vNames 2 (sizeRegs sz) m) (fun _ => true) = true)
    (h2 : (modeEtype (me s).regs.mode != 13 && modeEtype (me s).regs.mode != 14 && !(me s).tx.active) = true)
    (h3 : okB (s.openAccess (me s) ((me s).c m.cap) m.cap.toNat m.am.toNat pR (q == .fe || q == .fk) (q == .sc) false) (fun r => decide ((s.laneStops (loadTargets s m sz q r)).isNone = true ∧ Spec.plain (loadTargets s m sz q r) ∧
          (locs (loadTargets s m sz q r)).length = 32 ∧ clause r (locs (loadTargets s m sz q r)))) = true) : LoadMeets s m sz q clause := by
  simp only [Bool.and_eq_true, bne_iff_ne, Bool.not_eq_true'] at h2
  exact ⟨runs_me h1, h2.1.1, h2.1.2, h2.2, ok_of h3⟩

/-- Function 0 may master the bus. -/
def benchSys : State := { bench with funcs := bench.funcs.set 0 { bench.funcs[0] with bme := true } }

/-- The boot gang's copy channel 15 ends at the packet region, with nothing written yet. -/
def benchMark : State := benchLast.modCtx 0 (fun x => { x with chans := x.chans.set 15 (some ⟨0x36FF0, 16, []⟩) })

theorem test_hyp_LoadsComplete_vector :
    LoadMeets benchLast ⟨0, 1, 0⟩ .w .plain (fun r ls => r.isSys = false ∧ benchLast.belowMark r ls 4 = false ∧
      lostOf benchLast ⟨0, 1, 0⟩ .w .plain r = []) ∧
    LoadMeets bench ⟨2, 1, 0⟩ .d .plain (fun r ls => r.isObject = true ∧ bench.belowMark r ls 8 = false ∧
      lostOf bench ⟨2, 1, 0⟩ .d .plain r = []) ∧
    LoadMeets benchFull ⟨0, 1, 0⟩ .w .fe (fun r ls => benchFull.allFull ls 4 = true ∧ benchFull.anyBusy ls 4 = false ∧
      lostOf benchFull ⟨0, 1, 0⟩ .w .fe r = []) ∧
    LoadMeets benchFull ⟨0, 1, 0⟩ .w .fk (fun r ls => benchFull.allFull ls 4 = true ∧ benchFull.anyBusy ls 4 = false ∧
      lostOf benchFull ⟨0, 1, 0⟩ .w .fk r = []) ∧
    LoadMeets benchLast ⟨0, 1, 0⟩ .w .fk (fun _ ls => benchLast.allFull ls 4 = false) ∧
    LoadMeets benchMark ⟨0, 1, 0⟩ .w .plain (fun r ls => benchMark.belowMark r ls 4 = true) ∧
    LoadMeets benchSys ⟨3, 1, 0⟩ .w .plain (fun r ls => r.isSys = true ∧ ls ≠ [] ∧ benchSys.belowMark r ls 4 = false) ∧
    LoadMeets bench ⟨2, 1, 0⟩ .d .sc (fun r _ => r.isObject = true) :=
  ⟨load_of (by decide +kernel) (by decide +kernel) (by decide +kernel), load_of (by decide +kernel) (by decide +kernel) (by decide +kernel),
    load_of (by decide +kernel) (by decide +kernel) (by decide +kernel), load_of (by decide +kernel) (by decide +kernel) (by decide +kernel),
    load_of (by decide +kernel) (by decide +kernel) (by decide +kernel), load_of (by decide +kernel) (by decide +kernel) (by decide +kernel),
    load_of (by decide +kernel) (by decide +kernel) (by decide +kernel), load_of (by decide +kernel) (by decide +kernel) (by decide +kernel)⟩

/-- The target of a scalar access through the capability of m. -/
def oneTarget (s : State) (m : SMem) (sz : Size) (k : Into) (store home : Bool) (r : Reach) : LaneRes :=
  s.framed (me s) store home (sizeBytes sz) ((me s).c m.cap) m.cap.toNat
    (s.target s.cur.core ((me s).c m.cap) m.cap.toNat m.am.toNat k (!store && modeOosz (me s).regs.mode) r (sizeBytes sz)
      ((me s).sIndex m).1 ((me s).sIndex m).2)

/-- The hypotheses of Spec.scalarLoads, with those of a clause. -/
def ScalarLoadMeets (s : State) (m : SMem) (sz : Size) (q : LoadQ) (clause : Reach → List Loc → Prop) : Prop :=
  Runs0 s (me s) ∧ (me s).txLane = none ∧ ¬ (m.am = 3 ∧ m.idx = 31) ∧
    ∃ r, s.openAccess (me s) ((me s).c m.cap) m.cap.toNat m.am.toNat pR (q == .fe || q == .fk) (q == .sc) false = .ok r ∧
      (s.oneStop (oneTarget s m sz .load false (q == .sc) r)).isNone = true ∧
      (oneTarget s m sz .load false (q == .sc) r).window? = none ∧
      clause r (oneTarget s m sz .load false (q == .sc) r).loc?.toList

theorem scalarLoad_of {s : State} {m : SMem} {sz : Size} {q : LoadQ} {clause : Reach → List Loc → Prop} [∀ r l, Decidable (clause r l)]
    (h1 : runsB s .u [] (fun _ => true) = true) (h2 : (me s).txLane = none) (h4 : ¬ (m.am = 3 ∧ m.idx = 31))
    (h3 : okB (s.openAccess (me s) ((me s).c m.cap) m.cap.toNat m.am.toNat pR (q == .fe || q == .fk) (q == .sc) false) (fun r => decide ((s.oneStop (oneTarget s m sz .load false (q == .sc) r)).isNone = true ∧
          (oneTarget s m sz .load false (q == .sc) r).window? = none ∧
          clause r (oneTarget s m sz .load false (q == .sc) r).loc?.toList)) = true) : ScalarLoadMeets s m sz q clause :=
  ⟨runs_me h1, h2, h4, ok_of h3⟩

theorem test_hyp_LoadsComplete_scalar :
    ScalarLoadMeets benchLast ⟨0, 1, 0⟩ .w .plain (fun r ls => r.isSys = false ∧ benchLast.belowMark r ls 4 = false ∧
      benchLast.lostLane (oneTarget benchLast ⟨0, 1, 0⟩ .w .load false false r) 4 = false) ∧
    ScalarLoadMeets benchFull ⟨0, 1, 0⟩ .w .fe (fun r ls => benchFull.allFull ls 4 = true ∧ benchFull.anyBusy ls 4 = false ∧
      benchFull.lostLane (oneTarget benchFull ⟨0, 1, 0⟩ .w .load false false r) 4 = false) ∧
    ScalarLoadMeets benchLast ⟨0, 1, 0⟩ .w .fk (fun _ ls => benchLast.allFull ls 4 = false) ∧
    ScalarLoadMeets benchMark ⟨0, 1, 0⟩ .w .plain (fun r ls => benchMark.belowMark r ls 4 = true) ∧
    ScalarLoadMeets benchSys ⟨3, 0, 0⟩ .d .plain (fun r ls => r.isSys = true ∧ benchSys.belowMark r ls 8 = false) ∧
    ScalarLoadMeets bench ⟨2, 31, 0⟩ .d .sc (fun r _ => r.isObject = true) :=
  ⟨scalarLoad_of (by decide +kernel) (by decide +kernel) (by decide +kernel) (by decide +kernel),
    scalarLoad_of (by decide +kernel) (by decide +kernel) (by decide +kernel) (by decide +kernel),
    scalarLoad_of (by decide +kernel) (by decide +kernel) (by decide +kernel) (by decide +kernel),
    scalarLoad_of (by decide +kernel) (by decide +kernel) (by decide +kernel) (by decide +kernel),
    scalarLoad_of (by decide +kernel) (by decide +kernel) (by decide +kernel) (by decide +kernel),
    scalarLoad_of (by decide +kernel) (by decide +kernel) (by decide +kernel) (by decide +kernel)⟩

/-- Lost granules: every lane, one lane, or the scalar access reads one. -/
theorem test_hyp_LoadsComplete_lost :
    LoadMeets (benchLost true) ⟨0, 1, 0⟩ .w .plain (fun r ls => (benchLost true).belowMark r ls 4 = false ∧
      laneMask ((lostOf (benchLost true) ⟨0, 1, 0⟩ .w .plain r).map Prod.fst) = (me (benchLost true)).active) ∧
    LoadMeets (benchLost true) ⟨0, 1, 0⟩ .w .fe (fun r ls => (benchLost true).allFull ls 4 = true ∧ (benchLost true).anyBusy ls 4 = false ∧
      laneMask ((lostOf (benchLost true) ⟨0, 1, 0⟩ .w .fe r).map Prod.fst) = (me (benchLost true)).active) ∧
    LoadMeets (benchLost false) ⟨0, 1, 0⟩ .w .plain (fun r ls => (benchLost false).belowMark r ls 4 = false ∧
      laneMask ((lostOf (benchLost false) ⟨0, 1, 0⟩ .w .plain r).map Prod.fst) = 1 ∧ (me (benchLost false)).active ≠ 1) ∧
    ScalarLoadMeets (benchLost true) ⟨0, 1, 0⟩ .w .plain (fun r ls => (benchLost true).belowMark r ls 4 = false ∧
      (benchLost true).lostLane (oneTarget (benchLost true) ⟨0, 1, 0⟩ .w .load false false r) 4 = true) ∧
    (∀ b, (∀ n : Fin 32, ((me (benchLost b)).tx.lanes[n]).isOpen = false) ∧ ∀ n : Fin 8, (me (benchLost b)).parked[n] = none) ∧
    State.reset.noCore 0 = false :=
  ⟨load_of (by decide +kernel) (by decide +kernel) (by decide +kernel), load_of (by decide +kernel) (by decide +kernel) (by decide +kernel),
    load_of (by decide +kernel) (by decide +kernel) (by decide +kernel),
    scalarLoad_of (by decide +kernel) (by decide +kernel) (by decide +kernel) (by decide +kernel),
    by decide +kernel⟩

theorem test_hyp_LocalBytes :
    Spec.quiet benchLast ∧ (me benchLast).tx.active = false ∧ (me benchLast).txLane = none ∧
    Memory.wf (benchLast.ctx benchLast.cur.core).pad = true ∧ Runs benchLast (me benchLast) .u (vNames 63 (sizeRegs .w) ⟨0, 1, 0⟩) ∧
    modeEtype (me benchLast).regs.mode ≠ 13 ∧ modeEtype (me benchLast).regs.mode ≠ 14 ∧ Spec.localCap ((me benchLast).c 0) (pR + pW) ∧
    Spec.localCap ((me benchLast).c 0) pR ∧ Spec.localCap ((me benchLast).c 0) pW ∧
    (∀ n : Fin 32, Spec.inPad ((me benchLast).c 0) (((me benchLast).v 1)[n].toInt * 4) 4 4) ∧
    (∀ n : Fin 32, Spec.inPad ((me bench).c 0) (((me bench).v 1)[n].toInt * 16) 16 16) ∧
    Spec.inPad ((me benchLast).c 0) (((me benchLast).s 1).truncate 32).toInt 1 1 :=
  ⟨by decide +kernel, by decide +kernel, by decide +kernel, by decide +kernel, runs_me (by decide +kernel), by decide +kernel⟩

/-- C0 is LOCAL over 64 KiB from byte 2; V1 goes in halfwords, lane 3 past the end and lane 9 too; S1 to S3 are in range, past it, and
in it but no word. -/
def benchFaults (exm : Word) : State := benchLast.modGang 0 0 (fun g =>
  let h := (((g.setVAll 1 (Lanes.of (fun i => if i = 3 then 0x8000 else if i = 9 then 0x8001 else BitVec.ofNat 32 (0x10 + i.val)))).setC 0
    (Cap.mk' 0 (pA + pR + pW + pK) 0 2 0x10000 true)).setS 1 0x7FFF).setS 2 0x8000
  { h with regs := { h.regs with exm := exm } })

/-- The offset of a lane, and what its access of z bytes meets. -/
def offAt (s : State) (z : Nat) (n : Fin 32) : Int := (((me s).c 0).origin : Int) + ((me s).v 1)[n].toInt * z
def codeAt (s : State) (z : Nat) (n : Fin 32) : Option Code := Spec.padFault ((me s).c 0) (offAt s z n) z

theorem test_hyp_LocalBytes_faults :
    (∀ m ∈ [(0xFFFFFFFF : Nat), 0x208], runsB (benchFaults (BitVec.ofNat 32 m)) .u (vNames 4 (sizeRegs .q) ⟨0, 1, 0⟩) (fun _ => true) = true ∧
      Spec.quiet (benchFaults (BitVec.ofNat 32 m)) ∧ Memory.wf ((benchFaults (BitVec.ofNat 32 m)).ctx 0).pad = true ∧
      (me (benchFaults (BitVec.ofNat 32 m))).tx.active = false ∧ (me (benchFaults (BitVec.ofNat 32 m))).txLane = none ∧
      (∀ n : Fin 32, ((me (benchFaults (BitVec.ofNat 32 m))).tx.lanes[n]).isOpen = false) ∧
      (∀ n : Fin 8, (me (benchFaults (BitVec.ofNat 32 m))).parked[n] = none) ∧
      Spec.localCap ((me (benchFaults (BitVec.ofNat 32 m))).c 0) pR ∧ Spec.localCap ((me (benchFaults (BitVec.ofNat 32 m))).c 0) pW ∧
      ((me (benchFaults (BitVec.ofNat 32 m))).c 0).origin + ((me (benchFaults (BitVec.ofNat 32 m))).c 0).length ≤ 0x37000 ∧
      modeEtype (me (benchFaults (BitVec.ofNat 32 m))).regs.mode ≠ 13 ∧ modeEtype (me (benchFaults (BitVec.ofNat 32 m))).regs.mode ≠ 14) ∧
    (∀ n : Fin 32, codeAt (benchFaults 0xFFFFFFFF) 2 n = if n = 3 ∨ n = 9 then some .capBounds else none) ∧
    (codeAt (benchFaults 0x208) 2 3).isSome = true ∧ (codeAt (benchFaults 0x208) 2 9).isSome = true ∧
    codeAt (benchFaults 0xFFFFFFFF) 4 0 = some .misaligned ∧ codeAt (benchFaults 0xFFFFFFFF) 4 3 = some .capBounds ∧
    (let off (r : SReg) : Int := (((me (benchFaults 1)).c 0).origin : Int) + (((me (benchFaults 1)).s r).truncate 32).toInt * 2
     Spec.padFault ((me (benchFaults 1)).c 0) (off 1) 2 = none ∧ Spec.padFault ((me (benchFaults 1)).c 0) (off 2) 2 = some .capBounds ∧
     Spec.padFault ((me (benchFaults 1)).c 0) (off 0 + 1) 2 = some .misaligned) :=
  by decide +kernel

/-- The lanes that fault park with a record, and the others load (01 R29). -/
theorem test_ld_parks_lanes : (nextState? (exec (.ld 4 ⟨0, 1, 0⟩ .h .plain) (benchFaults 0xFFFFFFFF))).any (fun t =>
    (me t).status == .running && (me t).regs.pkm == 0x208 && (me t).regs.exm == 0xFFFFFDF7 &&
      ((me t).parked[0]).any (fun r => r.flt.code == .capBounds && r.lanes == 0x208)) = true := by decide +kernel

/-- C2 is object 2; V1 and S1 go past the last element of its one dimension, S2 before the first. -/
def benchShape : State := benchG (fun g =>
  let n := ((bench.record (bench.part 0) 2).dims.foldl (· * ·) 1)
  ((g.setVAll 1 (Vector.replicate 32 (BitVec.ofNat 32 n))).setS 1 (BitVec.ofNat 64 n)).setS 2 0xFFFFFFFFFFFFFFFF)

theorem test_hyp_LocalBytes_shape :
    (me benchShape).tx.active = false ∧ (me benchShape).txLane = none ∧ (∀ n : Fin 32, ((me benchShape).tx.lanes[n]).isOpen = false) ∧
    modeOosz (me benchShape).regs.mode = false ∧ Runs benchShape (me benchShape) .u (vNames 4 (sizeRegs .d) ⟨2, 1, 0⟩) ∧
    (∀ p ∈ [pR, pW], ∃ r, benchShape.openAccess (me benchShape) ((me benchShape).c 2) 2 0 p false false false = .ok (.object r) ∧
      r.dims ≠ [] ∧ (∀ x ∈ r.dims, 0 < x) ∧
      (∀ k : Fin 32, ((r.dims.foldl (· * ·) 1 : Nat) : Int) ≤ (((me benchShape).c 2).origin : Int) + ((me benchShape).v 1)[k].toInt) ∧
      ((r.dims.foldl (· * ·) 1 : Nat) : Int) ≤ (((me benchShape).c 2).origin : Int) + (((me benchShape).s 1).truncate 32).toInt ∧
      (((me benchShape).c 2).origin : Int) + (((me benchShape).s 2).truncate 32).toInt < 0) := by
  have h : ∀ p ∈ [pR, pW], okB (benchShape.openAccess (me benchShape) ((me benchShape).c 2) 2 0 p false false false) (fun x =>
      match x with
      | .object r => decide (r.dims ≠ [] ∧ (∀ x ∈ r.dims, 0 < x) ∧
        (∀ k : Fin 32, ((r.dims.foldl (· * ·) 1 : Nat) : Int) ≤ (((me benchShape).c 2).origin : Int) + ((me benchShape).v 1)[k].toInt) ∧
        ((r.dims.foldl (· * ·) 1 : Nat) : Int) ≤ (((me benchShape).c 2).origin : Int) + (((me benchShape).s 1).truncate 32).toInt ∧
        (((me benchShape).c 2).origin : Int) + (((me benchShape).s 2).truncate 32).toInt < 0)
      | _ => false) = true := by decide +kernel
  refine ⟨by decide +kernel, by decide +kernel, by decide +kernel, by decide +kernel, runs_me (by decide +kernel), fun p hp => ?_⟩
  have := h p hp
  unfold okB at this
  split at this
  · rename_i x e
    cases x with
    | object r => exact ⟨r, e, of_decide_eq_true this⟩
    | _ => simp at this
  · simp at this

def storeTargets (s : State) (m : VMem) (sz : Size) (r : Reach) : List (Fin 32 × LaneRes) :=
  s.laneTargets (me s) ((me s).c m.cap) m.cap.toNat m.am.toNat .other false true false r (sizeBytes sz) ((me s).vIndex m)

/-- An older load of the boot gang is still outstanding at the last word. -/
def benchBusy : State := benchLast.modCtx 0 (fun x => { x with
  seq := 8
  flights := [(7, { slot := 0, act := .load false, loc := .pad 0 0x36FFC, size := 4, dst := .s 9, lanes := [{ lane := 0 }] })] })

theorem test_hyp_StoresFinish :
    (Runs benchLast (me benchLast) .u (vNames 2 (sizeRegs .w) ⟨0, 1, 0⟩) ∧
      ∃ r, benchLast.openAccess (me benchLast) ((me benchLast).c 0) 0 0 pW false false false = .ok r ∧
        (benchLast.laneStops (storeTargets benchLast ⟨0, 1, 0⟩ .w r)).isNone = true ∧
        Spec.plain (storeTargets benchLast ⟨0, 1, 0⟩ .w r) ∧ r.isLocal = true ∧
        benchLast.anyBusy (locs (storeTargets benchLast ⟨0, 1, 0⟩ .w r)) 4 = false ∧
        (benchLast.oneStop (oneTarget benchLast ⟨0, 1, 0⟩ .w .other true false r)).isNone = true) ∧
    (∃ r, benchBusy.openAccess (me benchBusy) ((me benchBusy).c 0) 0 0 pW false false false = .ok r ∧
        (benchBusy.laneStops (storeTargets benchBusy ⟨0, 1, 0⟩ .w r)).isNone = true ∧ r.isLocal = true ∧
        benchBusy.anyBusy (locs (storeTargets benchBusy ⟨0, 1, 0⟩ .w r)) 4 = true) ∧
    (Runs bench (me bench) .u (vNames 2 (sizeRegs .d) ⟨2, 1, 0⟩) ∧
      ∃ r, bench.openAccess (me bench) ((me bench).c 2) 2 0 pW false false false = .ok r ∧
        (bench.laneStops (storeTargets bench ⟨2, 1, 0⟩ .d r)).isNone = true ∧
        Spec.plain (storeTargets bench ⟨2, 1, 0⟩ .d r) ∧ r.isLocal = false ∧
        (bench.oneStop (oneTarget bench ⟨2, 1, 0⟩ .d .other true false r)).isNone = true ∧
        (oneTarget bench ⟨2, 1, 0⟩ .d .other true false r).window? = none) :=
  ⟨⟨runs_me (by decide +kernel), ok_of (by decide +kernel)⟩, ok_of (by decide +kernel), runs_me (by decide +kernel), ok_of (by decide +kernel)⟩

/-- S1 indexes the last granule below the packet region; BA1 stands at its last byte but 31 fields of 8 bits. -/
def benchCap : State := benchG (fun g =>
  let g := g.setS 1 0x36FF
  { g with regs := { g.regs with ba := g.regs.ba.set 1 (BitVec.ofNat 48 (8 * 0x36FE0)) } })

theorem test_hyp_CapabilityAndFieldAccesses :
    Spec.quiet benchCap ∧ (me benchCap).tx.active = false ∧ (me benchCap).txLane = none ∧ Runs0 benchCap (me benchCap) ∧
    Runs benchCap (me benchCap) .u [63] ∧ modeEtype (me benchCap).regs.mode ≠ 13 ∧ modeEtype (me benchCap).regs.mode ≠ 14 ∧
    Memory.wf (benchCap.ctx benchCap.cur.core).pad = true ∧
    Spec.inPad ((me benchCap).c 0) ((((me benchCap).s 1).truncate 32).toInt * 16) 16 16 ∧
    Spec.localCap ((me benchCap).c 0) pR ∧ Spec.localCap ((me benchCap).c 0) (pW + pK) ∧
    (∀ n : Fin 32, Spec.inPad ((me benchCap).c 0) (((8 * 0x36FE0 + n.val * 8) / 8 : Nat) : Int)
      ((8 * 0x36FE0 + n.val * 8 + 7) / 8 - (8 * 0x36FE0 + n.val * 8) / 8 + 1) 1) ∧ (me benchCap).regs.ba[1].toNat = 8 * 0x36FE0 :=
  ⟨by decide +kernel, by decide +kernel, by decide +kernel, runs_me (by decide +kernel), runs_me (by decide +kernel), by decide +kernel⟩

theorem test_hyp_DerivedCapabilitiesNeverGrow : Runs0 (benchG (fun g => g.setS 7 0x200)) (me (benchG (fun g => g.setS 7 0x200))) ∧
    ((me bench).c 0).tag = true ∧ ((me bench).c 9).tag = false ∧ ((me bench).c 0).length = 225280 ∧ ((me bench).c 0).perm = 49 ∧
    (63 : Nat) &&& 49 ≠ 63 ∧ (48 : Nat) &&& 49 = 48 :=
  ⟨runs_me (by decide +kernel), by decide +kernel⟩

/-- Record 2 with a side table at 0x40000, kept in the record cache; S4 asks for a view of it with R. -/
def benchObj : State := (benchG (fun g => g.setS 4 (BitVec.ofNat 64 (2 + 32 * 2 ^ 24)))).modPart 0 (fun p =>
  { p with recs := [(2, (bench.rawRecord p 2).take 56 ++ toBytes 6 0x40000 ++ toBytes 2 0)] })

theorem test_hyp_CapabilityMovesAndQueries :
    (∃ g, Runs (benchG (fun g => g.setS 7 0xFFFFFFFFFFFF)) g .u [] ∧ (g.s 7).toNat < 2 ^ 48) ∧
    (∃ g, Runs (benchG (fun g => g.setS 7 0x1000000000000)) g .u [] ∧ 2 ^ 48 ≤ (g.s 7).toNat) ∧
    Spec.queries bench ((me bench).c 1) true ∧ Spec.queries benchObj ((me benchObj).c 2) false ∧
    holds ((me benchObj).c 2).perm pR = true ∧ holds (benchObj.record (benchObj.part 0) 2).perm pR = true ∧
    ((me benchObj).c 2).origin = 0 ∧ ((me benchObj).c 2).length = (benchObj.record (benchObj.part 0) 2).size ∧
    ((me benchObj).s 4).toNat < 2 ^ 30 ∧ bits ((me benchObj).s 4) 23 0 = 2 ∧ 2 < (benchObj.part 0).ortSize ∧
    (benchObj.record (benchObj.part 0) 2).state = 1 ∧ bits ((me benchObj).s 4) 29 24 = pR ∧
    Runs benchObj (me benchObj) .u [63] ∧ (benchObj.record (benchObj.part 0) 2).side = 0x40000 ∧ 0x40000 % 256 = 0 ∧
    bits ((me benchObj).s 4) 63 33 = 0 ∧ bits ((me benchObj).s 0) 31 0 < (benchObj.record (benchObj.part 0) 2).shape.getD 0 0 := by
  and_intros <;> first | exact runs_of (by decide +kernel) | exact runs_me (by decide +kernel) | decide +kernel

/-! Channels and synchronisation (O28 to O32). -/

/-- The gang in a slot, and that one stands there. -/
def gangIn (s : State) (c : CoreId) (k : SlotId) : Gang := (s.gang? c k).getD Gang.fresh

theorem gang_in {s : State} {c : CoreId} {k : SlotId} (h : (s.gang? c k).isSome = true) : s.gang? c k = some (gangIn s c k) := by
  unfold gangIn
  cases e : s.gang? c k with
  | none => simp [e] at h
  | some g => rfl

/-- The boot gang in a role of a cohort. -/
def benchRole (r : Role) : State := benchG (fun g => { g with chan := { g.chan with role := r, chan := 0, tag := 5 } })

/-- The boot gang beside a publisher in slot 3. -/
def benchOther : State := bench.setGang 0 3 { Gang.fresh with chan := { role := .publisher } }

/-- S1 names channel 1, S2 a site of another die, S3 the largest tag, S4 a dark site. -/
def benchSub : State :=
  { (benchG (fun g => (((g.setS 1 1).setS 2 0x400).setS 3 0xFFFF).setS 4 7)) with dark := [7] }

/-- Slots of gangs that wait on channels n to n + 7 of die 1. -/
def farSlots (n : Nat) (x : Ctx) : Ctx :=
  { x with slots := Vector.ofFn (fun k => some { Gang.fresh with chan := { role := .waiting, chan := BitVec.ofNat 12 (n + k.val) } }) }

/-- S1 names core (1,0), of the partition; a Runnel circuit joins dies 0 and 1 or none does; gangs of other cores of die 0 follow 40
channels of die 1, or none does. -/
def benchFar (circuit full : Bool) : State :=
  let s := (benchG (fun g => g.setS 1 0x400)).modPart 0 (fun p => { p with dies := 3 })
  let s := if circuit then { s with circuits := s.circuits.set 0 { valid := true, tuned := true, part := 0, desc := 0x420 } } else s
  if full then ((((s.modCtx 1 (farSlots 0x410)).modCtx 2 (farSlots 0x420)).modCtx 3 (farSlots 0x430)).modCtx 4 (farSlots 0x440)).modCtx 5 (farSlots 0x450) else s

/-- S1 names core 2, whose context has migrated away. -/
def benchGone : State := (benchG (fun g => g.setS 1 2)).modCore 2 (fun x => { x with left := true })

theorem test_hyp_ChannelWords_far :
    (Runs0 (benchFar true false) (me (benchFar true false)) ∧ (me (benchFar true false)).s 1 = 0x400 ∧
      (benchFar true false).samePart 0 0x400 = true ∧ (benchFar true false).noCore 0x400 = false ∧
      (benchFar true false).gone 0x400 = false ∧ dieOf 0x400 ≠ dieOf 0 ∧
      (benchFar true false).joined 0 1 1 0 = true ∧ ((benchFar true false).inbound 0).length < 32) ∧
    (Runs0 (benchFar false false) (me (benchFar false false)) ∧ (benchFar false false).joined 0 1 1 0 = false) ∧
    (Runs0 (benchFar true true) (me (benchFar true true)) ∧ (benchFar true true).joined 0 1 1 0 = true ∧
      ¬ (0x400 ∈ (benchFar true true).inbound 0 ∨ ((benchFar true true).inbound 0).length < 32)) ∧
    (Runs0 (benchGone) (me benchGone) ∧ benchGone.samePart 0 2 = true ∧ benchGone.noCore 2 = false ∧ benchGone.gone 2 = true) :=
  ⟨⟨runs_me (by decide +kernel), by decide +kernel⟩, ⟨runs_me (by decide +kernel), by decide +kernel⟩,
    ⟨runs_me (by decide +kernel), by decide +kernel⟩, ⟨runs_me (by decide +kernel), by decide +kernel⟩⟩

theorem test_hyp_ChannelWords :
    Runs0 bench (me bench) ∧ (me bench).tx.active = false ∧ (me bench).chan.role = .none ∧
    (∀ k : SlotId, k ≠ 0 → (bench.gang? 0 k).isNone = true) ∧
    Runs0 (benchRole .publisher) (me (benchRole .publisher)) ∧ (me (benchRole .publisher)).chan.role = .publisher ∧
    Runs0 (benchRole .subscriber) (me (benchRole .subscriber)) ∧ (me (benchRole .subscriber)).chan.role = .subscriber ∧
    (Runs0 benchOther (me benchOther) ∧ (gangIn benchOther 0 3).chan.role = .publisher) ∧
    ((State.streamed (benchRole .subscriber) true).cur.stream.isSome = true ∧
      Runs0 (State.streamed (benchRole .subscriber) true) (me (State.streamed (benchRole .subscriber) true))) ∧
    (∃ c, Spec.allTake (me (benchRole .subscriber)) c) ∧ (∃ c, ¬ Spec.allTake (me (benchRole .subscriber)) c) ∧
    (Runs0 benchSub (me benchSub) ∧ ((me benchSub).s 1).toNat < 2 ^ 12 ∧ ((me benchSub).s 3).toNat < 2 ^ 16 ∧
      benchSub.samePart 0 1 = true ∧ benchSub.noCore 1 = false ∧ benchSub.gone 1 = false ∧ dieOf 1 = dieOf 0 ∧
      benchSub.samePart 0 0x400 = false ∧ benchSub.samePart 0 7 = true ∧ benchSub.noCore 7 = true) ∧
    (me (benchRole .subscriber)).chan.buf.length ≤ 96 :=
  ⟨runs_me (by decide +kernel), by decide +kernel, by decide +kernel, by decide +kernel, runs_me (by decide +kernel), by decide +kernel,
    runs_me (by decide +kernel), by decide +kernel, ⟨runs_me (by decide +kernel), by decide +kernel⟩,
    ⟨by decide +kernel, runs_me (by decide +kernel)⟩, ⟨⟨false, 0⟩, by decide +kernel⟩, ⟨⟨true, 0⟩, by decide +kernel⟩, ⟨runs_me (by decide +kernel), by decide +kernel⟩, by decide +kernel⟩

/-- The boot gang waits for something of its channel 0. -/
def benchWaits (r : Role) (w : Why) (ch : Chan) : State :=
  benchG (fun g => { g with chan := { ch with role := r, tag := 5 }, status := .waiting { why := w, since := 0, word := 0x12000102 } })

/-- The RENDEZ of tag 5. -/
def rendez5 : StreamPkt := { word := 0x15000005, pc := 0x10000000200, seq := 9, tick := 0, taken := false }

/-- A publisher in slot 0 whose hold is due, and a subscriber in slot 1 with 65 packets, or 64. -/
def benchHold (held : Bool) (n : Nat) : State :=
  (benchG (fun g => { g with chan := { role := .publisher, held := held, holdAt := some 0 } })).setGang 0 1
    { Gang.fresh with chan := { role := .subscriber, buf := List.replicate n (packet true) } }

theorem get_key {α : Type} {n : Nat} : ∀ {t : Tbl α}, Tbl.get? t n ≠ none → n ∈ t.map Prod.fst
  | [], h => absurd rfl h
  | (k, v) :: t, h => by
    by_cases e : k = n
    · simp [e]
    · exact List.mem_cons_of_mem _ (get_key (by simpa [Tbl.get?, e] using h))

/-- A gang stands only on a core that the table of cores lists. -/
theorem gang_listed {s : State} {c : CoreId} {k : SlotId} {g : Gang} (h : s.gang? c k = some g) : c.toNat ∈ s.cores.map Prod.fst := by
  refine get_key (fun e => ?_)
  unfold State.gang? State.ctx State.core at h
  rw [e] at h
  simp [Core.fresh, Ctx.fresh] at h

theorem only_core {s : State} {d : CoreId} {k : SlotId} {g : Gang} (e : s.cores.map Prod.fst = [0]) (h : s.gang? d k = some g) : d = 0 := by
  have := gang_listed h
  rw [e] at this
  exact BitVec.eq_of_toNat_eq (by simpa using this)

theorem hold_lifts : Spec.lifts (benchHold true 64) 0 (gangIn (benchHold true 64) 0 0) := by
  intro d k h _ hg hr _
  obtain rfl := only_core (by decide +kernel) hg
  have e : ∀ k : SlotId, ((benchHold true 64).gang? 0 k).all (fun h => decide (h.chan.buf.length ≤ 64)) = true := by decide +kernel
  have := e k
  rw [hg] at this
  exact ⟨by simpa using this, .inl rfl⟩

theorem test_hyp_StreamSteps :
    ((benchWaits .waiting .registration {}).gang? 0 0 = some (gangIn (benchWaits .waiting .registration {}) 0 0) ∧
      (gangIn (benchWaits .waiting .registration {}) 0 0).why? = some .registration ∧
      (gangIn (benchWaits .waiting .registration {}) 0 0).chan.reg ≤ (benchWaits .waiting .registration {}).now 0) ∧
    ((gangIn (benchWaits .waiting .rendez { due := [(0, rendez5)] }) 0 0).chan.due = (0, rendez5) :: [] ∧
      0 ≤ (benchWaits .waiting .rendez { due := [(0, rendez5)] }).now 0 ∧
      (gangIn (benchWaits .waiting .rendez { due := [(0, rendez5)] }) 0 0).chan.role = .waiting ∧
      (gangIn (benchWaits .waiting .rendez { due := [(0, rendez5)] }) 0 0).why? = some .rendez ∧
      rendez5.word = 0x15000000 ||| (5#16).zeroExtend 32 ∧ (packet true).word ≠ 0x15000000 ||| (5#16).zeroExtend 32 ∧
      (gangIn (benchWaits .waiting .rendez { due := [(0, rendez5)] }) 0 0).chan.reg ≤ 0) ∧
    (benchG (fun g => { g with chan := { role := .subscriber, tag := 5, buf := List.replicate 95 (packet true),
                                         due := [(0, packet true)] } })).me?.any
      (fun g => decide (g.chan.role = .subscriber ∧ g.chan.buf.length < 96 ∧ g.chan.due = (0, packet true) :: [])) = true ∧
    ((benchHold false 65).gang? 0 0 = some (gangIn (benchHold false 65) 0 0) ∧
      (gangIn (benchHold false 65) 0 0).chan.role = .publisher ∧ (gangIn (benchHold false 65) 0 0).chan.held = false ∧
      (gangIn (benchHold false 65) 0 0).chan.holdAt = some 0 ∧ ¬ Spec.lifts (benchHold false 65) 0 (gangIn (benchHold false 65) 0 0)) ∧
    ((gangIn (benchHold true 64) 0 0).chan.held = true ∧ (gangIn (benchHold true 64) 0 1).chan.buf.length = 64 ∧
      Spec.lifts (benchHold true 64) 0 (gangIn (benchHold true 64) 0 0)) := by
  refine ⟨⟨gang_in (by decide +kernel), by decide +kernel⟩, by decide +kernel, by decide +kernel,
    ⟨gang_in (by decide +kernel), by decide +kernel, by decide +kernel, by decide +kernel, ?_⟩, by decide +kernel, by decide +kernel, hold_lifts⟩
  intro h
  have := (h 0 1 (gangIn (benchHold false 65) 0 1) (by decide +kernel) (gang_in (by decide +kernel)) (.inr (by decide +kernel))
    (by decide +kernel)).1
  revert this
  decide +kernel

/-- Core (0,0) with a load of the boot gang outstanding and a write in its store buffer. -/
def benchPend (f b : Bool) : State := bench.modCtx 0 (fun x => { x with
  seq := 8
  flights := if f then [(6, { slot := 0, act := .load false, loc := .phys 0x9000, size := 4, dst := .s 9, lanes := [{ lane := 0 }] })] else []
  buf := if b then [{ seq := 7, slot := 0, seen := 1, loc := .phys 0x9010, size := 4, kind := .bytes [1, 2, 3, 4] }] else [] })

/-- The boot gang of a state waits at a word. -/
def waitsAt (s : State) (w : Why) (word : Word) : State :=
  s.modGang 0 0 (fun g => { g with status := .waiting { why := w, since := 0, word := word } })

/-- A subscriber whose next packet came late. -/
def benchLate : State :=
  benchG (fun g => { g with chan := { g.chan with role := .subscriber, chan := 1, buf := [{ packet true with late := true }] } })

theorem test_hyp_StreamSteps_late : benchLate.nextMove = .issue 0 0 ∧ (gangIn benchLate 0 0).chan.role = .subscriber ∧
    (gangIn benchLate 0 0).replay = false ∧ (gangIn benchLate 0 0).chan.buf = [{ packet true with late := true }] ∧
    (gangIn benchLate 0 0).tx.active = false ∧ (packet true).late = false := by decide +kernel

/-- The boot gang follows channel 0x400, of die 1, or waits to; a packet and the one after it are on their way to die 0. -/
def benchDue (r : Role) : State :=
  benchG (fun g => { g with chan := { g.chan with role := r, chan := 0x400, due := [(9, packet true), (10, { packet true with seq := 6 })] } })

theorem test_hyp_StreamSteps_crossing : ∀ r ∈ [Role.waiting, .subscriber],
    (benchDue r).gang? 0 0 = some (gangIn (benchDue r) 0 0) ∧ (benchDue r).samePart 0 0 = true ∧ (gangIn (benchDue r) 0 0).chan.role = r ∧
      dieOf (gangIn (benchDue r) 0 0).chan.chan ≠ dieOf 0 ∧ (∀ y ∈ (benchDue r).gangsOf ((benchDue r).part 0), y = (0, 0, gangIn (benchDue r) 0 0)) ∧
      (gangIn (benchDue r) 0 0).chan.due = [(9, packet true), (10, { packet true with seq := 6 })] := by decide +kernel

theorem test_hyp_FencesWaitForAccesses :
    (me bench).tx.active = false ∧ Spec.scope (me bench) (some .sys) ≤ 5 ∧ Spec.scope (me (benchM 0x10000)) none = 4 ∧
    (Runs0 bench (me bench) ∧ Spec.loaded bench 0 0 ∧ Spec.stored bench 0 0) ∧
    (Runs0 (benchPend true false) (me (benchPend true false)) ∧ (me (benchPend true false)).cnt.relOk = false ∧
      ¬ Spec.loaded (benchPend true false) 0 0) ∧
    (Runs0 (benchPend false true) (me (benchPend false true)) ∧ Spec.loaded (benchPend false true) 0 0 ∧
      ¬ Spec.stored (benchPend false true) 0 0) ∧
    (Spec.stands (gangIn (waitsAt bench .fenceWrite 0x18120000) 0 0) .fenceWrite (.fence .rel (some .pkg)) ∧
      Spec.loaded (waitsAt bench .fenceWrite 0x18120000) 0 0 ∧ Spec.stored (waitsAt bench .fenceWrite 0x18120000) 0 0) ∧
    Spec.stands (gangIn (waitsAt bench .fenceSys 0x18170000) 0 0) .fenceSys (.fence .full (some .sys)) ∧
    Spec.stands (gangIn (waitsAt bench .fenceRead 0x18050000) 0 0) .fenceRead (.fence .acq (some .core)) :=
  ⟨by decide +kernel, by decide +kernel, by decide +kernel, ⟨runs_me (by decide +kernel), by decide +kernel⟩,
    ⟨runs_me (by decide +kernel), by decide +kernel⟩, ⟨runs_me (by decide +kernel), by decide +kernel⟩, by decide +kernel⟩

/-- The boot gang, of a crew, has arrived n times; a gang of its crew on the same core m times. -/
def benchCrew (n m : Nat) : State :=
  (benchG (fun g => { g with cnt := { g.cnt with arrived := n } })).setGang 0 3
    { Gang.fresh with ident := (me bench).ident, cnt := { arrived := m } }

/-- The boot gang has arrived, a load of its own outstanding. -/
def benchLoads (n : Nat) : State := (benchPend true false).modGang 0 0 (fun g => { g with cnt := { g.cnt with arrived := n } })

theorem test_hyp_EngineFencesAndBarriers :
    (Runs0 bench (me bench) ∧ (me bench).tx.active = false ∧ Spec.settled bench 0 0 (me bench) 15) ∧
    (Runs0 (benchPend true false) (me (benchPend true false)) ∧
      ¬ Spec.settled (benchPend true false) 0 0 (me (benchPend true false)) 1) ∧
    (Spec.stands (gangIn (waitsAt bench (.xfence 2 4 9) 0x19000204) 0 0) (.xfence 2 4 9) (.xfence 2 4) ∧
      Spec.settled (waitsAt bench (.xfence 2 4 9) 0x19000204) 0 0 (gangIn (waitsAt bench (.xfence 2 4 9) 0x19000204) 0 0) 2) ∧
    (me bench).cnt.arrived = 0 ∧
    (Runs0 (benchCrew 1 1) (me (benchCrew 1 1)) ∧ (me (benchCrew 1 1)).cnt.arrived ≠ 0 ∧
      ∀ y ∈ (benchCrew 1 1).residents ((benchCrew 1 1).partNo 0), y.2.2.ident.crew = (me (benchCrew 1 1)).ident.crew →
        (me (benchCrew 1 1)).cnt.arrived ≤ y.2.2.cnt.arrived) ∧
    (Runs0 (benchCrew 1 0) (me (benchCrew 1 0)) ∧
      ¬ ∀ y ∈ (benchCrew 1 0).residents ((benchCrew 1 0).partNo 0), y.2.2.ident.crew = (me (benchCrew 1 0)).ident.crew →
        (me (benchCrew 1 0)).cnt.arrived ≤ y.2.2.cnt.arrived) ∧
    (Runs0 (benchLoads 1) (me (benchLoads 1)) ∧ (me (benchLoads 1)).cnt.arrived ≠ 0 ∧ ¬ Spec.loaded (benchLoads 1) 0 0) ∧
    Spec.loaded (benchCrew 1 1) 0 0 ∧
    Spec.stands (gangIn (waitsAt (benchCrew 1 1) .barX 0x1B010000) 0 0) .barX .barwtX ∧
    Spec.stands (gangIn (waitsAt (benchCrew 1 1) .barI 0x1B000000) 0 0) .barI .barwtI :=
  ⟨⟨runs_me (by decide +kernel), by decide +kernel⟩, ⟨runs_me (by decide +kernel), by decide +kernel⟩, by decide +kernel, by decide +kernel,
    ⟨runs_me (by decide +kernel), by decide +kernel⟩, ⟨runs_me (by decide +kernel), by decide +kernel⟩,
    ⟨runs_me (by decide +kernel), by decide +kernel⟩, by decide +kernel⟩

/-- C6 is LOCAL over the last two granules below the packet region; both are full. S1 is a base, S2 a length, S3 past the end. -/
def benchRange (n : Nat) : State :=
  (benchG (fun g => (((g.setC 6 (Cap.mk' 0 (pR + pW) 0 0x36FE0 32 true)).setS 1 0x36FF0).setS 2 16).setS 3 0x37001)).modCtx 0
    (fun x => { x with full := [0x36FE, 0x36FF].take n, chans := x.chans.set 3 (some ⟨0x36FF0, 16, [0x36FF]⟩) })

/-- C6 spans nothing. -/
def benchEmpty : State := benchG (fun g => g.setC 6 (Cap.mk' 0 (pR + pW) 0 0x37000 0 true))

theorem test_hyp_FullBitsAndWatermarks :
    (Runs0 (benchRange 2) (me (benchRange 2)) ∧ (me (benchRange 2)).tx.active = false ∧
      Spec.localCap ((me (benchRange 2)).c 6) pW ∧ Spec.localCap ((me (benchRange 2)).c 6) pR ∧
      ((me (benchRange 2)).c 6).origin + ((me (benchRange 2)).c 6).length ≤ 0x37000 ∧ modeScope (me (benchRange 2)).regs.mode < 5 ∧
      Spec.loaded (benchRange 2) 0 0 ∧ Spec.stored (benchRange 2) 0 0 ∧
      ∀ n ∈ granulesOf ((me (benchRange 2)).c 6).origin ((me (benchRange 2)).c 6).length,
        ((benchRange 2).ctx 0).full.has n = true ∧ (benchRange 2).covered 0 n = false) ∧
    (Runs0 (benchRange 1) (me (benchRange 1)) ∧
      ∃ n ∈ granulesOf ((me (benchRange 1)).c 6).origin ((me (benchRange 1)).c 6).length,
        ¬ (((benchRange 1).ctx 0).full.has n = true ∧ (benchRange 1).covered 0 n = false)) ∧
    Spec.stands (gangIn (waitsAt (benchRange 2) .fewait 0x1C020600) 0 0) .fewait (.fewait 6) ∧
    (¬ (16 ∣ ((me (benchRange 2)).s 3).toNat) ∧ 16 ∣ ((me (benchRange 2)).s 1).toNat ∧ 16 ∣ ((me (benchRange 2)).s 2).toNat ∧
      ((me (benchRange 2)).s 1).toNat + ((me (benchRange 2)).s 2).toNat ≤ 0x37000 ∧
      0x37000 < ((me (benchRange 2)).s 1).toNat + 32 ∧ ((benchRange 2).ctx 0).chans[3] = some ⟨0x36FF0, 16, [0x36FF]⟩ ∧
      0x36FF0 < 0x36FF0 + 16 ∧ (benchRange 2).copiesToward 0 4 = false ∧ ((benchRange 2).ctx 0).chans[4] = none) ∧
    ((⟨0x36FF0, 16, [0x36FF]⟩ : CopyChan).mark = 0x37000 ∧ 0x36FF0 + 16 < ((me (benchRange 2)).s 3).toNat ∧
      (⟨0x36FF0, 16, []⟩ : CopyChan).mark < 0x37000) ∧
    (Runs0 benchEmpty (me benchEmpty) ∧ ((me benchEmpty).c 6).length = 0 ∧ Spec.localCap ((me benchEmpty).c 6) pW ∧
      Spec.localCap ((me benchEmpty).c 6) pR ∧ ((me benchEmpty).c 6).origin ≤ 0x37000) ∧
    Spec.stands (gangIn (waitsAt (benchRange 2) .wmwait 0x1D0C1001) 0 0) .wmwait (.wmwait 3 1) :=
  ⟨⟨runs_me (by decide +kernel), by decide +kernel⟩, ⟨runs_me (by decide +kernel), by decide +kernel⟩, by decide +kernel, by decide +kernel,
    by decide +kernel, ⟨runs_me (by decide +kernel), by decide +kernel⟩, by decide +kernel⟩

/-! Accesses in flight, waiting accesses, atomics and transactions (O33 to O37). -/

/-- One access in flight, number 6, of core (0,0). -/
def benchFly (f : Flight) : State := bench.modCtx 0 (fun x => { x with seq := 8, flights := [(6, f)] })

def fly (a : Act) (z : Nat) (d : Dst) (l : Loc) : Flight := { slot := 0, act := a, loc := l, size := z, dst := d, lanes := [{ lane := 31 }] }

/-- One write, number 7, in the store buffer of core (0,0), and a line of its read cache. -/
def benchBuf (k : BufKind) (z fill : Nat) (l : Loc) : State := (bench.modCtx 0 (fun x => { x with
  seq := 8
  buf := [{ seq := 7, slot := 0, seen := 1, loc := l, size := z, kind := k }] })).modCore 0 (fun x =>
    { x with cache := [(5, ⟨List.replicate 128 0, 0, fill⟩)] })

/-- The two halves, numbers 7 and 8, of a capability at two places. -/
def benchHalves : State := bench.modCtx 0 (fun x => { x with
  seq := 9
  buf := [{ seq := 7, slot := 0, seen := 1, loc := .phys 0x9018, size := 8, kind := .half (List.replicate 8 1) true 8 },
          { seq := 8, slot := 0, seen := 1, loc := .phys 0xA000, size := 8, kind := .half (List.replicate 8 2) true 7 }] })

theorem test_hyp_AccessesArePerformed_half :
    ((benchHalves.ctx 0).buf.find? (fun e => e.seq == 7)).any (fun e =>
      e.kind == .half (List.replicate 8 1) true 8 && e.loc == .phys 0x9018) = true ∧
    ((benchHalves.ctx 0).buf.find? (fun e => e.seq == 8)).any (fun e =>
      e.kind == .half (List.replicate 8 2) true 7 && e.loc == .phys 0xA000) = true ∧
    benchHalves.landing 0 (.phys 0x9018) = .phys 0x9018 ∧ benchHalves.landing 0 (.phys 0xA000) = .phys 0xA000 ∧
    Spec.here (.phys 0x9018) ∧ Spec.here (.phys 0xA000) ∧ Memory.wf benchHalves.dram = true ∧
    Loc.meets (.phys 0x9018) 8 (.phys 0xA000) 8 = false ∧ Spec.clear benchHalves 0 7 (.phys 0x9018) 8 ∧
    Spec.clear benchHalves 0 8 (.phys 0xA000) 8 := by decide +kernel

theorem test_hyp_AccessesArePerformed :
    (∀ x ∈ [fly (.load false) 8 (.s 9) (.phys 0x9000), fly (.load true) 1 (.s 9) (.pad 0 0x36FFF), fly (.load false) 4 (.v 63) (.phys 0x9000),
        fly (.load true) 2 (.v 63) (.phys 0x9000), fly (.load false) (sizeBytes .d) (.v 62) (.phys 0x9000),
        fly (.load false) (sizeBytes .q) (.v 60) (.phys 0x9000), fly (.capLoad true) 16 (.c 15) (.phys 0x9010)],
      Tbl.get? ((benchFly x).ctx 0).flights 6 = some x ∧ ((benchFly x).gang? 0 x.slot).isSome = true ∧ x.cached = false ∧ Spec.here x.loc ∧
        (gangIn (benchFly x) 0 x.slot).late = [] ∧ Spec.clear (benchFly x) 0 6 x.loc x.size) ∧
    (∃ f, Tbl.get? ((benchPend true false).ctx 0).flights 6 = some f ∧ f.loc.meets f.size (.phys 0x9003) 1 = true) ∧
    (∀ k ∈ [BufKind.bytes [1, 2, 3, 4], .cap (List.replicate 16 9) true],
      Memory.wf (benchBuf k 4 0 (.phys 0x9010)).dram = true ∧ Spec.here (.phys 0x9010) ∧
        (benchBuf k 4 0 (.phys 0x9010)).landing 0 (.phys 0x9010) = .phys 0x9010 ∧
        Spec.clear (benchBuf k 4 0 (.phys 0x9010)) 0 7 (.phys 0x9010) 4) ∧
    ((bench.modCtx 0 (fun x => { x with
        flights := [(6, fly (.load false) 8 (.s 9) (.phys 0x9008))],
        buf := [{ seq := 7, slot := 0, seen := 1, loc := .phys 0x900F, size := 1, kind := .bytes [1] }] })).ctx 0).flights.length = 1 ∧
    Loc.meets (.phys 0x900F) 1 (.phys 0x9008) 8 = true ∧
    (Tbl.get? ((benchBuf (.bytes []) 4 0 (.phys 0)).core 0).cache 5).isSome = true ∧ (benchBuf (.bytes []) 4 0 (.phys 0)).now 0 < 0 + 65536 ∧
    0 + 65536 ≤ ((benchBuf (.bytes []) 4 0 (.phys 0)).modPart 0 (fun p => { p with tick := 65536 })).now 0 :=
  by decide +kernel

/-- The boot gang waits at `sldw.fe s2, [c0, s1]` (SLD, AM 0) for the last word below the packet region. -/
def benchFe : State := waitsAt benchFull .full 0x73080111

theorem test_hyp_WaitingAccessesComplete_loads :
    (benchFe.gang? 0 0 = some (gangIn benchFe 0 0) ∧ (gangIn benchFe 0 0).tx.active = false ∧ (gangIn benchFe 0 0).txLane = none ∧
      Spec.quietAt benchFe 0 ∧ Spec.localCap ((gangIn benchFe 0 0).c 0) pR ∧
      Spec.stands (gangIn benchFe 0 0) .full (.sld 2 ⟨0, 1, 0⟩ .w .fe) ∧
      Spec.inPad ((gangIn benchFe 0 0).c 0) (Spec.offset (gangIn benchFe 0 0) ⟨0, 1, 0⟩ 4) 4 4 ∧
      ∀ n ∈ granulesOf (Spec.offset (gangIn benchFe 0 0) ⟨0, 1, 0⟩ 4).toNat 4, (benchFe.ctx 0).full.has n = true ∧ benchFe.covered 0 n = false) ∧
    Spec.stands (gangIn (waitsAt benchLast .watermark 0x74080108) 0 0) .watermark (.slds 2 ⟨0, 1, 0⟩ .h .plain) ∧
    (Spec.stands (gangIn (waitsAt benchSys .sysRead 0x7308C018) 0 0) .sysRead (.sld 2 ⟨3, 0, 0⟩ .d .plain) ∧
      Spec.quietAt (waitsAt benchSys .sysRead 0x7308C018) 0 ∧ ((gangIn (waitsAt benchSys .sysRead 0x7308C018) 0 0).c 3).tag = true ∧
      ((gangIn (waitsAt benchSys .sysRead 0x7308C018) 0 0).c 3).space = 4 ∧
      okB ((waitsAt benchSys .sysRead 0x7308C018).reach 0 ((gangIn (waitsAt benchSys .sysRead 0x7308C018) 0 0).c 3) 3 0 pR)
        (fun r => r == .sys) = true ∧
      (waitsAt benchSys .sysRead 0x7308C018).target 0 ((gangIn (waitsAt benchSys .sysRead 0x7308C018) 0 0).c 3) 3 0 .load false .sys 8 0 0 =
        .at_ (.host 0) 0) :=
  ⟨⟨gang_in (by decide +kernel), by decide +kernel⟩, by decide +kernel⟩

/-- The boot gang waits for window 0 at `sst.w.sc s2, [c0, s1]`; TICK of the partition. -/
def benchSc (tick : Nat) (word : Word) : State :=
  (waitsAt benchLast (.sc 0) word).modPart 0 (fun p => { p with tick := tick })

/-- No gang but that of slot 0 of core (0,0) stands in the module. -/
theorem alone_of {s : State} (e : s.cores.map Prod.fst = [0]) (k : ∀ k : SlotId, k ≠ 0 → (s.gang? 0 k).isNone = true) :
    ∀ c' k' h, s.gang? c' k' = some h → c' = 0 ∧ k' = 0 := by
  intro c k' h hg
  obtain rfl := only_core e hg
  refine ⟨rfl, ?_⟩
  by_contra n
  have := k k' n
  rw [hg] at this
  cases this

theorem test_hyp_WaitingAccessesComplete_sc :
    Spec.stands (gangIn (benchSc 128 0x75080113) 0 0) (.sc 0) (.sst 2 ⟨0, 1, 0⟩ .w .sc) ∧ (benchSc 128 0x75080113).samePart 0 0 = true ∧
    (benchSc 128 0x75080113).partNo 0 = 0 ∧ Spec.quietAt (benchSc 128 0x75080113) 0 ∧
    Spec.localCap ((gangIn (benchSc 128 0x75080113) 0 0).c 0) pW ∧ (benchSc 128 0x75080113).noNotify 0 = false ∧
    Memory.wf ((benchSc 128 0x75080113).ctx 0).pad = true ∧
    (∀ c' k' h, (benchSc 128 0x75080113).samePart 0 c' = true → (benchSc 128 0x75080113).gang? c' k' = some h →
      (∃ x, h.why? = some (.sc x)) → c' = 0 ∧ k' = 0) ∧
    Spec.inPad ((gangIn (benchSc 128 0x75080113) 0 0).c 0) (Spec.offset (gangIn (benchSc 128 0x75080113) 0 0) ⟨0, 1, 0⟩ 4) 4 4 ∧
    32 * (0 + 1) + 96 ≤ ((benchSc 128 0x75080113).parts[(0 : Fin 4)]).tick ∧
    ((benchSc 127 0x75080113).parts[(0 : Fin 4)]).tick < 32 * (0 + 1) + 96 :=
  ⟨by decide +kernel, by decide +kernel, by decide +kernel, by decide +kernel, by decide +kernel, by decide +kernel, by decide +kernel,
    fun c' k' h _ hg _ => alone_of (by decide +kernel) (by decide +kernel) c' k' h hg, by decide +kernel⟩

/-- An ordered wait of the boot gang beside a running gang with a logical time of its own. -/
def benchOrd (lt : Nat) : State :=
  ((waitsAt bench .ordered 0xB9010900).modGang 0 0 (fun g => { g with cnt := { g.cnt with lt := 5 } })).setGang 0 3
    { Gang.fresh with cnt := { lt := lt } }

theorem test_hyp_WaitingAccessesComplete_ordered :
    ((gangIn (benchOrd 6) 0 0).why? = some .ordered ∧
      (∀ h ∈ (benchOrd 6).residents ((benchOrd 6).partNo 0), ¬ (h.2.2.cnt.lt < (gangIn (benchOrd 6) 0 0).cnt.lt)) ∧
      ∀ h ∈ (benchOrd 6).gangsOf (benchOrd 6).parts[(benchOrd 6).partNo 0], ¬ (h.2.2.cnt.lt < (gangIn (benchOrd 6) 0 0).cnt.lt)) ∧
    (∃ h ∈ (benchOrd 4).residents ((benchOrd 4).partNo 0), h.2.2.cnt.lt < (gangIn (benchOrd 4) 0 0).cnt.lt ∧ h.2.2.lets = false) ∧
    (let s := (benchOrd 4).setGang 0 3 { Gang.fresh with cnt := { lt := 4 }, status := .waiting { why := .inbox, since := 0 } }
     (∀ h ∈ s.residents (s.partNo 0), h.2.2.cnt.lt < (gangIn s 0 0).cnt.lt → h.2.2.lets = true) ∧
     (∃ h ∈ s.gangsOf s.parts[s.partNo 0], h.2.2.cnt.lt < (gangIn s 0 0).cnt.lt ∧ h.2.2.lets = true) ∧
     ∀ h ∈ s.gangsOf s.parts[s.partNo 0], h.2.2.cnt.lt < (gangIn s 0 0).cnt.lt → s.wakeDue h.1 h.2.1 h.2.2 = false) :=
  by decide +kernel

/-- The same places, an older load of the gang still outstanding, and MODE.SCOPE of the gang. -/
def benchOlder (scope : Nat) : State :=
  (benchLast.modGang 0 0 (fun g => { g with regs := { g.regs with mode := BitVec.ofNat 32 (scope * 2 ^ 14) } })).modCtx 0 (fun x => { x with
    seq := 8
    flights := [(6, { slot := 0, act := .load false, loc := .phys 0x9000, size := 4, dst := .s 9, lanes := [{ lane := 0 }] })] })

theorem test_hyp_AtomicWords_waits :
    (∀ n ∈ [1, 2, 5], (me (benchOlder n)).tx.active = false ∧ modeScope (me (benchOlder n)).regs.mode = n ∧
      (me (benchOlder n)).cnt.relOk = false ∧ ¬ Spec.loaded (benchOlder n) 0 0) ∧
    (∀ n ∈ [1, 2, 5], runsB (benchOlder n) .u (vNames 4 (sizeRegs .w * 2) ⟨0, 1, 0⟩) (fun _ => true) = true ∧
      okB ((benchOlder n).atomTargets (me (benchOlder n)) ⟨0, 1, 0⟩ .w (atomLegal .add) false) (fun x => x.1 == .i32) = true) ∧
    (let s := benchM (5 <<< 14)
     modeScope (me s).regs.mode = 5 ∧ (me s).cnt.relOk = false ∧ Spec.loaded s 0 0 ∧ Spec.stored s 0 0) ∧
    (let s := waitsAt benchLast .fenceSys 0xA2104212
     (gangIn s 0 0).why? = some .fenceSys ∧ (∀ k c, decode (gangIn s 0 0).waitWord ≠ some (.fence k c)) ∧ Spec.loaded s 0 0 ∧
       Spec.stored s 0 0) := by
  have d : decode (gangIn (waitsAt benchLast .fenceSys 0xA2104212) 0 0).waitWord = some (.atomRel .max 4 ⟨1, 2, 0⟩ .w) := by decide +kernel
  refine ⟨by decide +kernel, by decide +kernel, by decide +kernel, by decide +kernel, fun k c h => ?_, by decide +kernel⟩
  rw [d] at h
  cases h

theorem test_hyp_AtomicWords :
    (Runs benchLast (me benchLast) .u (vNames 4 (sizeRegs .w * 2) ⟨0, 1, 0⟩) ∧ (me benchLast).tx.active = false ∧
      (∃ x, benchLast.atomTargets (me benchLast) ⟨0, 1, 0⟩ .w (atomLegal .add) false = .ok x ∧ x.1 = .i32 ∧ x.2.length = 32) ∧
      modeScope (me benchLast).regs.mode < 5 ∧ Spec.loaded benchLast 0 0 ∧ Spec.stored benchLast 0 0) ∧
    Spec.isAtomic (.atomAr .swap 4 ⟨0, 1, 0⟩ .w) .ar 4 ⟨0, 1, 0⟩ .w (vNames 4 (sizeRegs .w * 2) ⟨0, 1, 0⟩) (atomLegal .swap) (Act.atom .swap) ∧
    Spec.isAtomic (.atomc .acq 4 ⟨0, 5, 0⟩ .d) .acq 4 ⟨0, 5, 0⟩ .d (vNames 4 (sizeRegs .d * 2) ⟨0, 5, 0⟩) (fun _ => true) (fun _ => .cas) ∧
    (Runs benchLast (me benchLast) .u (vNames 4 (sizeRegs .d * 2) ⟨0, 5, 0⟩) ∧
      ∃ x, benchLast.atomTargets (me benchLast) ⟨0, 5, 0⟩ .d (fun _ => true) true = .ok x ∧ x.1 = .i64) ∧
    ((gangIn (waitsAt bench .acquire 0xA1104210) 0 0).why? = some .acquire ∧ Spec.loaded (waitsAt bench .acquire 0xA1104210) 0 0) ∧
    (Runs bench (me bench) .u [6, 7, 10] ∧ Tbl.get? (bench.part 0).routines 33 = none) :=
  ⟨⟨runs_me (by decide +kernel), by decide +kernel, ok_of (by decide +kernel), by decide +kernel⟩, .inl ⟨.swap, rfl, rfl, rfl, rfl⟩,
    .inr ⟨rfl, rfl, rfl, rfl⟩, ⟨runs_me (by decide +kernel), ok_of (by decide +kernel)⟩, by decide +kernel, runs_me (by decide +kernel), by decide +kernel⟩

/-- A routine in slot 63; an object capability with A, R and W. -/
def benchRtn : State := (benchG (fun g => g.setC 6 (Cap.mk' 2 (pA + pR + pW) 2 0 131072 true))).modPart 0 (fun p =>
  { p with routines := [(63, List.replicate 16 0)],
           recs := [(2, toBytes 8 (ofBytes ((bench.rawRecord p 2).take 8) ||| (pA * 2 ^ 10)) ++ (bench.rawRecord p 2).drop 8)] })

theorem test_hyp_AtomicWords_routine :
    Runs benchRtn (me benchRtn) .u [6, 7, 10] ∧ modeEtype (me benchRtn).regs.mode ≠ 13 ∧ modeEtype (me benchRtn).regs.mode ≠ 14 ∧
    (Tbl.get? (benchRtn.part 0).routines 63).isSome = true ∧ ((me benchRtn).c 6).space = 2 ∧
    ∃ r, benchRtn.reach 0 ((me benchRtn).c 6) 6 0 (pA + pR + pW) = .ok r ∧
      (match r with
        | .object o => (benchRtn.laneStops (benchRtn.laneTargets (me benchRtn) ((me benchRtn).c 6) 6 0 .other false true true
            (.object o) (fmtBits o.fmt / 8) (fun i => (((me benchRtn).v 10)[i].toInt, 0)))).isNone
        | _ => false) = true :=
  ⟨runs_me (by decide +kernel), by decide +kernel, by decide +kernel, by decide +kernel, by decide +kernel, ok_of (by decide +kernel)⟩

theorem test_hyp_AtomicsArePerformed :
    (∀ x ∈ [fly (.atom .swap .i64) 8 (.v 62) (.phys 0x9000), fly .cas 4 (.v 63) (.pad 0 0x36FFC)],
      Tbl.get? ((benchFly x).ctx 0).flights 6 = some x ∧ ((benchFly x).gang? 0 x.slot).isSome = true ∧ Spec.here x.loc ∧
        (benchFly x).landing 0 x.loc = x.loc ∧ (x.lanes.map LaneArg.lane).Nodup ∧ (gangIn (benchFly x) 0 x.slot).late = [] ∧
        (benchFly x).lostAt x.loc x.size = false ∧ Spec.clear (benchFly x) 0 6 x.loc x.size ∧ Memory.wf (benchFly x).dram = true ∧ Memory.wf ((benchFly x).ctx 0).pad = true) ∧
    (Tbl.get? ((benchFly (fly (.routine (List.replicate 16 0)) 128 .none (.phys 0x9000))).ctx 0).flights 6 =
        some (fly (.routine (List.replicate 16 0)) 128 .none (.phys 0x9000)) ∧ Spec.here (.phys 0x9000) ∧
      Memory.wf (benchFly (fly (.routine (List.replicate 16 0)) 128 .none (.phys 0x9000))).dram = true ∧
      Spec.clear (benchFly (fly (.routine (List.replicate 16 0)) 128 .none (.phys 0x9000))) 0 6 (.phys 0x9000) 128) ∧
    (((benchBuf (.red .add .i32 [1, 2]) 4 0 (.phys 0x9010)).ctx 0).buf.find? (fun e => e.seq == 7)).isSome = true ∧
    Spec.clear (benchBuf (.red .add .i32 [1, 2]) 4 0 (.phys 0x9010)) 0 7 (.phys 0x9010) 4 ∧
    (benchBuf (.red .add .i32 [1, 2]) 4 0 (.phys 0x9010)).lostAt (.phys 0x9010) 4 = false ∧
    (Spec.stands (gangIn (benchSc 128 0xA4100114) 0 0) (.sc 0) (.atomSc .or 4 ⟨0, 1, 0⟩ .w) ∧
      atomTy .w (modeEtype (gangIn (benchSc 128 0xA4100114) 0 0).regs.mode) = some .i32 ∧ atomLegal .or .i32 = true ∧
      32 * (0 + 1) + 96 ≤ (benchSc 128 0xA4100114).now 0 ∧ Spec.localCap ((gangIn (benchSc 128 0xA4100114) 0 0).c 0) (pA + pR + pW) ∧
      ∀ n : Fin 32, Spec.inPad ((gangIn (benchSc 128 0xA4100114) 0 0).c 0) (((gangIn (benchSc 128 0xA4100114) 0 0).v 1)[n].toInt * 4) 4 4) :=
  by decide +kernel

/-! Transactions and the copy engine (O37 to O39). -/

/-- The gang inside a transaction construct with lane 3 open, its log and its TXSTAT. -/
def inTx (reads : List (Loc × DWord)) (writes : List (Loc × DWord × BitVec 8)) (stat : Word) (open_ : Bool) : State :=
  (benchG (fun g => { g with
    stack := [⟨0xFF, .tx, 0⟩], regs := { g.regs with exm := 8 }
    tx := { g.tx with active := true, lanes := g.tx.lanes.set 3 { isOpen := open_, reads := reads, writes := writes },
                      stat := g.tx.stat.set 3 stat } })).modCtx 0 (fun x => { x with txOwner := some 0 })

theorem test_hyp_Transactions_open :
    (Runs0 bench (me bench) ∧ (me bench).tx.active = false ∧ bench.cur.stream = none ∧ (me bench).stack.length < 32 ∧
      Spec.drained bench 0 0 ∧ (bench.ctx 0).txOwner = none ∧
      (∀ j : SlotId, (bench.gang? 0 j).all (fun h => h.why? != some .txLog) = true) ∧ ∀ e ∈ (me bench).stack, e.kind ≠ .tx) ∧
    (Runs0 (benchStack full32) (me (benchStack full32)) ∧ 32 ≤ (me (benchStack full32)).stack.length) ∧
    (Runs0 (bench.modCtx 0 (fun x => { x with txOwner := some 7 })) (me (bench.modCtx 0 (fun x => { x with txOwner := some 7 }))) ∧
      ((bench.modCtx 0 (fun x => { x with txOwner := some 7 })).ctx 0).txOwner = some 7) ∧
    (Runs0 (inTx [] [] 0x8000 true) (me (inTx [] [] 0x8000 true)) ∧ (me (inTx [] [] 0x8000 true)).tx.active = true ∧
      ∃ e ∈ (me (inTx [] [] 0x8000 true)).stack, e.kind = .tx) ∧
    (Runs bench (me bench) .u [63] ∧ modeEtype (me bench).regs.mode ≠ 13 ∧ modeEtype (me bench).regs.mode ≠ 14) ∧
    (Spec.stands (gangIn (waitsAt bench .txLog 0xA9000000) 0 0) .txLog .txbegin ∧
      ((waitsAt bench .txLog 0xA9000000).ctx 0).txOwner = none ∧ Spec.drained (waitsAt bench .txLog 0xA9000000) 0 0 ∧
      (waitsAt bench .txLog 0xA9000000).unstopped 0 (gangIn (waitsAt bench .txLog 0xA9000000) 0 0) = true ∧
      (gangIn (waitsAt bench .txLog 0xA9000000) 0 0).chan.role ≠ .subscriber ∧
      ∀ j : SlotId, j ≠ 0 → ((waitsAt bench .txLog 0xA9000000).gang? 0 j).isNone = true) :=
  ⟨⟨runs_me (by decide +kernel), by decide +kernel⟩, ⟨runs_me (by decide +kernel), by decide +kernel⟩,
    ⟨runs_me (by decide +kernel), by decide +kernel⟩, ⟨runs_me (by decide +kernel), by decide +kernel⟩,
    ⟨runs_me (by decide +kernel), by decide +kernel⟩, by decide +kernel⟩

/-- A construct whose one read is valid (0) or stale (1), with one write of two bytes. -/
def txRead (v : DWord) (stat : Word) : State := inTx [(.pad 0 0x100, v)] [(.pad 0 0x108, 0xBBAA, 3)] stat true

theorem test_hyp_Transactions_commit :
    (Runs0 bench (me bench) ∧ (me bench).stack = []) ∧
    (Runs0 (txRead 0 0x8000) (me (txRead 0 0x8000)) ∧ (me (txRead 0 0x8000)).stack = ⟨0xFF, .tx, 0⟩ :: [] ∧
      (∀ i : Fin 32, (((me (txRead 0 0x8000)).tx.lanes[i]).isOpen = true ↔ i = 3) ∧ ((me (txRead 0 0x8000)).tx.lanes[i]).held = none ∧
        ((me (txRead 0 0x8000)).tx.stat[i]).getLsbD 16 = false) ∧
      Mask.has (me (txRead 0 0x8000)).regs.exm 3 = true ∧ (me (txRead 0 0x8000)).tx.irrev = none ∧
      ((txRead 0 0x8000).part 0).token = false ∧ ((txRead 0 0x8000).part 0).det = false ∧ ((txRead 0 0x8000).ctx 0).flights = [] ∧
      ((txRead 0 0x8000).ctx 0).buf = [] ∧
      (∀ r ∈ ((me (txRead 0 0x8000)).tx.lanes[3]).reads, Spec.here r.1 ∧ Spec.value (txRead 0 0x8000) r.1 8 = r.2.toNat) ∧
      (∀ w ∈ ((me (txRead 0 0x8000)).tx.lanes[3]).writes, Spec.here w.1 ∧ Spec.here (w.1.add 7)) ∧
      Memory.wf ((txRead 0 0x8000).ctx 0).pad = true) ∧
    (∃ r ∈ ((me (txRead 1 0x8000)).tx.lanes[3]).reads, Spec.here r.1 ∧ Spec.value (txRead 1 0x8000) r.1 8 ≠ r.2.toNat) ∧
    bits ((me (txRead 1 (0x8000 + 6 * 1024))).tx.stat[3]) 13 10 < 7 ∧ 7 ≤ bits ((me (txRead 1 (0x8000 + 7 * 1024))).tx.stat[3]) 13 10 ∧
    (∀ i : Fin 32, ((me (txRead 1 (0x8000 + 15 * 1024))).tx.stat[i]).getLsbD 16 = false) ∧
    (Spec.stands (gangIn (waitsAt (inTx [] [] 0x12001 false) .token 0xAA0FFFFD) 0 0) .token (.txend 0xFFFFD) ∧
      (gangIn (waitsAt (inTx [] [] 0x12001 false) .token 0xAA0FFFFD) 0 0).stack = ⟨0xFF, .tx, 0⟩ :: [] ∧
      (∀ i : Fin 32, ((gangIn (waitsAt (inTx [] [] 0x12001 false) .token 0xAA0FFFFD) 0 0).tx.lanes[i]).isOpen = false) ∧
      (gangIn (waitsAt (inTx [] [] 0x12001 false) .token 0xAA0FFFFD) 0 0).tokenLane = some 3 ∧
      (waitsAt (inTx [] [] 0x12001 false) .token 0xAA0FFFFD).samePart 0 0 = true ∧
      (waitsAt (inTx [] [] 0x12001 false) .token 0xAA0FFFFD).unstopped 0 (gangIn (waitsAt (inTx [] [] 0x12001 false) .token 0xAA0FFFFD) 0 0) = true ∧
      ((waitsAt (inTx [] [] 0x12001 false) .token 0xAA0FFFFD).part 0).token = false ∧
      (gangIn (waitsAt (inTx [] [] 0x12001 false) .token 0xAA0FFFFD) 0 0).tx.irrev = none ∧
      (∀ d j h, (waitsAt (inTx [] [] 0x12001 false) .token 0xAA0FFFFD).samePart 0 d = true →
        (waitsAt (inTx [] [] 0x12001 false) .token 0xAA0FFFFD).gang? d j = some h → h.why? = some .token → d = 0 ∧ j = 0)) := by
  and_intros <;> first
    | exact runs_me (by decide +kernel)
    | decide +kernel
    | exact fun d j h _ hg _ => alone_of (by decide +kernel) (by decide +kernel) d j h hg

/-- Lanes 1 to 4 have transactions open: lane 1 has read 16 other words, lane 2 15, lane 3 has written 8 others, lane 4 has written
and read the word it goes to; EXM selects. V1 and S1 index words of 4 bytes; lane irrev holds the token. -/
def benchTx (irrev : Option (Fin 32)) (exm : Word := 0x1E) : State :=
  (benchLast.modGang 0 0 (fun g =>
    let h := (g.setVAll 1 (Lanes.of (fun i => BitVec.ofNat 32 (0x100 + i.val)))).setS 1 0x101
    { h with
      stack := [⟨0xFF, .tx, 0⟩]
      regs := { h.regs with exm := exm }
      tx := { h.tx with
        active := true, irrev := irrev
        lanes := Lanes.of (fun i =>
          if i = 1 then { isOpen := true, reads := (List.range 16).map (fun j => (.pad 0 (8 * j), 0)) }
          else if i = 2 then { isOpen := true, reads := (List.range 15).map (fun j => (.pad 0 (8 * j), 0)) }
          else if i = 3 then { isOpen := true, writes := (List.range 8).map (fun j => (.pad 0 (8 * j), 0, 1)) }
          else if i = 4 then { isOpen := true, reads := [(.pad 0 0x410, 0x1122334455667788)], writes := [(.pad 0 0x410, 0xAABBCCDD, 6)] }
          else {}) } })).modCtx 0 (fun x => { x with txOwner := some 0, pad := [(0x409, 9), (0x40C, 7)] })

/-- The log of a lane of benchTx. -/
def logOf (n : Fin 32) : LaneTx := (me (benchTx none)).tx.lanes[n]

theorem test_hyp_Transactions_lanes :
    Runs (benchTx none) (me (benchTx none)) .u (vNames 4 (sizeRegs .w) ⟨0, 1, 0⟩) ∧
    (modeEtype (me (benchTx none)).regs.mode ≠ 13 ∧ modeEtype (me (benchTx none)).regs.mode ≠ 14 ∧ Spec.quiet (benchTx none) ∧
      (me (benchTx none)).tx.active = true ∧ (me (benchTx none)).tx.irrev = none ∧
      (∀ n : Fin 32, Mask.has (me (benchTx none)).active n = true → ((me (benchTx none)).tx.lanes[n]).isOpen = true) ∧
      Spec.localCap ((me (benchTx none)).c 0) (pA + pR + pW) ∧
      ∀ n : Fin 32, Mask.has (me (benchTx none)).active n = true → Spec.inPad ((me (benchTx none)).c 0)
        (((me (benchTx none)).c 0).origin + ((me (benchTx none)).v 1)[n].toInt * 4) 4 4) ∧
    16 < (logOf 1).reads.length + (Spec.txAsks (logOf 1) 0 0x404 4).length ∧ (logOf 2).reads.length + (Spec.txAsks (logOf 2) 0 0x408 4).length = 16 ∧
    8 < (logOf 3).writes.length + (Spec.txNew (logOf 3) 0 0x40C 4).length ∧ (logOf 4).writes.length + (Spec.txNew (logOf 4) 0 0x410 4).length ≤ 8 ∧
    Spec.txValue (benchTx none) (logOf 2) 0 0x408 4 = 0x900 ∧ Spec.txValue (benchTx none) (logOf 4) 0 0x410 4 = 0x55BBCC88 :=
  ⟨runs_me (by decide +kernel), by decide +kernel⟩

theorem test_hyp_Transactions_scalars :
    (∀ x ∈ [none, some 1], runsB (benchTx x) .u [] (fun _ => true) = true ∧ Spec.quiet (benchTx x) ∧ (me (benchTx x)).tx.active = true ∧
      Mask.has (me (benchTx x)).active 1 = true ∧ ((me (benchTx x)).tx.lanes[(1 : Fin 32)]).isOpen = true ∧
      Mask.has (me (benchTx x)).active 0 = false ∧ Memory.wf ((benchTx x).ctx 0).pad = true ∧ (me (benchTx x)).tx.irrev = x ∧
      Spec.inPad ((me (benchTx x)).c 0) (((me (benchTx x)).c 0).origin + (((me (benchTx x)).s 1).truncate 32).toInt * 4) 4 4) ∧
    16 < (logOf 1).reads.length + (Spec.txAsks (logOf 1) 0 0x404 4).length ∧ (logOf 1).reads.length + (Spec.txAsks (logOf 1) 0 0x40 4).length ≤ 16 ∧
    (logOf 1).writes.length + (Spec.txNew (logOf 1) 0 0x404 4).length ≤ 8 ∧ 8 < (logOf 3).writes.length + (Spec.txNew (logOf 3) 0 0x404 4).length ∧
    (me (benchTx none 0x18)).active = 0x18 ∧ ((me (benchTx none 0x18)).tx.lanes[(3 : Fin 32)]) = logOf 3 :=
  by decide +kernel

/-- A lane's load returns its own write over the word it has read; a lane with 16 read entries that needs another aborts (05 R165). -/
theorem test_tx_load_sees_own_write :
    (nextState? (exec (.ld 4 ⟨0, 1, 0⟩ .w .plain) (benchTx none))).any (fun t => ((me t).v 4)[4] == 0x55BBCC88 &&
      !((me t).tx.lanes[1]).isOpen && (me t).regs.exm == 0x1C) = true := by decide +kernel

/-- C5 is LOCAL over the first 8 KiB and C4 over the next 53,248 bytes; V8 is a descriptor of n bytes with the largest TAG; S10 and S11
the parameters of PLANE for one row of 32 two-plane elements. -/
def benchCpy (n : Nat) : State := benchG (fun g =>
  ((((g.setC 5 (Cap.mk' 0 (pR + pW) 0 0 0x2000 true)).setC 4 (Cap.mk' 0 (pR + pW) 0 0x2000 0xD000 true)).setVAll 8
    (Lanes.of (fun i => if i = 4 then BitVec.ofNat 32 n else if i = 6 then 0xFFFF else 0))).setS 10 (BitVec.ofNat 64 (2 ^ 32))).setS 11
    (BitVec.ofNat 64 (2 ^ 32 + 0x1FFFF)))

def cpyOf (n : Nat) : Copy := Spec.copyOf (benchCpy n) (me (benchCpy n)) .cpy 8 4 5 true false

/-- Sixteen commands of the gang stand in Q8. -/
def benchQ8 (n : Nat) : State :=
  (benchCpy n).modCtx 0 (fun x => { x with copies := (List.range 16).map (fun k => (k, cpyOf n)), seq := 16 })

theorem test_hyp_CopyCommandsAreAccepted :
    ((me (benchCpy 4112)).tx.active = false ∧ Spec.commands (benchCpy 4112) (me (benchCpy 4112)) (.cpy 8 4 5 true) [8] (cpyOf 4112) ∧
      Runs (benchCpy 4112) (me (benchCpy 4112)) .u [8] ∧
      (∃ p, (benchCpy 4112).plan 0 (cpyOf 4112) = .ok p ∧ okB ((benchCpy 4112).acceptable (cpyOf 4112) p) (fun _ => true) = true ∧
        ∃ d ∈ p.dests, d.total ≠ 0) ∧ (benchCpy 4112).copyRoom 0 0 = true) ∧
    (Runs (benchQ8 4112) (me (benchQ8 4112)) .u [8] ∧ (benchQ8 4112).copyRoom 0 0 = false) ∧
    (Spec.commands (benchCpy 16) (me (benchCpy 16)) (.plane 5 4 10) []
        (Spec.convOf (benchCpy 16) (me (benchCpy 16)) .plane 5 4 10) ∧
      ∃ p, (benchCpy 16).plan 0 (Spec.convOf (benchCpy 16) (me (benchCpy 16)) .plane 5 4 10) = .ok p ∧
        okB ((benchCpy 16).acceptable (Spec.convOf (benchCpy 16) (me (benchCpy 16)) .plane 5 4 10) p) (fun _ => true) = true) ∧
    okB ((benchCpy 8).plan 0 (cpyOf 8)) (fun _ => true) = false ∧
    (Runs0 (benchG (fun g => g.setS 1 0x10000)) (me (benchG (fun g => g.setS 1 0x10000))) ∧
      2 ^ 16 ≤ ((me (benchG (fun g => g.setS 1 0x10000))).s 1).toNat) ∧
    (Tbl.rising ((benchQ8 16).ctx 0).copies = true ∧
      ∀ y ∈ ((benchQ8 16).ctx 0).copies, y.2.slot = 0 ∧ y.2.tag = (0xFFFF#64).truncate 16 ∧ y.2.sent = []) := by
  refine ⟨⟨by decide +kernel, .inl ⟨.cpy, 8, 4, 5, true, false, rfl, rfl, by decide +kernel, by decide +kernel, by decide +kernel,
      .inl ⟨rfl, rfl, rfl⟩⟩, runs_me (by decide +kernel), ok_of (by decide +kernel), by decide +kernel⟩,
    ⟨runs_me (by decide +kernel), by decide +kernel⟩,
    ⟨.inr ⟨.plane, 5, 4, 10, rfl, rfl, by decide, .inr ⟨.inl rfl, by decide +kernel⟩⟩,
      ok_of (by decide +kernel)⟩,
    by decide +kernel, ⟨runs_me (by decide +kernel), by decide +kernel⟩, by decide +kernel⟩

/-- A copy toward channel 4 of the core is outstanding. -/
def benchToward : State := (benchRange 2).modCtx 0 (fun x => { x with
  copies := [(7, { cpyOf 16 with chan := some 4, dests := [{ core := some 0, first := 0, total := 16 }] })] })

theorem test_hyp_FullBitsAndWatermarks_toward : Runs0 benchToward (me benchToward) ∧ (me benchToward).tx.active = false ∧
    16 ∣ ((me benchToward).s 0).toNat ∧ ((me benchToward).s 0).toNat + ((me benchToward).s 2).toNat ≤ 0x37000 ∧
    ((me benchToward).s 2).toNat = 16 ∧ benchToward.copiesToward 0 4 = true ∧
    (∀ n : Fin 16, ∀ x ∈ (benchToward.ctx 0).chans[n], x.base = 0x36FF0) :=
  ⟨runs_me (by decide +kernel), by decide +kernel⟩

/-- The command of n bytes, accepted by execution; number of the command. -/
def cpyRun (n : Nat) : State := (nextState? (exec (.cpy 8 4 5 true) (benchCpy n))).getD bench
def cpyNo (s : State) : Nat := ((s.ctx 0).copies.head?.map Prod.fst).getD 0

/-- The command's first chunk has been sent; a claim on the destination's first granule is granted besides. -/
def cpySent (n : Nat) : State := (nextState? (exec (.copyChunk 0 (cpyNo (cpyRun n))) (cpyRun n))).getD bench
def cpyClaimed (n : Nat) : State := (cpySent n).modCtx 0 (fun x => { x with
  ops := [{ seq := 99, slot := 0, kind := .mma, tile := 0, capA := Cap.null, capB := Cap.null, pc := 0, lt := 0,
            claims := [⟨0, 0x200, true⟩] }] })

/-- A CPY to object 2 whose first part is no longer resident. -/
def cpyObj : State := (benchCpy 16).modPart 0 (fun p => { p with maps := [(mapKey 2 0, 0)] })
def cpyObjRun : State := (nextState? (exec (.cpy 8 2 5 true) cpyObj)).getD bench

theorem test_hyp_CopyChunksLand :
    Spec.localCopy (cpyOf 4112) 4112 ∧ Spec.localCopy (cpyOf 0x2000) 0x2000 ∧
    (match (cpyRun 4112).copy? 0 (cpyNo (cpyRun 4112)) with
      | some y => decide (((cpyRun 4112).core 0).stopped = false ∧ y.stop = none ∧ y.dying = false ∧ y.walk = none ∧ y.held = false ∧ y.next < y.chunks ∧
          y.op ≠ .prune ∧ Spec.localCopy y 4112 ∧ y.dests = [{ core := some 0, first := y.dstAt, total := 4112, done := 0 }] ∧
          (cpyRun 4112).unreached 0 0 = false ∧ Spec.intact (cpyRun 4112) 0)
      | none => false) = true ∧
    (match cpyObjRun.copy? 0 (cpyNo cpyObjRun) with
      | some y => decide (y.next < y.chunks ∧ y.op ≠ .prune ∧ y.stop = none ∧ y.dying = false ∧ y.held = false ∧ y.walk = none ∧ (cpyObjRun.gang? 0 y.slot).isSome = true) &&
          (match cpyObjRun.chunkPuts 0 y y.next with | .error (.fault f) => f.code == .notResident | _ => false)
      | none => false) = true ∧
    (match (cpySent 16).copy? 0 (cpyNo (cpyRun 16)) with
      | some y => y.sent.length == 1 && decide (y.dying = false ∧ y.dests.map CopyDest.total = [16] ∧ y.dests.map CopyDest.done = [0]) &&
          (match y.sent.find? (fun z => z.dest == 0) with
            | some x => x.puts.all (fun p => p.2.2 == 0xFF && (match p.1 with | .pad c o => c == 0 && !(cpySent 16).claimed (c, o / 16) | _ => false)) &&
                decide (x.puts.map Prod.fst).Nodup
            | none => false)
      | none => false) = true ∧
    Memory.wf ((cpySent 16).ctx 0).pad = true ∧ Tbl.rising ((cpySent 16).ctx 0).copies = true ∧
    (gangIn (cpySent 16) 0 0).tokens = [] ∧ (gangIn (cpySent 16) 0 0).q[9].length < 32 ∧ (cpyClaimed 16).claimed (0, 0x200) = true :=
  by decide +kernel

/-! Queues, records, launches and allotment (O40 to O45). -/

/-- A property of every gang of a module that lists core (0,0) alone. -/
theorem every_gang {s : State} {q : Gang → Prop} [DecidablePred q] (e : s.cores.map Prod.fst = [0])
    (h : ∀ k : SlotId, (s.gang? 0 k).all (fun g => decide (q g)) = true) : ∀ c k g, s.gang? c k = some g → q g := by
  intro c k g hg
  obtain rfl := only_core e hg
  have := h k
  rw [hg] at this
  simpa using this

/-- The boot gang's queue n holds m entries of lane numbers; its partner is slot 1. -/
def benchQ (n : Fin 16) (m : Nat) : State :=
  benchG (fun g => { g with q := g.q.set n (List.replicate m (Lanes.of (fun i => BitVec.ofNat 32 i.val))), partner := some 1 })

/-- S3 starts a selection of the 32 greatest signed keys; n inputs stand queued. -/
def selParam : DWord := 0x0000000000000C9F
def benchSel (n : Nat) : State := benchG (fun g =>
  ({ g with selIn := List.replicate n { vals := Lanes.all 0x80000000, mask := 0xFFFFFFFF, param := selParam, ftz := false, lt := 0 } } : Gang).setS 3 selParam)

theorem test_hyp_Queues_words :
    Runs bench (me bench) .u [63] ∧ modeEtype (me bench).regs.mode ≠ 13 ∧ modeEtype (me bench).regs.mode ≠ 14 ∧
    (me bench).tx.active = false ∧ ¬ Spec.selects (me bench) ((me bench).s 3) ∧
    (Runs (benchSel 31) (me (benchSel 31)) .u [63] ∧ Spec.selects (me (benchSel 31)) ((me (benchSel 31)).s 3) ∧
      (me (benchSel 31)).selIn.length < 32) ∧
    (Spec.selects (me (benchSel 32)) ((me (benchSel 32)).s 3) ∧ 32 ≤ (me (benchSel 32)).selIn.length) ∧
    (Runs (benchQ 13 2) (me (benchQ 13 2)) .u [31] ∧ (me (benchQ 13 2)).q[13] ≠ []) ∧
    ((me bench).q[13] = [] ∧ (me bench).sel = none ∧ (me bench).selIn = []) ∧ ((me (benchSel 31)).q[13] = [] ∧ (me (benchSel 31)).selIn ≠ []) ∧
    (me bench).partner = none ∧
    (∀ n ∈ [0, 7], ∀ m ∈ [0, 7, 8], (me (benchQ n m)).partner ≠ none ∧ ((benchQ n m).gang? 0 0).isSome = true ∧
      ((gangIn (benchQ n m) 0 0).q[n]).length = m) ∧
    ((me (benchQ 11 1)).q[11] ≠ [] ∧ (me (benchQ 14 4)).q[14] ≠ [] ∧ (me bench).q[11] = []) ∧
    (bench.part bench.cur.core).det = false :=
  ⟨runs_me (by decide +kernel), by decide +kernel, by decide +kernel, by decide +kernel, by decide +kernel,
    ⟨runs_me (by decide +kernel), by decide +kernel⟩, by decide +kernel, ⟨runs_me (by decide +kernel), by decide +kernel⟩,
    by decide +kernel⟩

/-- A drain's entry waits for Q11, which holds seven. -/
def benchDrain : State := benchG (fun g => { g with drainOut := [Lanes.all 7], q := g.q.set 11 (List.replicate 7 (Lanes.all 0)) })

theorem test_hyp_Queues_moves :
    ((gangIn (benchSel 1) 0 0).selIn = { vals := Lanes.all 0x80000000, mask := 0xFFFFFFFF, param := selParam, ftz := false, lt := 0 } :: [] ∧
      ((benchSel 1).core 0).stopped = false ∧ (gangIn (benchSel 1) 0 0).sel = none ∧ (gangIn (benchSel 1) 0 0).q[13] = [] ∧
      selParam.getLsbD 10 = true ∧ selParam.getLsbD 11 = true ∧ selParam.getLsbD 9 = false ∧ selParam.getLsbD 12 = false ∧
      bits selParam 8 7 = 1 ∧ selParam.getLsbD 6 = false ∧ bits selParam 5 0 < 32) ∧
    ((gangIn benchDrain 0 0).drainOut = Lanes.all 7 :: [] ∧ (gangIn benchDrain 0 0).q[11].length < 8 ∧ (benchDrain.core 0).stopped = false) ∧
    (∀ x ∈ [((11 : QReg), (11 : Fin 16)), (0, 0), (7, 7)],
      Spec.stands (gangIn (waitsAt (benchQ x.2 1) (.queue x.1.toNat) (encode (.qpop 31 x.1))) 0 0) (.queue x.1.toNat) (.qpop 31 x.1) ∧
        (gangIn (benchQ x.2 1) 0 0).shadow = false ∧ (gangIn (benchQ x.2 1) 0 0).partner ≠ none ∧ (gangIn (benchQ x.2 1) 0 0).q[x.1.toFin] ≠ []) ∧
    (Spec.stands (gangIn (waitsAt (benchQ 7 7) (.queue 7) (encode (.qpush 7 31))) 0 0) (.queue 7) (.qpush 7 31) ∧
      (gangIn (benchQ 7 7) 0 0).q[(7 : QReg).toFin].length < 8) :=
  by decide +kernel

/-- Core (0,0) with n records of priority 31 in its inbox; S9 names site a. -/
def benchIn (n : Nat) (a : DWord) : State :=
  (benchG (fun g => g.setS 9 a)).modCtx 0 (fun x => { x with inbox := List.replicate n ((List.replicate 16 0).set 2 0x1F0000) })

/-- Ring 5 of core (0,0), of generation 3 and two slots, with some records; S9 is its handle. -/
def ring5 (pl : List RPlace) (lend : Nat) : Ring :=
  { state := .open_, gen := 3, cap := Cap.mk' 0 (pR + pW + pK) 0 0 padEnd true, creg := 0, boff := 0x36F80, logn := 1, lend := lend, tail := 1,
    places := pl }
def handle5 : DWord := BitVec.ofNat 64 (5 * 2 ^ 12 + 3 * 2 ^ 18)
def benchRing (pl : List RPlace) : State :=
  (benchIn 0 handle5).modCtx 0 (fun x => { x with rings := [(5, ring5 pl 0)] })

/-- S8 asks for the smallest ring at the end of LOCAL below the packet region, S7 for the largest, with 1024 lent slots, at its start. -/
def benchMk : State := benchG (fun g => (g.setS 8 (BitVec.ofNat 64 (0x36F80 * 2 ^ 32 + 1))).setS 7 (BitVec.ofNat 64 (1024 * 16 + 11)))

theorem test_hyp_RecordWords :
    (me bench).tx.active = false ∧ (bench.part bench.cur.core).det = false ∧ bench.cur.stream = none ∧
    (Runs (benchIn 63 0) (me (benchIn 63 0)) .u [63] ∧ bits ((me (benchIn 63 0)).s 9) 63 12 = 0 ∧ Spec.reaches (benchIn 63 0) 0 0 ∧
      Spec.released (benchIn 63 0) 0 0 ∧ ((benchIn 63 0).ctx ((benchIn 63 0).route 0)).inbox.length < 64 ∧
      (benchIn 63 0).senders ((benchIn 63 0).route 0) = []) ∧
    64 ≤ ((benchIn 64 0).ctx ((benchIn 64 0).route 0)).inbox.length ∧
    (Runs (benchIn 0 0xFFF) (me (benchIn 0 0xFFF)) .u [63] ∧ bits ((me (benchIn 0 0xFFF)).s 9) 63 12 = 0 ∧
      (benchIn 0 0xFFF).samePart 0 0xFFF = false) ∧
    (Runs0 (benchIn 1 0) (me (benchIn 1 0)) ∧ ((benchIn 1 0).ctx 0).inbox ≠ [] ∧ Spec.lineEmpty (benchIn 1 0) 0) ∧
    (Runs0 bench (me bench) ∧ (bench.ctx 0).inbox = []) ∧
    ((State.streamed bench true).cur.stream ≠ none ∧ Runs0 (State.streamed bench true) (me (State.streamed bench true))) ∧
    (Runs0 benchMk (me benchMk) ∧ Spec.localCap ((me benchMk).c 0) (pR + pW) ∧ Tbl.rising (benchMk.ctx 0).rings = true ∧
      (benchMk.ctx 0).rings.length < 64 ∧
      ∀ p ∈ [(8 : SReg), 7],
        (let logn := bits ((me benchMk).s p) 3 0
         let boff := bits ((me benchMk).s p) 63 32
         bits ((me benchMk).s p) 31 15 = 0 ∧ 1 ≤ logn ∧ logn ≤ 12 ∧ bits ((me benchMk).s p) 14 4 ≤ 1024 ∧
           64 ∣ ((me benchMk).c 0).origin + boff ∧ boff + 64 * 2 ^ logn ≤ ((me benchMk).c 0).length ∧
           ((me benchMk).c 0).origin + boff + 64 * 2 ^ logn ≤ 0x37000)) ∧
    (∀ pl ∈ [[], [RPlace.own 0, .own 1]],
      bits ((me (benchRing pl)).s 9) 63 26 = 0 ∧ Spec.reaches (benchRing pl) 0 (((me (benchRing pl)).s 9).truncate 12) ∧
        Tbl.get? ((benchRing pl).ctx ((benchRing pl).route (((me (benchRing pl)).s 9).truncate 12))).rings
          (bits ((me (benchRing pl)).s 9) 17 12) = some (ring5 pl 0) ∧
        (ring5 pl 0).gen.toNat = bits ((me (benchRing pl)).s 9) 25 18 ∧ (ring5 pl 0).state = .open_ ∧
        Tbl.rising ((benchRing pl).ctx 0).rings = true ∧ ((benchRing pl).ctx 0).ringReqs = [] ∧ modeScope (me (benchRing pl)).regs.mode < 5 ∧ Spec.released (benchRing pl) 0 0 ∧
        modeEtype (me (benchRing pl)).regs.mode = 0) ∧
    (Runs0 (benchRing []) (me (benchRing [])) ∧ Runs (benchRing []) (me (benchRing [])) .u [63]) := by
  refine ⟨by decide +kernel, by decide +kernel, by decide +kernel, ⟨runs_me (by decide +kernel), by decide +kernel⟩, by decide +kernel,
    ⟨runs_me (by decide +kernel), by decide +kernel⟩, ⟨runs_me (by decide +kernel), by decide +kernel, ?_⟩,
    ⟨runs_me (by decide +kernel), by decide +kernel⟩, ⟨by decide +kernel, runs_me (by decide +kernel)⟩,
    ⟨runs_me (by decide +kernel), by decide +kernel⟩, by decide +kernel, runs_me (by decide +kernel), runs_me (by decide +kernel)⟩
  intro k h hg
  exact every_gang (q := fun h => h.why? ≠ some .inbox ∧ h.why? ≠ some .q14) (by decide +kernel) (by decide +kernel) 0 k h hg

/-- The boot gang waits at `send v4, s9` for room at its own core, whose inbox holds 63 records; at WAITMSG before one record. -/
def benchSend : State := waitsAt (benchIn 63 0) (.send 0) (encode (.send 4 9))
def benchMsg : State := waitsAt (benchIn 1 0) .inbox (encode .waitmsg)

/-- A request, number 2, of the boot gang at ring 5. -/
def ringReq (push : Bool) : RingReq :=
  { seq := 2, since := 0, core := 0, slot := 0, handle := handle5, push := if push then some (List.replicate 16 9) else none, dst := 63, lt := 0 }
def benchReq (push : Bool) (rs : Tbl Ring) : State :=
  (waitsAt bench .ring 0).modCtx 0 (fun x => { x with ringReqs := [ringReq push], rings := rs })

theorem test_hyp_RecordsArrive :
    ((match benchSend.senders 0 with
        | (d, k, g) :: rest => decide (d = 0 ∧ k = 0) && rest.isEmpty &&
            decide (decode g.waitWord = some (.send 4 9) ∧ g.s 9 = 0 ∧ g.tx.active = false)
        | [] => false) = true ∧
      (benchSend.ctx 0).inbox.length < 64 ∧ (gangIn benchSend 0 0).tx.active = false ∧ (benchSend.part 0).det = false ∧
      benchSend.unstopped 0 (gangIn benchSend 0 0) = true ∧ modeEtype (gangIn benchSend 0 0).regs.mode ≠ 13 ∧
      modeEtype (gangIn benchSend 0 0).regs.mode ≠ 14 ∧
      decode (gangIn benchSend 0 0).waitWord = some (.send 4 9) ∧ bits ((gangIn benchSend 0 0).s 9) 63 12 = 0 ∧
      Spec.reaches benchSend 0 (((gangIn benchSend 0 0).s 9).truncate 12) ∧
      benchSend.route (((gangIn benchSend 0 0).s 9).truncate 12) = 0 ∧ Spec.released benchSend 0 0) ∧
    ((benchMsg.waiters [0] Why.inboxLine).length = 1 ∧ decode (gangIn benchMsg 0 0).waitWord = some .waitmsg ∧
      (benchMsg.core 0).stopped = false ∧ (gangIn benchMsg 0 0).chan.role ≠ .subscriber ∧ (benchMsg.ctx 0).inbox ≠ []) ∧
    (∀ x ∈ [(true, ([] : Tbl Ring)), (true, [(5, ring5 [] 0)]), (true, [(5, ring5 [.own 0, .own 1] 0)]), (false, [(5, ring5 [] 0)]),
        (false, [(5, ring5 [.own 0] 0)])],
      ((benchReq x.1 x.2).ctx 0).ringReqs.find? (fun q => q.seq == 2) = some (ringReq x.1) ∧ ((benchReq x.1 x.2).core 0).stopped = false ∧
        (∀ p ∈ ((benchReq x.1 x.2).ctx 0).ringReqs, p.seq < 2 → p.blocked = true ∧ p.handle ≠ (ringReq x.1).handle) ∧
        (gangIn (benchReq x.1 x.2) 0 0).why? = some .ring ∧ (gangIn (benchReq x.1 x.2) 0 0).tx.active = false ∧
        ((benchReq x.1 x.2).part 0).det = false ∧ (benchReq x.1 x.2).route ((ringReq x.1).handle.truncate 12) = 0 ∧
        (benchReq x.1 x.2).lostAt (.pad 0 ((ring5 [] 0).cap.origin + (ring5 [] 0).boff)) 64 = false ∧ bits (ringReq x.1).handle 17 12 = 5 ∧ bits (ringReq x.1).handle 25 18 = (ring5 [] 0).gen.toNat ∧
        Memory.wf ((benchReq x.1 x.2).ctx 0).pad = true ∧ (ringReq x.1).blocked = false ∧
        (benchReq x.1 x.2).unstopped 0 (gangIn (benchReq x.1 x.2) 0 0) = true ∧ (ringReq x.1).walk = none) ∧
    (List.replicate 16 (9 : Word)).length = 16 ∧
    (∀ x ∈ [(([] : List RPlace), 0), ([.own 0, .own 1], 2)],
      ((ring5 x.1 0).places.filter (fun p => match p with | .own _ => true | _ => false)).length = x.2) :=
  by decide +kernel

/-- A launch header: ENTRY 2^40, n lanes beyond the first, W0 and the rest of the widths zero, NCAP k with CAPB 0x80, EXACT on core (0,0). -/
def hdrBytes (n k : Nat) (exact : Bool) : List Byte :=
  toBytes 8 0x10000000000 ++ List.replicate 32 0 ++ toBytes 4 (n + 2 ^ 21 * k) ++ List.replicate 8 0 ++ toBytes 4 0x80 ++
    toBytes 8 (if exact then 16 else 1)

/-- The header of 32 lanes and 15 capabilities stands at 0x36FC0, which S1 names; S4 to S6 are parameters of BINCFG for bin 255: c 32 and t
65535, c 0, c 1 and t 0. -/
def benchHdr : State :=
  (benchG (fun g => (((((g.setS 1 0x36FC0).setS 2 0x36FC1).setS 3 0x37000).setS 4 0xFFFF20FF).setS 5 0xFF).setS 6 0x1FF)).modCtx 0 (fun x =>
    { x with pad := x.pad.write 0x36FC0 (hdrBytes 31 15 false) })

/-- Bin 255 of die 0, with n records that entered at TICK 0; its header has ENTRY 0. -/
def bin255 (n c : Nat) : Bin :=
  { launch := { header := List.replicate 64 0, caps := [], lt := 0, since := 0 }, c := c, t := 65535,
    pending := List.replicate n ⟨0, 0, List.replicate 16 0⟩ }
def benchBin (n c : Nat) : State := benchHdr.modDie 0 (fun d => { d with bins := [(255, bin255 n c)] })

/-- The launch queue of die 0 holds n launches. -/
def benchLQ (n : Nat) : State := benchHdr.modDie 0 (fun d =>
  { d with launch := List.replicate n { header := hdrBytes 31 15 false, caps := [], lt := 0, since := 0 } })

theorem test_hyp_LaunchWords_spawn :
    (Runs bench (me bench) .u [63] ∧ bench.binOf 0 (Spec.entry (me bench) 63) = none ∧ (me bench).tx.active = false ∧
      (bench.part bench.cur.core).det = false) ∧
    (∀ x ∈ [(62, 64), (63, 64), (64, 64)],
      (benchBin x.1 x.2).binOf (dieOf 0) (Spec.entry (me (benchBin x.1 x.2)) 63) = some (255, bin255 x.1 x.2) ∧
        Tbl.get? ((benchBin x.1 x.2).dies[dieOf 0]).bins 255 = some (bin255 x.1 x.2) ∧ Spec.released (benchBin x.1 x.2) 0 0 ∧
        modeEtype (me (benchBin x.1 x.2)).regs.mode = 0 ∧ runsB (benchBin x.1 x.2) .u [63] (fun _ => true) = true) ∧
    ((bin255 62 64).waiting = [] ∧ (bin255 62 64).pending.length + 1 < (bin255 62 64).c ∧
      (bin255 63 64).pending.length + 1 = (bin255 63 64).c ∧ 64 ≤ (bin255 64 64).pending.length) ∧
    (∀ c k h, (benchBin 62 64).gang? c k = some h → h.why? ≠ some .binFull) ∧
    (∀ c k h, (benchBin 63 64).gang? c k = some h → h.why? ≠ some .binFull) :=
  ⟨⟨runs_me (by decide +kernel), by decide +kernel⟩, by decide +kernel, by decide +kernel,
    every_gang (by decide +kernel) (by decide +kernel), every_gang (by decide +kernel) (by decide +kernel)⟩

theorem test_hyp_LaunchWords_bincfg :
    (Runs0 benchHdr (me benchHdr) ∧ Tbl.rising (benchHdr.dies[dieOf 0]).bins = true ∧
      ∀ a ∈ [(4 : SReg), 5, 6], bits ((me benchHdr).s a) 15 14 = 0 ∧ bits ((me benchHdr).s a) 63 32 = 0) ∧
    ((benchHdr.dies[dieOf 0]).bins = [] ∧ bits ((me benchHdr).s 5) 13 8 = 0) ∧
    (Tbl.get? ((benchBin 1 1).dies[dieOf 0]).bins (bits ((me (benchBin 1 1)).s 5) 7 0) = some (bin255 1 1) ∧ (bin255 1 1).pending ≠ [] ∧
      Tbl.rising ((benchBin 1 1).dies[dieOf 0]).bins = true ∧ runsB (benchBin 1 1) .u [] (fun _ => true) = true) ∧
    (bits ((me benchHdr).s 6) 13 8 ≠ 0 ∧ bits ((me benchHdr).s 6) 31 16 = 0) ∧
    (bits ((me benchHdr).s 4) 13 8 = 32 ∧ bits ((me benchHdr).s 4) 31 16 = 65535 ∧ benchHdr.headerBusy 0 ((me benchHdr).s 1) = false ∧
      ∃ y, benchHdr.readHeader 0 ((me benchHdr).s 1) = .ok y ∧ y.1.w.getD 0 0 = 0 ∧ 32 ≤ y.1.lanes + 1 ∧ y.1.ncap ≤ 15) :=
  ⟨⟨runs_me (by decide +kernel), by decide +kernel⟩, by decide +kernel, by decide +kernel, by decide +kernel,
    by decide +kernel, by decide +kernel, by decide +kernel, ok_of (by decide +kernel)⟩

theorem test_hyp_LaunchWords_launch :
    (Runs0 benchHdr (me benchHdr) ∧ Spec.released benchHdr 0 0 ∧
      ∀ a ∈ [(1 : SReg), 2, 3], benchHdr.headerBusy benchHdr.cur.core ((me benchHdr).s a) = false) ∧
    ((me benchHdr).s 2).toNat % 64 ≠ 0 ∧ (((me benchHdr).s 3).toNat % 64 = 0 ∧ 0x37000 < ((me benchHdr).s 3).toNat + 64) ∧
    (okB ((benchLQ 63).readHeader 0 ((me (benchLQ 63)).s 1)) (fun _ => true) = true ∧ ((benchLQ 63).dies[dieOf 0]).launch.length < 64 ∧
      runsB (benchLQ 63) .u [] (fun _ => true) = true ∧ Spec.released (benchLQ 63) 0 0 ∧
      (benchLQ 63).headerBusy 0 ((me (benchLQ 63)).s 1) = false) ∧
    (∀ c k h, (benchLQ 63).gang? c k = some h → h.why? ≠ some .launchQ) ∧
    (okB ((benchLQ 64).readHeader 0 ((me (benchLQ 64)).s 1)) (fun _ => true) = true ∧ 64 ≤ ((benchLQ 64).dies[dieOf 0]).launch.length) :=
  ⟨⟨runs_me (by decide +kernel), by decide +kernel⟩, by decide +kernel, by decide +kernel, by decide +kernel,
    every_gang (by decide +kernel) (by decide +kernel), by decide +kernel⟩

/-- The boot gang holds n registers; slot 3 holds a gang of m. -/
def benchAllot (n m : Nat) : State := (benchG (fun g => { g with allot := n })).setGang 0 3 { Gang.fresh with allot := m }

/-- Eight gangs that each count a window: no reachable core holds them. -/
def benchWindows : State := (benchG (fun g => { g with allot := 48, partner := some 1 })).modCtx 0 (fun x =>
  { x with slots := x.slots.map (fun o => some (o.getD { Gang.fresh with allot := 48, partner := some 0 })) })

theorem nothing_waits {s : State} (e : s.cores.map Prod.fst = [0])
    (h : ∀ k : SlotId, (s.gang? 0 k).all (fun h => decide (h.why? ≠ some .launchQ ∧ h.why? ≠ some .binFull ∧ h.why? ≠ some .binDrain)) = true)
    (d : ∀ d : Fin 4, (s.dies[d]).launch = [] ∧ ∀ b ∈ (s.dies[d]).bins, b.2.waiting = []) : Spec.nothingWaits s :=
  ⟨d, every_gang e h⟩

theorem test_hyp_AllotmentAndIdentityWords :
    (Runs0 (benchAllot 16 64) (me (benchAllot 16 64)) ∧ (me (benchAllot 16 64)).tx.active = false ∧
      (me (benchAllot 16 64)).allot < (64 : BitVec 12).toNat ∧ ((benchAllot 16 64).ctx 0).growImpossible 0 (me (benchAllot 16 64)) 64 = false ∧
      Spec.nothingWaits (benchAllot 16 64) ∧ Spec.noGrow (benchAllot 16 64) 0 0 ∧
      ((benchAllot 16 64).ctx 0).poolUsed + 64 ≤ 512 + 16 ∧ 16 ≤ ((benchAllot 16 64).ctx 0).poolUsed) ∧
    (Runs0 bench (me bench) ∧ (64 : BitVec 12).toNat = (me bench).allot ∧ (0 : BitVec 12).toNat < (me bench).allot ∧
      8 ∣ (64 : Nat) ∧ 16 ≤ (64 : Nat)) ∧
    ((me benchWindows).allot < (64 : BitVec 12).toNat ∧ (benchWindows.ctx 0).growImpossible 0 (me benchWindows) 64 = true ∧
      runsB benchWindows .u [] (fun _ => true) = true) ∧
    (((benchAllot 16 465).ctx 0).growImpossible 0 (me (benchAllot 16 465)) 64 = false ∧
      512 + 16 < ((benchAllot 16 465).ctx 0).poolUsed + 64 ∧ runsB (benchAllot 16 465) .u [] (fun _ => true) = true) ∧
    Runs bench (me bench) .u [(62 : VReg).toNat, (62 : VReg).toNat + 1] ∧ Runs bench (me bench) .u [63] :=
  ⟨⟨runs_me (by decide +kernel), by decide +kernel, by decide +kernel, by decide +kernel,
      nothing_waits (by decide +kernel) (by decide +kernel) (by decide +kernel),
      fun j h a hj hg => (every_gang (q := fun h => h.why? = none) (by decide +kernel) (by decide +kernel) 0 j h hg) ▸ nofun,
      by decide +kernel⟩,
    ⟨runs_me (by decide +kernel), by decide +kernel⟩, by decide +kernel, by decide +kernel, runs_me (by decide +kernel),
    runs_me (by decide +kernel)⟩

/-- One launch, EXACT on core (0,0), with 16 capabilities, waits on die 0. -/
def benchPlace : State := bench.modDie 0 (fun d =>
  { d with launch := [{ header := hdrBytes 31 16 true, caps := [], lt := 0, since := 0 }] })

/-- The boot gang, of 16 registers, waits to grow to 64, beside a gang of m. -/
def benchGrow (m : Nat) : State := waitsAt (benchAllot 16 m) (.grow 64) (encode (.grow 64))

theorem test_hyp_PlacementsAndGrants :
    ((benchBin 1 64).partOf 0 = some 0 ∧ ((benchBin 1 64).parts[0]).det = false ∧
      Tbl.get? ((benchBin 1 64).dies[0]).bins (255 : BitVec 8).toNat = some (bin255 1 64) ∧ (bin255 1 64).pending ≠ [] ∧
      (benchBin 1 64).dieTick 0 < 0 + (bin255 1 64).t) ∧
    0 + (bin255 1 64).t ≤ ((benchBin 1 64).modPart 0 (fun p => { p with tick := 65535 })).dieTick 0 ∧
    (benchPlace.partOf 0 = some 0 ∧ (∀ e : Fin 4, (e ≠ 0 → (benchPlace.dies[e]).launch = []) ∧ ∀ b ∈ (benchPlace.dies[e]).bins, b.2.waiting = []) ∧
      (∀ c j h, benchPlace.gang? c j = some h → h.why? ≠ some .launchQ ∧ h.why? ≠ some .binFull ∧ h.why? ≠ some .binDrain) ∧
      (let h := Hdr.parse (hdrBytes 31 16 true)
       let x := benchPlace.ctx h.core
       h.exact = true ∧ (∀ e ∈ h.ext, e = 0) ∧ h.shadow = 0 ∧ h.wins = 0 ∧ h.ncap ≤ 16 ∧ benchPlace.noCore h.core = false ∧
         x.freeSlot = some 1 ∧ x.poolUsed + h.allot ≤ 512 ∧ (∀ t : Fin 8, h.tiles.getLsbD t.val = true → (x.tiles[t]).owner = none) ∧
         h.core = 0 ∧ h.lanes = 31) ∧
      (∀ j g a, benchPlace.gang? 0 j = some g → g.why? ≠ some (.grow a))) ∧
    (∀ m ∈ [64, 465], Spec.stands (gangIn (benchGrow m) 0 0) (.grow (64 : BitVec 12).toNat) (.grow 64) ∧
      (gangIn (benchGrow m) 0 0).tx.active = false ∧ (gangIn (benchGrow m) 0 0).allot = 16 ∧ (gangIn (benchGrow m) 0 0).partner = none ∧
      ((benchGrow m).ctx 0).growImpossible 0 { gangIn (benchGrow m) 0 0 with status := .running } 64 = false ∧ ((benchGrow m).core 0).stopped = false) ∧
    (Spec.nothingWaits (benchGrow 64) ∧ Spec.noGrow (benchGrow 64) 0 0 ∧ ((benchGrow 64).ctx 0).poolUsed + 64 ≤ 512 + 16) ∧
    (Spec.nothingWaits (benchGrow 465) ∧ Spec.noGrow (benchGrow 465) 0 0 ∧ 512 + 16 < ((benchGrow 465).ctx 0).poolUsed + 64) := by
  have grows : ∀ m ∈ [64, 465], ∀ j : SlotId, j ≠ 0 → ((benchGrow m).gang? 0 j).all (fun h => decide (h.why? = none)) = true := by decide +kernel
  refine ⟨by decide +kernel, by decide +kernel,
    ⟨by decide +kernel, by decide +kernel, every_gang (by decide +kernel) (by decide +kernel), by decide +kernel,
      fun j g a hg => (every_gang (q := fun h => h.why? = none) (by decide +kernel) (by decide +kernel) 0 j g hg) ▸ nofun⟩,
    by decide +kernel,
    ⟨nothing_waits (by decide +kernel) (by decide +kernel) (by decide +kernel), ?_, by decide +kernel⟩,
    ⟨nothing_waits (by decide +kernel) (by decide +kernel) (by decide +kernel), ?_, by decide +kernel⟩⟩
  · intro j h a hj hg
    have := grows 64 (by decide) j hj
    rw [hg] at this
    rw [of_decide_eq_true this]
    nofun
  · intro j h a hj hg
    have := grows 465 (by decide) j hj
    rw [hg] at this
    rw [of_decide_eq_true this]
    nofun
/-! The matrix array (O46 to O48). -/

/-- C0 is LOCAL with M, R and W over all of the scratchpad; V62 and V63 are a format word and an operand descriptor; S1 to S3 name places
of a tile transfer: the last for 2,048 bytes, an f32 drain there, the last for a 16-plane BNI drain; the gang holds tile 7. -/
def benchTile (fmt : Word) (desc : List Word) : State :=
  (benchG (fun g => (((((g.setC 0 (Cap.mk' 0 (pM + pR + pW) 0 0 padEnd true)).setVAll 62 (Lanes.all fmt)).setVAll 63
    (Lanes.of (fun i => desc.getD i.val 0))).setS 1 0x36800).setS 2 (BitVec.ofNat 64 (0x36800 + 6 * 2 ^ 32))).setS 3
    (BitVec.ofNat 64 (0x2E800 + 30 * 2 ^ 32)))).modCtx 0 (fun x => { x with tiles := x.tiles.set 7 { x.tiles[7] with owner := some 0 } })

/-- The largest dense sum of one-plane operands: 32 steps, A at 0 and B at 0x20000, of 32 chunks each. -/
def benchMma : State := benchTile 0 [0, 0x20000, 31, 31]

/-- A sparse A at 0: N of M = 4 kept in each of 256 groups, one plane, and its checksum; B at 0x10000. -/
def spBytes (n csum : Byte) : List Byte := [0xC5, 1, n, 0, 0, 0, 0, 1, csum, 0] ++ List.replicate 6 0
def benchSp (n csum : Byte) (full : Nat) : State :=
  (benchTile 0x40000 [0, 0x10000, 0, 0]).modCtx 0 (fun x => { x with pad := x.pad.write 0 (spBytes n csum), full := List.range full })

/-- Reading the scratchpad of a core byte by byte is reading its memory. -/
theorem pad_reader {s : State} {c : CoreId} {m : Memory} (h : (s.ctx c).pad = m) : s.padReader c = fun a => m.get a := by
  funext a
  simp [State.padReader, State.readByte, State.homeRead, Memory.read, h]

/-- The cells of a header. -/
def spCells (n csum : Byte) : Memory := Memory.write [] 0 (spBytes n csum)

/-- The plan of an MMA of the executing gang is an operation. -/
def planOp (s : State) (sparse : Bool) (t : TileNo) (n : Nat) : Option TileOp :=
  match s.planMma (me s) sparse t n 62 0 0 with
  | .ok (.op o) => some o
  | _ => none
def planHeader (s : State) (sparse : Bool) (t : TileNo) (n : Nat) : Bool :=
  match s.planMma (me s) sparse t n 62 0 0 with
  | .ok .header => true
  | _ => false

/-- An operation of the gang in slot 0. -/
def tileOp (kind : TileKind) (t : TileNo) (fmt : Word) (desc : List Word) (n step : Nat) (claims : List Claim) : TileOp :=
  { seq := 5, slot := 0, kind := kind, tile := t, fmt := fmt, desc := desc, n := n, step := step, claims := claims,
    capA := Cap.mk' 0 (pM + pR + pW) 0 0 padEnd true, capB := Cap.mk' 0 (pM + pR + pW) 0 0 padEnd true, pc := 0, lt := 0 }

/-- Core (0,0) with its operations, the one that runs, and what its gang waits for. -/
def benchOps (s : State) (ops : List TileOp) (running : Option Nat) (w : Why) : State :=
  (waitsAt s w 0).modCtx 0 (fun x => { x with ops := ops, running := running, seq := 6 })

/-- Eight operations of the gang stand in Q10. -/
def benchQ10 (n : Nat) : State :=
  benchMma.modCtx 0 (fun x => { x with ops := List.replicate n (tileOp .mzero 7 0 [] 0 0 []), seq := 6 })

theorem test_hyp_MatrixWords_sums :
    (Runs benchMma (me benchMma) .u [(62 : VReg).toNat, (62 : VReg).toNat + 1] ∧ (me benchMma).tx.active = false ∧ (me benchMma).poisoned = [] ∧
      (benchMma.ctx 0).q10 0 < 8 ∧ (planOp benchMma false 7 ((31 : BitVec 5).toNat + 1)).any (fun o => fwStrm o.fmt == false) = true) ∧
    (Runs (benchR (fun r => { r with exm := 0 })) (me (benchR (fun r => { r with exm := 0 }))) .u [62, 63] ∧
      (me (benchR (fun r => { r with exm := 0 }))).active = 0) ∧
    (∃ a b : Fin 32, Mask.has (me benchMma).active a = true ∧ Mask.has (me benchMma).active b = true ∧
      ((me benchMma).v 63)[a] ≠ ((me benchMma).v 63)[b]) ∧
    okB (benchMma.planMma (me benchMma) false 6 1 62 0 0) (fun _ => true) = false ∧
    (planHeader (benchSp 1 0 0) true 7 1 = true ∧ (planOp (benchSp 1 0 1) true 7 1).isSome = true ∧
      Runs (benchSp 1 0 1) (me (benchSp 1 0 1)) .u [62, 63] ∧ (me (benchSp 1 0 1)).poisoned = []) ∧
    (¬ ((benchQ10 8).ctx 0).q10 0 < 8 ∧ (planOp (benchQ10 8) false 7 1).isSome = true) :=
  ⟨⟨runs_me (by decide +kernel), by decide +kernel⟩, ⟨runs_me (by decide +kernel), by decide +kernel⟩,
    ⟨0, 1, by decide +kernel⟩, by decide +kernel, ⟨by decide +kernel, by decide +kernel, runs_me (by decide +kernel), by decide +kernel⟩,
    by decide +kernel⟩

theorem test_hyp_MatrixWords_tiles :
    (Runs0 benchMma (me benchMma) ∧ Spec.tileOf benchMma (me benchMma) 7 ∧ ¬ Spec.tileOf benchMma (me benchMma) 0 ∧
      (me benchMma).poisoned = [] ∧ Spec.localCap ((me benchMma).c 0) (pM + pR) ∧ Spec.localCap ((me benchMma).c 0) pW) ∧
    (¬ ((benchQ10 8).ctx 0).q10 0 < 8 ∧ ((benchQ10 7).ctx 0).q10 0 < 8 ∧ Spec.tileOf (benchQ10 8) (me (benchQ10 8)) 7) ∧
    (let off := ((me benchMma).c 0).origin + bits ((me benchMma).s 1) 31 0
     bits ((me benchMma).s 1) 63 33 = 0 ∧ 128 ∣ bits ((me benchMma).s 1) 31 0 ∧ off + 2048 ≤ ((me benchMma).c 0).origin + ((me benchMma).c 0).length ∧ off + 2048 ≤ 0x37000) ∧
    (∀ b ∈ [(2 : SReg), 3],
      (let off := ((me benchMma).c 0).origin + bits ((me benchMma).s b) 31 0
       let ty := bits ((me benchMma).s b) 39 32
       let size := if ty = 6 then 2048 else if ty = 8 then 1024
         else 15 * ((((ty - 14) * 128 + 32 + 127) / 128) * 128) + (ty - 14) * 128 + bits ((me benchMma).s b) 44 40 + 1
       bits ((me benchMma).s b) 63 45 = 0 ∧ (ty = 6 ∨ ty = 8 ∨ (16 ≤ ty ∧ ty ≤ 30)) ∧ (ty < 16 → bits ((me benchMma).s b) 44 40 = 0) ∧
         128 ∣ bits ((me benchMma).s b) 31 0 ∧ off + size ≤ ((me benchMma).c 0).origin + ((me benchMma).c 0).length ∧ off + size ≤ 0x37000)) ∧
    ((benchMma.part benchMma.cur.core).det = false ∧ ((benchMma.ctx 0).tiles[(7 : TileNo).toFin]).kdone < 32 ∧
      (∀ y ∈ benchMma.contexts (benchMma.part 0), ∀ o ∈ y.2.ops, o.mate ≠ some 0) ∧ modeEtype (me benchMma).regs.mode = 0) ∧
    Spec.pending benchMma 0 0 7 = [] ∧ Spec.pending (benchQ10 7) 0 0 7 ≠ [] :=
  ⟨⟨runs_me (by decide +kernel), by decide +kernel⟩, by decide +kernel⟩

/-- What every clause of MatrixMoves asks of a state with one operation on core (0,0). -/
abbrev MovesFor (s : State) (o : TileOp) : Prop :=
  (s.core 0).stopped = false ∧ o.slot = 0 ∧ (s.gang? 0 0).isSome = true ∧ (∀ kv ∈ s.cores, ∀ p ∈ kv.2.ctx.ops, p.mate = none) ∧
    (∀ y ∈ s.savedContexts (s.part 0), ∀ p ∈ y.2.ops, p.mate = none) ∧ s.op? 0 o.seq = some o ∧ o.held = false

/-- Tile 3 is REDUN and its twin differs. -/
def benchRedun : State := bench.modCtx 0 (fun x => { x with
  tiles := (x.tiles.set 3 { x.tiles[3] with redun := true, owner := some 0 }).set 7 { x.tiles[7] with cells := Vector.replicate 32 (Vector.replicate 16 1) } })

def opStart : TileOp := tileOp .mma 7 0 [0, 0x1000, 0, 0] 1 0 [⟨0, 0, true⟩]
def opStep (n st : Nat) (granted : Bool) : TileOp := tileOp .mma 7 0 [0, 0x1000, 0, 0] n st [⟨0, 0, granted⟩]
def opRed : TileOp := tileOp .mma 3 0x200000 [0, 0x1000, 0, 0] 1 0 []
def opXfer (k : TileKind) (t : TileNo) : TileOp := tileOp k t 0 [0x36800, 6] 0 0 []
def opPuts (ps : List (Nat × List Byte)) : TileOp := { opXfer .mdrain 7 with puts := ps }
def opPass : TileOp := { tileOp .mmaS 7 0x40000 [0, 0x10000, 0, 0] 1 0 [⟨0, 0, true⟩] with pass := true, hdr := some (spBytes 1 0) }

/-- Granule 0 of core (0,0) is lost (02 R60). -/
def loseZero (s : State) : State := s.modCtx 0 (fun x => { x with lost := List.range 16 })

def lostStep : State := loseZero (benchMma.modCtx 0 (fun x => { x with ops := [opStep 2 0 true], running := some 5 }))
def benchPoison : State := benchMma.modGang 0 0 (fun g => { g with poisoned := [(7, 31)] })

/-- No read of a step is lost where the core has lost nothing. -/
theorem reads_sound {s : State} {c : CoreId} {o : TileOp} {st : Nat} (m : o.mate = none) (h : (s.ctx c).lost = []) :
    s.lostReads (s.stepNeeds c o st) = false := by
  have key : ∀ za zb, ∀ g ∈ o.readsBut c st za zb, g.1 = c := by
    intro za zb g hg
    simp only [TileOp.readsBut, m, Option.toList_none, List.flatMap_cons, List.flatMap_nil, List.append_nil, List.mem_append,
      List.mem_map] at hg
    rcases hg with ⟨a, -, rfl⟩ | ⟨a, -, rfl⟩ <;> rfl
  refine List.any_eq_false.mpr (fun g hg => ?_)
  simp [State.lostAt, key _ _ g hg, h]

theorem test_hyp_MatrixMoves_sound :
    (benchOps bench [opStep 1 0 true] (some 5) .barI).lostReads ((benchOps bench [opStep 1 0 true] (some 5) .barI).stepNeeds 0 (opStep 1 0 true) 0) = false ∧
    (benchOps bench [opStep 2 0 true] (some 5) .barI).lostReads ((benchOps bench [opStep 2 0 true] (some 5) .barI).stepNeeds 0 (opStep 2 0 true) 0) = false :=
  ⟨reads_sound rfl (by decide +kernel), reads_sound rfl (by decide +kernel)⟩

theorem test_hyp_MatrixMoves_lost :
    MovesFor lostStep (opStep 2 0 true) ∧ lostStep.lostReads (lostStep.stepNeeds 0 (opStep 2 0 true) 0) = true ∧
      ((lostStep.ctx 0).tiles[(7 : TileNo).toFin]).owner = some 0 ∧ (gangIn lostStep 0 0).why? = none :=
  by decide +kernel

theorem test_hyp_MatrixWords_poisoned :
    runsB benchPoison .u [] (fun _ => true) = true ∧ (me benchPoison).poisoned = [((7 : TileNo).toNat, 31)] := by
  decide +kernel

theorem test_hyp_MatrixMoves_sums :
    MovesFor (benchOps bench [opStart] none .barI) opStart ∧ opStart.puts = [] ∧ opStart.pass = false ∧ opStart.kind ≠ .mdrainQ ∧
    (∀ x ∈ opStart.claims, x.granted = true) ∧
    (MovesFor (benchOps bench [opStep 32 31 false] (some 5) .barI) (opStep 32 31 false) ∧
      ((benchOps bench [opStep 32 31 false] (some 5) .barI).ctx 0).running = some (opStep 32 31 false).seq ∧
      (opStep 32 31 false).hdr = none ∧ fwStrm (opStep 32 31 false).fmt = false) ∧
    (∃ x ∈ (opStep 1 0 false).claims, x.granted = false ∧ (x.core, x.granule) ∈
      (benchOps bench [opStep 1 0 false] (some 5) .barI).stepNeeds 0 (opStep 1 0 false) (opStep 1 0 false).step) ∧
    (∀ x ∈ [(2, 0), (1, 0)], MovesFor (benchOps bench [opStep x.1 x.2 true] (some 5) .barI) (opStep x.1 x.2 true) ∧
      ∀ y ∈ (opStep x.1 x.2 true).claims, y.granted = true) ∧
    (MovesFor (benchOps bench [opRed] (some 5) .barI) opRed ∧ fwRed opRed.fmt = true) :=
  by decide +kernel

theorem test_hyp_MatrixMoves_transfers :
    (∀ k ∈ [TileKind.mzero, .mload, .mdrain, .mdrainQ], MovesFor (benchOps bench [opXfer k 7] (some 5) (.drain 5)) (opXfer k 7) ∧
      ((benchOps bench [opXfer k 7] (some 5) (.drain 5)).ctx 0).running = some (opXfer k 7).seq ∧
      (∀ p ∈ ((benchOps bench [opXfer k 7] (some 5) (.drain 5)).ctx 0).ops, p.puts = []) ∧
      Spec.intact (benchOps bench [opXfer k 7] (some 5) (.drain 5)) 0 ∧ (opXfer k 7).drainTy = 6 ∧
      (((benchOps bench [opXfer k 7] (some 5) (.drain 5)).ctx 0).tiles[(opXfer k 7).tile.toFin]).redun = false ∧
      (gangIn (benchOps bench [opXfer k 7] (some 5) (.drain 5)) 0 0).why? = some (.drain (opXfer k 7).seq)) ∧
    (MovesFor (benchOps benchRedun [opXfer .mdrain 3] (some 5) (.drain 5)) (opXfer .mdrain 3) ∧
      (((benchOps benchRedun [opXfer .mdrain 3] (some 5) (.drain 5)).ctx 0).tiles[(3 : TileNo).toFin]).redun = true ∧
      (opXfer .mdrain 3).tile.toNat < 4 ∧
      Spec.cell (benchOps benchRedun [opXfer .mdrain 3] (some 5) (.drain 5)) 0 3 31 15 ≠
        Spec.cell (benchOps benchRedun [opXfer .mdrain 3] (some 5) (.drain 5)) 0 (twin 3) 31 15) ∧
    (MovesFor (benchOps bench [opPuts [(0x36FF0, List.replicate 16 7)]] none .barI) (opPuts [(0x36FF0, List.replicate 16 7)]) ∧
      (opPuts [(0x36FF0, List.replicate 16 7)]).puts ≠ [] ∧
      (∀ n ∈ granulesOf 0x36FF0 16, (benchOps bench [opPuts [(0x36FF0, List.replicate 16 7)]] none .barI).claimed (0, n) = false) ∧
      Memory.wf ((benchOps bench [opPuts [(0x36FF0, List.replicate 16 7)]] none .barI).ctx 0).pad = true) ∧
    (∃ n ∈ granulesOf 0 16, (benchOps bench [{ opPuts [(0, List.replicate 16 7)] with claims := [⟨0, 0, true⟩] }] none .barI).claimed (0, n) = true) ∧
    (MovesFor (benchOps (benchSp 1 0 0) [opPass] none (.indexPass 5)) opPass ∧ Spec.intact (benchOps (benchSp 1 0 0) [opPass] none (.indexPass 5)) 0 ∧
      (gangIn (benchOps (benchSp 1 0 0) [opPass] none (.indexPass 5)) 0 0).why? = some (.indexPass opPass.seq) ∧ opPass.pass = true ∧
      opPass.sp? = some (SpHdr.parse (spBytes 1 0)) ∧ (∀ x ∈ opPass.claims, x.granted = true) ∧ fwStrm opPass.fmt = false) ∧
    (SpHdr.parse (spBytes 1 0)).areaBad opPass.baseA ((benchOps (benchSp 1 0 0) [opPass] none (.indexPass 5)).padReader 0) = none ∧
    (SpHdr.parse (spBytes 1 1)).areaBad opPass.baseA ((benchOps (benchSp 1 1 0) [opPass] none (.indexPass 5)).padReader 0) ≠ none := by
  refine ⟨by decide +kernel, by decide +kernel, by decide +kernel, by decide +kernel, by decide +kernel, ?_, ?_⟩
  · rw [pad_reader (m := spCells 1 0) (by decide +kernel)]
    decide +kernel
  · rw [pad_reader (m := spCells 1 1) (by decide +kernel)]
    decide +kernel

/-- V8 holds the block register of p planes with a scale code in lanes 16 and 17; V7 an infinity in its lane 5. -/
def benchBlock (p scale : Nat) : State := benchG (fun g =>
  (g.setVAll 8 (Lanes.of (fun i => if i = 17 then BitVec.ofNat 32 p else if i = 16 then BitVec.ofNat 32 scale else 0))).setVAll 7
    (Lanes.of (fun i => if i = 5 then 0xFF800000 else 0x3F800000)))

theorem sp_full (n : Nat) (h : n < 800) : (benchSp 1 0 800).isFull 0 n = true := by
  have e : ((benchSp 1 0 800).ctx 0).full = List.range 800 := by decide +kernel
  have c : (benchSp 1 0 800).cores.all (fun kv => kv.2.ctx.copies.isEmpty && kv.2.tarn.isNone) = true := by decide +kernel
  have p : (benchSp 1 0 800).parts.toList.all (fun p => p.spills.isEmpty) = true := by decide +kernel
  have u : (benchSp 1 0 800).covered 0 n = false := by
    refine Bool.or_eq_false_iff.mpr ⟨List.any_eq_false.mpr (fun kv hkv => ?_), List.any_eq_false.mpr (fun q hq => ?_)⟩
    · have := List.all_eq_true.mp c kv hkv
      simp only [Bool.and_eq_true, List.isEmpty_iff, Option.isNone_iff_eq_none] at this
      simp [Ctx.covers, this]
    · have := List.isEmpty_iff.mp (List.all_eq_true.mp p q hq)
      simp [this]
  have f : Granules.has (List.range 800) n = true := List.contains_iff_mem.mpr (List.mem_range.mpr h)
  rw [State.isFull, e, u, f]
  rfl

theorem sp_area : ∀ n ∈ granulesOf (0 + (SpHdr.parse (spBytes 1 0)).ia) (32 * (SpHdr.parse (spBytes 1 0)).fi), n < 800 := by decide +kernel

theorem test_hyp_HeadersAndBlocks :
    (Runs0 (benchSp 1 0 800) (me (benchSp 1 0 800)) ∧ (me (benchSp 1 0 800)).tx.active = false ∧ Spec.localCap ((me (benchSp 1 0 800)).c 0) pR ∧
      Spec.intact (benchSp 1 0 800) 0 ∧ ((benchSp 1 0 800).ctx 0).flights = [] ∧ ((benchSp 1 0 800).ctx 0).buf = [] ∧
      128 ∣ ((me (benchSp 1 0 800)).c 0).origin ∧ 16 ≤ ((me (benchSp 1 0 800)).c 0).length ∧
      ((me (benchSp 1 0 800)).c 0).origin + 16 ≤ 0x37000) ∧
    (benchSp 1 0 0).isFull 0 (0 / 16) = false ∧ (benchSp 1 0 800).isFull 0 (0 / 16) = true ∧
    ((((benchSp 1 0 800).modCtx 0 (fun x => { x with seq := 8, flights := [(6, fly (.load false) 4 (.s 9) (.pad 0 12))] })).ctx 0).busy (.pad 0 0) 16 = true ∧
      ((benchSp 1 0 800).modCtx 0 (fun x => { x with seq := 8, flights := [(6, fly (.load false) 4 (.s 9) (.pad 0 12))] })).isFull 0 (0 / 16) = true) ∧
    (SpHdr.parse (List.replicate 16 0)).bad none = some 1 ∧ (SpHdr.parse (spBytes 1 0)).bad none = none ∧
    ((benchSp 1 0 800).ctx 0).pad.read 0 16 = spBytes 1 0 ∧
    ((SpHdr.parse (spBytes 1 0)).size ≤ ((me (benchSp 1 0 800)).c 0).length ∧ 0 + (SpHdr.parse (spBytes 1 0)).size ≤ 0x37000 ∧
      ∀ n ∈ granulesOf (0 + (SpHdr.parse (spBytes 1 0)).ia) (32 * (SpHdr.parse (spBytes 1 0)).fi), (benchSp 1 0 800).isFull 0 n = true) ∧
    (SpHdr.parse (spBytes 2 0)).areaBad 0 ((benchSp 2 0 800).padReader 0) = some (10, 0) ∧
    (Runs (benchBlock 16 0) (me (benchBlock 16 0)) .u [(9 : VReg).toNat, (8 : VReg).toNat] ∧
      Runs (benchBlock 16 0) (me (benchBlock 16 0)) .u [(9 : VReg).toNat, (7 : VReg).toNat] ∧
      ¬ (modeEtype (me (benchBlock 16 0)).regs.mode = 13 ∨ modeEtype (me (benchBlock 16 0)).regs.mode = 14) ∧
      ((me (benchBlock 16 0)).v 8)[(17 : Fin 32)].toNat = 16 ∧ bits ((me (benchBlock 16 0)).v 8)[(16 : Fin 32)] 7 0 = 0 ∧
      bits ((me (benchBlock 16 255)).v 8)[(16 : Fin 32)] 7 0 = 255 ∧ ((me (benchBlock 1 0)).v 8)[(17 : Fin 32)].toNat < 2 ∧
      (∃ i, Mask.has (me (benchBlock 16 0)).active i = true ∧ bits ((me (benchBlock 16 0)).v 7)[i] 30 23 = 255) ∧
      ∀ i, Mask.has (me (benchBlock 0 0)).active i = true → bits ((me (benchBlock 0 0)).v 8)[i] 30 0 = 0) ∧
    (∀ m ∈ [13, 14], modeEtype (me (benchM (BitVec.ofNat 32 (8 * m)))).regs.mode = m) :=
  ⟨⟨runs_me (by decide +kernel), by decide +kernel⟩, by decide +kernel, by decide +kernel, by decide +kernel, by decide +kernel, by decide +kernel,
    by decide +kernel, ⟨by decide +kernel, by decide +kernel, fun n hn => sp_full n (sp_area n hn)⟩, by rw [pad_reader (m := spCells 2 0) (by decide +kernel)]; decide +kernel,
    ⟨runs_me (by decide +kernel), runs_me (by decide +kernel), by decide +kernel⟩, by decide +kernel⟩
/-! Contexts, settings and supervision (O49 to O51). -/

theorem collect_ok {α β : Type} {f : α → Got β} {g : α → β} : ∀ {l : List α}, (∀ x ∈ l, f x = .ok (g x)) → collect f l = .ok (l.map g)
  | [], _ => rfl
  | x :: xs, h => by
    have := collect_ok (f := f) (g := g) (l := xs) (fun z hz => h z (List.mem_cons_of_mem _ hz))
    simp [collect, h x (List.mem_cons_self ..), this, Except.map]

/-- The capability spans a resident vector of 131,072 elements of 64 bits in frames 3 to 9 of die 0 and beyond. -/
abbrev WideObject (s : State) (core : CoreId) (c : Cap) (r : ObjRec) : Prop :=
  r.dims2 = [1, 131072] ∧ r.strides2 = [0, 1] ∧ r.layout = 0 ∧ fmtBits r.fmt = 64 ∧ 16 ≤ r.nsub ∧ c.origin = 0 ∧ c.length = 131072 ∧
    s.elemSize core c = 8 ∧ c.tag = true ∧ c.space = 2 ∧ (s.part core).ortBase + 64 * (s.part core).ortSize ≤ 196608 ∧
    ∀ n : Fin 7, entryResident (s.part core) (s.mapEntry (s.part core) c.id n.val r) = true ∧
      entryMoving (s.mapEntry (s.part core) c.id n.val r) = false ∧ s.mapEntry (s.part core) c.id n.val r % 2 ^ 32 = 3 + n.val

theorem image_ok {s : State} {core : CoreId} {c : Cap} {k need : Nat} {store : Bool} (hn : need = if store then pW else pR) (hc : dieOf core = 0)
    (h : okB (s.objectSteps core c k need) (fun r => decide (WideObject s core c r)) = true) (hp : holds c.perm need = true) :
    s.imagePlaces core store c k = .ok ((List.range 458752).map (fun i => .phys (196608 + i))) := by
  obtain ⟨r, hr, hd, hs, hl, hf, hnsub, ho, hlen, hz, ht, hsp, hort, hpage⟩ := ok_of h
  subst hn
  have hreach : s.reach core c k 0 (if store then pW else pR) = .ok (.object r) := by
    simp [State.reach, ht, hsp, hp, amLegal, hr, Except.map]
  unfold State.imagePlaces
  rw [hreach]
  simp only [hz, hlen, ho]
  rw [if_neg (by decide)]
  refine collect_ok (g := fun i => Loc.phys (196608 + i)) (fun i hi => ?_)
  have hi : i < 458752 := List.mem_range.mp hi
  have hdec : decompose r.dims2 (i / 8) = [0, ((i / 8 : Nat) : Int)] := by
    rw [hd]
    have : i / 8 / 131072 = 0 := by omega
    have : i / 8 % 131072 = i / 8 := by omega
    simp [decompose, *]
  have hb : r.byteOf (elemOffset r.dims2 r.strides2 [0, ((i / 8 : Nat) : Int)]).toNat = i / 8 * 8 := by
    simp [hd, hs, elemOffset, ObjRec.byteOf, hl, hf]
    omega
  obtain ⟨h1, h2, h3⟩ := hpage ⟨i / 8 * 8 / 65536, by omega⟩
  simp only at h1 h2 h3
  unfold State.flatByte
  rw [hr]
  unfold State.flatRes
  simp only [Nat.zero_add, Int.toNat_natCast]
  rw [if_neg (by omega), hdec]
  obtain ⟨pa, hpa, hlow⟩ : ∃ pa, framePa (s.mapEntry (s.part core) c.id (i / 8 * 8 / 65536) r) (i / 8 * 8) = pa ∧
      pa = (3 + i / 8 * 8 / 65536) * 65536 + i / 8 * 8 % 65536 := ⟨_, rfl, by rw [framePa, h3]⟩
  have h1 : entryReaches (s.part core) (s.mapEntry (s.part core) c.id (i / 8 * 8 / 65536) r) (i / 8 * 8) = true := by
    unfold entryReaches
    rw [h1, hpa]
    simp only [Bool.true_and, Bool.not_eq_true', Bool.and_eq_false_imp, decide_eq_true_eq, decide_eq_false_iff_not]
    omega
  have hpa' : pa + i % 8 = 196608 + i := by omega
  have : pa < 2 ^ 36 := by omega
  have ht : s.elemTarget core c k r [0, ((i / 8 : Nat) : Int)] ((i / 8 : Nat) : Int) (fmtBits r.fmt / 8) false =
      .at_ (.phys pa) (i / 8 * 8 / 65536) := by
    unfold State.elemTarget
    rw [if_neg (by simp [hd, inShape]; omega), if_neg (by rw [ho, hlen]; omega), if_neg (by simp [hl, hf])]
    unfold State.objectByte
    rw [hb, if_neg (by simp [h1]; omega), if_neg (by simp [h2]), hpa]
  rw [ht]
  have hw : isWindow pa = false := by unfold isWindow apertureBase; simp; omega
  have hpe : isPeer pa = false := by unfold isPeer peerBase; simp; omega
  have hlk : s.linked core (siteAt (stackDie pa) 0 0) = true := by
    have : stackDie pa = 0 := by unfold stackDie; omega
    rw [this]
    have : dieOf (siteAt 0 0 0) = 0 := by decide
    rw [State.linked, this, hc]
    rfl
  simp [State.engineLoc, State.frameLane, hw, hpe, hlk, Except.map, Loc.add, hpa']

theorem get_after {α : Type} {n : Nat} : ∀ {a b : Tbl α}, (∀ x ∈ a, x.1 ≠ n) → Tbl.get? (a ++ b) n = Tbl.get? b n
  | [], _, _ => rfl
  | (k, v) :: a, b, h => by
    have := get_after (b := b) (fun x hx => h x (List.mem_cons_of_mem _ hx))
    simpa [Tbl.get?, h (k, v) (List.mem_cons_self ..)] using this

theorem get_run {α : Type} (f : Nat → α) (base i n : Nat) : ∀ st : Nat, st ≤ i → i < st + n →
    Tbl.get? ((List.range' st n).map (fun j => (base + j, f j))) (base + i) = some (f i) := by
  induction n with
  | zero => intro st h1 h2; omega
  | succ n ih =>
    intro st h1 h2
    by_cases e : st = i
    · subst e; simp [List.range', Tbl.get?]
    · have := ih (st + 1) (by omega) (by omega)
      simpa [List.range', Tbl.get?, e] using this

/-- S1 and S3 name cores 1 and 2, S2 slot 2 of core 1, S6 die 0, S9 an empty slot of core 1; the others are values. -/
def named (g : Gang) : Gang :=
  (((((((((g.setS 1 1).setS 2 0x2001).setS 3 2).setS 4 0xFFFF).setS 5 0x10000).setS 6 0x1000).setS 7 2).setS 8 3).setS 9 0x7001).setS 10 1

/-- The boot gang beside a gang of level U in slot 2 of core 1. -/
def benchTwo (h : Gang) : State := (benchG named).setGang 1 2 h

/-- A gang with lanes of a park in PLR7, and a convergence save. -/
def parkedGang (st : Status) : Gang :=
  { Gang.fresh with status := st, save := some ⟨0, 0, []⟩
                    parked := Gang.fresh.parked.set 7 (some { pc := 0x10000000100, flt := flt .illegal, lanes := 8, word := 0, stack := [] }) }

/-- The boot gang at level S; no register names it a supervisor. -/
def benchS : State := (benchG (fun g => { g with priv := .s })).modDie 0 (fun d => { d with dsupv := 0 })

/-- A gang of level P of a FAILED partition is frozen in slot 2 of core 1. -/
def benchFailed : State := (benchTwo { Gang.fresh with status := .frozen, priv := .p }).modPart 0 (fun p => { p with state := .failed })

theorem test_hyp_Supervision_words :
    (Runs (benchTwo (parkedGang .frozen)) (me (benchTwo (parkedGang .frozen))) .p [] ∧
      Runs (benchTwo (parkedGang .frozen)) (me (benchTwo (parkedGang .frozen))) .s [] ∧
      Spec.coreNamed (benchTwo (parkedGang .frozen)) (me (benchTwo (parkedGang .frozen))) 1 1 ∧
      Spec.gangNamed (benchTwo (parkedGang .frozen)) (me (benchTwo (parkedGang .frozen))) 2 1 2 ∧
      Spec.gangNamed (benchTwo (parkedGang .frozen)) (me (benchTwo (parkedGang .frozen))) 9 1 7 ∧
      Spec.gangNamed (benchTwo (parkedGang .frozen)) (me (benchTwo (parkedGang .frozen))) 0 0 0) ∧
    (let g := me (benchTwo (parkedGang .frozen))
     bits (g.s 4) 63 16 = 0 ∧ bits (g.s 5) 63 16 ≠ 0 ∧ bits (g.s 6) 63 12 = 1 ∧ bits (g.s 6) 9 0 = 0 ∧
       (benchTwo (parkedGang .frozen)).samePart 0 ((g.s 6).truncate 12) = true ∧ (g.s 7).toNat ≤ 2 ∧ 2 < (g.s 8).toNat) ∧
    (Spec.controls_ (benchTwo (parkedGang .frozen)) (me (benchTwo (parkedGang .frozen))) 1 ∧
      ((benchTwo (parkedGang .frozen)).gang? 1 7).isNone = true ∧ (gangIn (benchTwo (parkedGang .frozen)) 1 2).status = .frozen ∧
      (gangIn (benchTwo (parkedGang .frozen)) 1 2).partner = none ∧ (gangIn (benchTwo (parkedGang .frozen)) 1 2).hold = none ∧
      (gangIn (benchTwo { parkedGang .frozen with hold := some 0x15 }) 1 2).hold ≠ none ∧
      (benchTwo (parkedGang .frozen)).copiesOf 1 2 (fun _ => true) = [] ∧
      ((gangIn (benchTwo (parkedGang .frozen)) 1 2).parked[(7 : Fin 8)]).isSome = true ∧ (gangIn (benchTwo (parkedGang .frozen)) 1 2).save.isSome = true) ∧
    (¬ Spec.controls_ benchS (me benchS) 1 ∧
      Runs benchS (me benchS) .s []) ∧
    ((gangIn (benchTwo (parkedGang .running)) 1 2).status ≠ .frozen ∧ (gangIn (benchTwo (parkedGang .running)) 1 2).atBoundary = true ∧
      (gangIn (benchTwo (parkedGang .running)) 1 2).cnt.hung = false) ∧
    ((gangIn benchFailed 1 2).status = .frozen ∧ (gangIn benchFailed 1 2).priv = .p ∧ (benchFailed.part 1).state = .failed ∧
      Runs benchFailed (me benchFailed) .s [] ∧ Spec.gangNamed benchFailed (me benchFailed) 2 1 2 ∧ Spec.controls_ benchFailed (me benchFailed) 1) ∧
    ¬ ((gangIn (benchTwo (parkedGang .frozen)) 1 2).priv = .p ∧ ((benchTwo (parkedGang .frozen)).part 1).state = .failed) ∧
    ((gangIn (benchTwo (parkedGang (.waiting { why := .sysRead, since := 0 }))) 1 2).status ≠ .frozen ∧
      (gangIn (benchTwo (parkedGang (.waiting { why := .sysRead, since := 0 }))) 1 2).atBoundary = false) ∧
    ((3 + 4 * 7 + 32 : DWord).toNat = 3 + 4 * (7 : Fin 8).val + (if true then 32 else 0) ∧ bits (64 : DWord) 63 6 ≠ 0 ∧
      (bits (4 : DWord) 1 0 ≠ 3 ∧ bits (4 : DWord) 5 2 ≠ 0)) :=
  ⟨⟨runs_me (by decide +kernel), runs_me (by decide +kernel), by decide +kernel⟩,
    by decide +kernel, ⟨.inl (by decide +kernel), by decide +kernel⟩,
    ⟨by unfold Spec.controls_; decide +kernel, runs_me (by decide +kernel)⟩, by decide +kernel,
    ⟨by decide +kernel, by decide +kernel, by decide +kernel, runs_me (by decide +kernel), by decide +kernel, .inl (by decide +kernel)⟩,
    by decide +kernel⟩

/-- Core 1 holds a stopped copy command 1023 of the gang in slot 2, with or without a chunk under way; S10 names it. -/
def benchStopped (sent : Bool) : State :=
  ((benchTwo Gang.fresh).modGang 0 0 (fun g => g.setS 10 1023)).modCtx 1 (fun x => { x with
    copies := [(1023, { cpyOf 16 with slot := 2, stop := some (flt .notResident, 0), sent := if sent then [⟨0, 0, []⟩] else [] })] })

/-- A load of the gang in slot 2 of core 1 is outstanding. -/
def benchFlight : State := (benchTwo Gang.fresh).modCtx 1 (fun x => { x with flights := [(6, { fly (.load false) 8 (.s 9) (.phys 0x9000) with slot := 2 })] })

theorem test_hyp_Supervision_commands :
    (∀ b : Bool, runsB (benchStopped b) .s [] (fun _ => true) = true ∧ Spec.gangNamed (benchStopped b) (me (benchStopped b)) 2 1 2 ∧
      ((me (benchStopped b)).s 10).toNat = 1023 ∧
      (match (benchStopped b).copy? 1 1023 with
        | some y => decide (y.slot = 2) && y.stop.isSome && y.sent.isEmpty == !b
        | none => false) = true ∧
      ((benchStopped b).copy? 1 1023).all (fun y => decide (y.hold = none)) = true ∧ Tbl.rising ((benchStopped b).ctx 1).copies = true) ∧
    (((benchStopped true).modCtx 1 (fun x => { x with copies := x.copies.map (fun y => (y.1, { y.2 with hold := some 0x15 })) })).copy? 1 1023).any
      (fun y => decide (y.slot = 2) && decide (y.hold ≠ none)) = true ∧
    (Runs benchFailed (me benchFailed) .p [] ∧ Spec.coreNamed benchFailed (me benchFailed) 1 1 ∧ (benchFailed.part benchFailed.cur.core).state = .failed) ∧
    (bench.part bench.cur.core).state ≠ .failed ∧
    Spec.controls_ (benchStopped true) (me (benchStopped true)) 1 ∧ 1024 ≤ ((me (benchStopped true)).s 2).toNat ∧
    ((benchTwo Gang.fresh).copy? 1 1023).isNone = true ∧
    (Runs (benchTwo Gang.fresh) (me (benchTwo Gang.fresh)) .p [] ∧ ((benchTwo Gang.fresh).ctx 1).flights = [] ∧
      ((benchTwo Gang.fresh).ctx 1).copies = [] ∧ ((benchTwo Gang.fresh).ctx 1).packets = [] ∧ ((benchTwo Gang.fresh).core 1).inFlight = [] ∧ ∀ k : SlotId, ((benchTwo Gang.fresh).gang? 1 k).all (fun h => decide (h.why? = none)) = true) ∧
    (∃ f ∈ (benchFlight.ctx 1).flights, (benchFlight.gang? 1 f.2.slot).all (fun h => decide (h.priv ≠ .p)) = true) ∧
    (∀ c : CoreId, (bench.ctx c).flights = [] ∧ (bench.ctx c).copies = [] ∧ (bench.ctx c).packets = [] ∧ (bench.core c).inFlight = [] ∧
      ∀ k h, bench.gang? c k = some h → h.why? ≠ some .sysRead ∧ ∀ n, h.why? ≠ some (.sc n)) := by
  refine ⟨by decide +kernel, by decide +kernel, ⟨runs_me (by decide +kernel), by decide +kernel⟩, by decide +kernel, .inl (by decide +kernel),
    by decide +kernel, by decide +kernel,
    ⟨runs_me (by decide +kernel), by decide +kernel⟩, by decide +kernel, fun c => ?_⟩
  have hw : ∀ k h, bench.gang? c k = some h → h.why? = none :=
    fun k h hg => every_gang (q := fun h => h.why? = none) (by decide +kernel) (by decide +kernel) c k h hg
  refine ⟨?_, ?_, ?_, ?_, fun k h hg => by rw [hw k h hg]; exact ⟨nofun, nofun⟩⟩
  all_goals
    by_cases e : Tbl.get? bench.cores c.toNat = none
    · first | unfold State.ctx State.core | unfold State.core
      rw [e]
      rfl
    · have := get_key e
      rw [show bench.cores.map Prod.fst = [0] by decide +kernel] at this
      obtain rfl : c = 0 := BitVec.eq_of_toNat_eq (by simpa using this)
      decide +kernel

/-- Core 1 stopped or not, with a gang of level U in slot 2 or empty, and with a context in its Tarn store or none. -/
def benchCtx (stopped full tarn : Bool) : State :=
  (if full then benchTwo Gang.fresh else benchG named).modCore 1 (fun k =>
    { k with stopped := stopped, tarn := if tarn then some { Ctx.fresh with origin := some 1 } else none })

/-- An error has spoiled the context in the Tarn store of core 1. -/
def benchSpoiled : State := (benchCtx true false true).modCore 1 (fun k => { k with tarn := k.tarn.map (fun x => { x with spoiled := true }) })

/-- Cores 1 and 2 are stopped; core 2 is empty. -/
def benchPair : State := (benchCtx true true false).modCore 2 (fun k => { k with stopped := true })

/-- Record 2 and the map entries of object 2 are cached. -/
def cachedObj (s : State) : State := s.modPart 0 (fun p => { p with
  recs := [(2, bench.rawRecord p 2)]
  maps := (List.range 7).map (fun n => (mapKey 2 n, BitVec.ofNat 64 (4294967299 + n))) })

/-- What Fount wrote below frame 3. -/
def lowDram : Memory := bench.dram.filter (fun x => decide (x.1 < 196608))

/-- Spill 5, of a context first placed at core 7, and its image in object 2. -/
def benchFill : State := { cachedObj ((benchCtx true false false).modPart 0 (fun p =>
    { p with spills := [(5, { Ctx.fresh with origin := some 7 })] })) with
  dram := lowDram ++ (List.range' 0 458752).map (fun i => (196608 + i, (ctxImage 5 7).getD i 0)) }

theorem image_length (n : Nat) (c : CoreId) : (ctxImage n c).length = 458752 := by
  simp [ctxImage, toBytes, imageBytes]

/-- Bytes listed from an address on read as they are. -/
theorem image_read {s : State} {old : Memory} {image : List Byte} {base n : Nat}
    (hd : s.dram = old ++ (List.range' 0 n).map (fun i => (base + i, image.getD i 0))) (ho : ∀ x ∈ old, x.1 < base)
    (hn : image.length = n) (hb : base + n < peerBase) :
    ((List.range n).map (fun i => Loc.phys (base + i))).map (fun l => (s.homeRead l 1).getD 0 0) = image := by
  refine List.ext_getElem (by simp [hn]) (fun i h1 h2 => ?_)
  simp only [List.getElem_map, List.getElem_range]
  have hp : isPeer (base + i) = false := by
    have : ¬ peerBase ≤ base + i := by omega
    unfold isPeer
    rw [decide_eq_false this, Bool.false_and, Bool.false_and]
  have hg : Tbl.get? s.dram (base + i) = some (image.getD i 0) := by
    rw [hd, get_after (fun x hx => by have := ho x hx; omega), get_run _ base i n 0 (by omega) (by omega)]
  simp [State.homeRead, hp, Memory.read, Memory.get, hg, List.getElem?_eq_getElem h2]

theorem fill_image : ((List.range 458752).map (fun i => Loc.phys (196608 + i))).map (fun l => (benchFill.homeRead l 1).getD 0 0) =
    ctxImage 5 7 :=
  image_read (old := lowDram) rfl (fun x hx => of_decide_eq_true (List.mem_filter.mp hx).2) (image_length 5 7) (by decide)

theorem test_hyp_ContextsMove :
    (∀ x ∈ [(true, true, false), (true, true, true), (true, false, true), (true, false, false), (false, true, false)],
      runsB (benchCtx x.1 x.2.1 x.2.2) .p [] (fun _ => true) = true ∧
        Spec.coreNamed (benchCtx x.1 x.2.1 x.2.2) (me (benchCtx x.1 x.2.1 x.2.2)) 1 1 ∧ (benchCtx x.1 x.2.1 x.2.2).halted 1 = x.1 ∧
        (benchCtx x.1 x.2.1 x.2.2).hasP 1 = false ∧ ((benchCtx x.1 x.2.1 x.2.2).ctx 1).empty = !x.2.1 ∧
        ((benchCtx x.1 x.2.1 x.2.2).core 1).tarn.isSome = x.2.2 ∧
        ((benchCtx x.1 x.2.1 x.2.2).core 1).tarn.all (fun y => !y.spoiled) = true) ∧
    (Runs benchSpoiled (me benchSpoiled) .p [] ∧ Spec.coreNamed benchSpoiled (me benchSpoiled) 1 1 ∧
      (benchSpoiled.core 1).tarn.any Ctx.spoiled = true) ∧
    (∃ ls, (cachedObj (benchCtx true false true)).imagePlaces (cachedObj (benchCtx true false true)).cur.core true
      ((me (cachedObj (benchCtx true false true))).c 2) (2 : CReg).toNat = .ok ls) ∧
    (Runs benchFill (me benchFill) .p [] ∧ Spec.coreNamed benchFill (me benchFill) 1 1 ∧ (benchFill.core 1).tarn = none ∧
      ∃ ls, benchFill.imagePlaces benchFill.cur.core false ((me benchFill).c 2) (2 : CReg).toNat = .ok ls ∧
        ((benchFill.part benchFill.cur.core).spillOf (ls.map (fun l => (benchFill.homeRead l 1).getD 0 0))).isSome = true) ∧
    (∃ ls, (cachedObj (benchCtx true false false)).imagePlaces (cachedObj (benchCtx true false false)).cur.core false
        ((me (cachedObj (benchCtx true false false))).c 2) (2 : CReg).toNat = .ok ls) ∧
    (∀ image, ((cachedObj (benchCtx true false false)).part (cachedObj (benchCtx true false false)).cur.core).spillOf image = none) ∧
    (Runs benchPair (me benchPair) .p [] ∧ Spec.coreNamed benchPair (me benchPair) 1 1 ∧ Spec.coreNamed benchPair (me benchPair) 3 2 ∧
      benchPair.halted 1 = true ∧ benchPair.hasP 1 = false ∧ (benchPair.core 1).fwd = none ∧ benchPair.halted 2 = true ∧
      (benchPair.ctx 2).empty = true ∧ (benchPair.core 2).fwd = none) := by
  refine ⟨by decide +kernel, ⟨runs_me (by decide +kernel), by decide +kernel⟩, ⟨_, image_ok (need := pW) rfl (by decide +kernel) (by decide +kernel) (by decide +kernel)⟩,
    ⟨runs_me (by decide +kernel), by decide +kernel, by decide +kernel, _,
      image_ok (need := pR) rfl (by decide +kernel) (by decide +kernel) (by decide +kernel), ?_⟩,
    ⟨_, image_ok (need := pR) rfl (by decide +kernel) (by decide +kernel) (by decide +kernel)⟩, fun image => ?_,
    ⟨runs_me (by decide +kernel), by decide +kernel⟩⟩
  · rw [fill_image]
    have e : (benchFill.part benchFill.cur.core).spills = [(5, { Ctx.fresh with origin := some 7 })] := rfl
    have h : Ctx.fresh.spoiled = false := rfl
    simp [Part.spillOf, e, h]
  · have e : ((cachedObj (benchCtx true false false)).part (cachedObj (benchCtx true false false)).cur.core).spills = [] := by decide +kernel
    simp [Part.spillOf, e]

/-- Settings: S11 and S12 an ID and none, S13 and S14 a routine slot and none, S15 the last place of a record, S16 an ID of the table, S17
and S18 a base and the largest size of a table, S19 a table entry, S20 a descriptor from die 0 to die 1, S21 and S22 a period and none. -/
def setting (g : Gang) : Gang :=
  (((((((((((g.setS 11 0xFFFFFF).setS 12 0x1000000).setS 13 63).setS 14 64).setS 15 0x36FC0).setS 16 2).setS 17 0x10000).setS 18 0x1000000).setS 19
    15).setS 20 (BitVec.ofNat 64 (63 * 2 ^ 18 + 2 ^ 5))).setS 21 32).setS 22 33

/-- The partition holds dies 0 and 1; the bytes of a record stand at 0x36FC0. -/
def benchSet (bytes : List Byte) : State := ((benchG setting).modPart 0 (fun p => { p with dies := 3 })).modCtx 0 (fun x =>
  { x with pad := x.pad.write 0x36FC0 bytes })

/-- Sixteen words `sadd s1, s2, s3`, and sixteen that no routine holds. -/
def addWords : List Byte := (List.replicate 16 (toBytes 4 (encode (.sop .add 1 2 3)).toNat)).flatten
def nopWords : List Byte := (List.replicate 16 (toBytes 4 0x0E030000)).flatten

/-- An access of the gang to frame 3 is under way, which the map names for object 2^24 - 1. -/
def benchMoving : State :=
  ((benchSet []).modPart 0 (fun p => { p with maps := [(mapKey 0xFFFFFF 0, 4294967299)] })).modCtx 0 (fun x => { x with
    flights := [(6, fly (.load false) 8 (.s 9) (.phys 196608))] })

/-- A circuit in entry 15. -/
def benchCircuit (cls : DWord) : State :=
  { benchSet [] with circuits := (benchSet []).circuits.set 15 { valid := true, part := 0, desc := BitVec.ofNat 64 (cls.toNat * 2 ^ 10 + 2 ^ 5) } }

/-- Every core of die 0 but core (0,0) is dark, and that one is stopped. -/
def benchHalt : State :=
  { (benchG setting).modCore 0 (fun k => { k with stopped := true }) with dark := (List.range' 1 1023).map (BitVec.ofNat 12) }

theorem halt_all : benchHalt.allStopped (benchHalt.parts[0]) = true := by
  have hd : (benchHalt.parts[0]).dieList = [0] := by decide +kernel
  unfold State.allStopped State.sitesOf
  rw [hd, List.all_eq_true]
  intro c hc
  simp only [List.flatMap_cons, List.flatMap_nil, List.append_nil, List.mem_filter, List.mem_map, List.mem_range] at hc
  obtain ⟨⟨k, hk, rfl⟩, hn⟩ := hc
  have hk0 : k = 0 := by
    by_contra e
    have : BitVec.ofNat 12 (0 * 1024 + k) ∈ benchHalt.dark := List.mem_map.mpr ⟨k, List.mem_range'_1.mpr (by omega), by rw [Nat.zero_mul, Nat.zero_add]⟩
    have : benchHalt.noCore (BitVec.ofNat 12 (0 * 1024 + k)) = true := by
      unfold State.noCore State.isDark
      rw [List.contains_iff_mem.mpr this, Bool.true_or]
    erw [this] at hn
    cases hn
  subst hk0
  decide +kernel

theorem test_hyp_PartitionSettings_objects :
    (Runs (benchSet []) (me (benchSet [])) .s [] ∧ ((me (benchSet [])).s 11).toNat < 2 ^ 24 ∧ 2 ^ 24 ≤ ((me (benchSet [])).s 12).toNat ∧
      (benchSet []).underWay ((benchSet []).partNo (benchSet []).cur.core)
        (((benchSet []).parts[(benchSet []).partNo (benchSet []).cur.core]).frames (fun id => id == ((me (benchSet [])).s 11).toNat)) = false) ∧
    (benchMoving.underWay (benchMoving.partNo benchMoving.cur.core)
        ((benchMoving.parts[benchMoving.partNo benchMoving.cur.core]).frames (fun id => id == ((me benchMoving).s 11).toNat)) = true) ∧
    (Runs (benchSet addWords) (me (benchSet addWords)) .p [] ∧ ((me (benchSet addWords)).s 15).toNat % 64 = 0 ∧
      ((me (benchSet addWords)).s 15).toNat + 64 ≤ 0x37000 ∧ Spec.intact (benchSet addWords) 0 ∧
      ((benchSet addWords).ctx 0).busy (.pad 0 ((me (benchSet addWords)).s 15).toNat) 64 = false ∧ ((me (benchSet addWords)).s 13).toNat < 64 ∧
      (∀ x ∈ (recParse (((benchSet addWords).ctx 0).pad.read 0x36FC0 64)).zipIdx, routineWord x.2 x.1 = true) ∧
      64 ≤ ((me (benchSet addWords)).s 14).toNat ∧ Tbl.rising ((benchSet addWords).parts[0]).routines = true) ∧
    (∃ x ∈ (recParse (((benchSet nopWords).ctx 0).pad.read 0x36FC0 64)).zipIdx, routineWord x.2 x.1 = false) ∧
    (((me (benchSet [])).s 16).toNat < 2 ^ 24 ∧
      recordRefusal ((benchSet []).parts[0]).ortSize 2 (ObjRec.parse (((benchSet []).ctx 0).pad.read 0x36FC0 64)) = some 1 ∧
      recordRefusal (bench.parts[0]).ortSize 2
        (ObjRec.parse (((benchSet (bench.rawRecord bench.parts[0] 2)).ctx 0).pad.read 0x36FC0 64)) = none ∧
      (benchSet (bench.rawRecord bench.parts[0] 2)).dram.wf = true ∧
      Spec.here (.phys (((benchSet []).parts[0]).ortBase + 64 * 2))) ∧
    (let p := (benchSet []).parts[0]
     let v := ((me (benchSet [])).s 17).toNat
     let w := ((me (benchSet [])).s 18).toNat
     v % 64 = 0 ∧ v < 2 ^ 48 ∧ 1 ≤ w ∧ w ≤ 2 ^ 24 ∧ p.ownsPa v = true ∧ p.ownsPa (v + 64 * w - 1) = true ∧ (v + 64 * w - 1) / 2 ^ 36 = v / 2 ^ 36 ∧
       (benchSet []).underWay 0 (p.frames (fun _ => true)) = false) ∧
    (((me (benchSet [])).s 13).toNat % 64 ≠ 0 ∧ ((me (benchSet [])).s 0).toNat = 0) :=
  ⟨⟨runs_me (by decide +kernel), by decide +kernel⟩, by decide +kernel, ⟨runs_me (by decide +kernel), by decide +kernel⟩, by decide +kernel⟩

theorem test_hyp_PartitionSettings_values :
    (Runs (benchSet []) (me (benchSet [])) .p [] ∧
      (benchSet []).circuitOk ((benchSet []).partNo (benchSet []).cur.core) ((me (benchSet [])).s 19).toNat ((me (benchSet [])).s 20) = true ∧
      (benchSet []).circuitOk ((benchSet []).partNo (benchSet []).cur.core) ((me (benchSet [])).s 19).toNat ((me (benchSet [])).s 0) = false) ∧
    (((benchSet []).parts[0]).hasEntry ((me (benchSet [])).s 19).toNat = true ∧
      ((benchSet []).circuits.toList[((me (benchSet [])).s 19).toNat]?).all (fun c => (benchSet []).circuitHeld 0 c == false) = true ∧
      ((benchCircuit 0).circuits.toList[((me (benchCircuit 0)).s 19).toNat]?).any (fun c => c.valid && (benchCircuit 0).circuitHeld 0 c == false) = true) ∧
    (((benchSet []).parts[0]).hasEntry ((me (benchSet [])).s 14).toNat = false ∧
      ((benchCircuit 3).circuits.toList[((me (benchCircuit 3)).s 19).toNat]?).any (fun c => (benchCircuit 3).circuitHeld 0 c == true) = true) ∧
    (settingOk (5 : BitVec 3).toNat ((me (benchSet [])).s 21).toNat = true ∧ (5 : BitVec 3) ≠ 0 ∧
      settingOk (5 : BitVec 3).toNat ((me (benchSet [])).s 22).toNat = false) ∧
    (settingOk 0 1 = true ∧ benchHalt.allStopped (benchHalt.parts[0]) = true ∧
      runsB benchHalt .p [] (fun _ => true) = true ∧
      bench.allStopped (bench.parts[0]) = false) :=
  ⟨⟨runs_me (by decide +kernel), by decide +kernel⟩, by decide +kernel, by decide +kernel, by decide +kernel, by decide +kernel, halt_all,
    by decide +kernel⟩
/-! Fault packets and services, ownership, partitions (O52 to O55). -/

/-- A packet of slot n of core (0,0), bound for a target on its last hop, stands raised under key 5; SUPV and DSUPV name the boot gang. -/
def pktOf (t : Target) (slot : Nat) : Packet := { target := t, rec_ := { flt := flt .trap, slot := slot, hop := 2 } }
def benchPkt (t : Target) (slot : Nat) (st : Status) : State :=
  ((benchG (fun g => { g with status := st, cnt := { g.cnt with packets := 31 } })).modCore 0 (fun k => { k with supv := 0x8000 })).modCtx 0
    (fun x => { x with packets := [(5, pktOf t slot)] })

/-- No register names a supervisor. -/
def benchNoSup (t : Target) : State :=
  ((benchPkt t 3 .running).modCore 0 (fun k => { k with supv := 0 })).modDie 0 (fun d => { d with dsupv := 0 })

/-- Fount's queue holds n packets. -/
def benchQueue (n : Nat) : State :=
  { benchPkt .fount 3 .running with fount := { bench.fount with queue := List.replicate n (pktOf .fount 3) } }

/-- A packet of core 1 reached the boot gang before one of core (0,0), which has not reached it, or has. -/
def benchAhead (at_ : Option Nat) : State :=
  { ((benchPkt .supv 3 .running).modCtx 0 (fun x => { x with packets := [(5, { pktOf .supv 3 with reached := at_ })] })).setCore 1
      { Core.fresh with supv := 0x8000, ctx := { Ctx.fresh with packets := [(2, { pktOf .supv 2 with reached := some 0 })] } } with
    clock := 2 }

theorem test_hyp_FaultPacketsTravel_line : ∀ a ∈ [none, some 1],
    (benchAhead a).packet? (5 * 4096) = some (0, 5, { pktOf .supv 3 with reached := a }) ∧ (pktOf .supv 3).kept = false ∧
      (benchAhead a).coresOf ((benchAhead a).part 0) = [0, 1] ∧ ((benchAhead a).ctx 1).packets = [(2, { pktOf .supv 2 with reached := some 0 })] ∧
      0 < (a.getD (benchAhead a).clock) ∧
      (match (benchAhead a).boundFor 1 { pktOf .supv 2 with reached := some 0 } with
        | some (c, k, g) => decide (c = 0 ∧ k = 0 ∧ g.status = .running)
        | none => false) = true := by decide +kernel

/-- Where no packet of a module that lists core (0,0) alone has reached its gang, none stands before another. -/
theorem none_before {s : State} {p : Packet} {x : CoreId} {k : SlotId}
    (h : (s.coresOf (s.part 0)).all (fun d => (s.ctx d).packets.all (fun q => q.2.reached.isNone)) = true) : ¬ Spec.before s 0 p x k := by
  rintro ⟨d, hd, q, hq, m, hm, -⟩
  have := List.all_eq_true.mp (List.all_eq_true.mp h d hd) q hq
  rw [hm] at this
  cases this

theorem test_hyp_FaultPacketsTravel_first : ¬ Spec.before (benchPkt .supv 3 .running) 0 (pktOf .supv 3) 0 0 := none_before (by decide +kernel)

theorem test_hyp_FaultPacketsTravel :
    (∀ x ∈ [(Target.supv, 3), (.dsupv, 3), (.supv, 0), (.dsupv, 0)], ∀ st ∈ [Status.running, .frozen],
      (benchPkt x.1 x.2 st).packet? (5 * 4096) = some (0, 5, pktOf x.1 x.2) ∧ (pktOf x.1 x.2).rec_.hop < 3 ∧ (pktOf x.1 x.2).target = x.1 ∧
        (match (benchPkt x.1 x.2 st).supGang 0 ((benchPkt x.1 x.2 st).core 0).supv with
          | some (c, k, g) => decide (c = 0 ∧ k = 0 ∧ g.status = st)
          | none => false) = true ∧
        (match (benchPkt x.1 x.2 st).supGang 0 ((benchPkt x.1 x.2 st).dies[dieOf 0]).dsupv with
          | some (c, k, g) => decide (c = 0 ∧ k = 0 ∧ g.status = st)
          | none => false) = true) ∧
    (∀ t ∈ [Target.supv, .dsupv], (benchNoSup t).packet? (5 * 4096) = some (0, 5, pktOf t 3) ∧
      ((benchNoSup t).supGang 0 ((benchNoSup t).core 0).supv).isNone = true ∧ ((benchNoSup t).supGang 0 ((benchNoSup t).dies[dieOf 0]).dsupv).isNone = true) ∧
    ((∀ i ∈ granulesOf (0x38000 + 64 * 31) 64, ((benchPkt .supv 3 .running).ctx 0).full.has i = false) ∧
      Memory.wf ((benchPkt .supv 3 .running).ctx 0).pad = true) ∧
    (∃ i ∈ granulesOf (0x38000 + 64 * 31) 64,
      (((benchPkt .supv 3 .running).modCtx 0 (fun x => { x with full := [0x387C] })).ctx 0).full.has i = true) ∧
    (∀ n ∈ [255, 256], (benchQueue n).packet? (5 * 4096) = some (0, 5, pktOf .fount 3) ∧ (benchQueue n).fount.queue.length = n) :=
  by decide +kernel

/-- The boot gang has counted a whole window without progress, or n instructions since it parked lane 0. -/
def benchHung (st : Status) : State := benchG (fun g => { g with status := st, cnt := { g.cnt with dog := 2 ^ g.cnt.dogLog } })
def benchParked (n : Nat) : State := benchG (fun g => { g with regs := { g.regs with pkm := 1 }, cnt := { g.cnt with sincePark := n } })

/-- Fount holds one packet of the boot gang, frozen at TRAP, with an action for its code. -/
def benchServe (act : Byte) : State :=
  { (benchG (fun g => { g with status := .frozen })).modPart 0 (fun p => { p with escpol := List.replicate 64 act }) with
    fount := { bench.fount with queue := [pktOf .fount 0] } }

/-- A word of Fount's processor, for partition 0. -/
def benchWord (w : Word) : State := { bench with fount := { bench.fount with words := [(0, w)] } }

/-- `lil s2, 7` runs on Fount's processor; VOP, the first opcode past SCMP, and the one past block 0xE0 to 0xEF do not (07 R214). -/
theorem test_fount_word : (benchWord 0x39080007).fountStep.fount.cpu.s 2 = 7 ∧
    [(0x20000000 : Word), 0x3C000000, 0x72000000, 0x76000000, 0x10000000, 0xF0000000, 0xDF000000].any fountExecutes = false ∧
    [(0x0F000000 : Word), 0x30000000, 0x73000000, 0x75000000, 0xE0000000, 0xEF000000].all fountExecutes = true := by
  decide +kernel

theorem test_hyp_FaultServices_word : (benchWord 0x20000000).fount.words = [(0, 0x20000000)] ∧
    ((benchWord 0x20000000).parts[0]).state ≠ .absent ∧ decode 0x39080007 = some (.lil 2 7) ∧
    (Spec.sResult (benchWord 0x39080007).fount.cpu (.lil 2 7)).isSome = true ∧ (benchWord 0x39080007).fount.cpu.status = .running ∧
    (benchWord 0x39080007).fount.cpu.chan.role = .none := by
  decide +kernel

theorem test_hyp_FaultServices :
    (∀ st ∈ [Status.running, .waiting { why := .sysRead, since := 0 }], ((benchHung st).gang? 0 0).isSome = true ∧
      (gangIn (benchHung st) 0 0).cnt.hung = false ∧ (benchHung st).quiescent 0 0 (gangIn (benchHung st) 0 0) = false ∧
      (gangIn (benchHung st) 0 0).window ≤ (gangIn (benchHung st) 0 0).cnt.dog ∧ (gangIn (benchHung st) 0 0).tx.active = false) ∧
    ((gangIn (benchHung .running) 0 0).atBoundary = true ∧
      (gangIn (benchHung (.waiting { why := .sysRead, since := 0 })) 0 0).atBoundary = false) ∧
    (gangIn bench 0 0).cnt.dog < (gangIn bench 0 0).window ∧
    ((gangIn (benchParked 4096) 0 0).status = .running ∧ (gangIn (benchParked 4096) 0 0).regs.pkm ≠ 0 ∧
      4096 ≤ (gangIn (benchParked 4096) 0 0).cnt.sincePark ∧ (gangIn (benchParked 4096) 0 0).replay = false ∧
      (gangIn (benchParked 4095) 0 0).cnt.sincePark < 4096) ∧
    (∀ act ∈ [(0 : Byte), 1, 2, 3, 4, 255], (benchServe act).fount.queue = [pktOf .fount 0] ∧ (pktOf .fount 0).rec_.copy = false ∧
      (0 : SlotId).val = (pktOf .fount 0).rec_.slot ∧ ((benchServe act).gang? ((benchServe act).route (pktOf .fount 0).rec_.core) 0).isSome = true ∧
      (gangIn (benchServe act) ((benchServe act).route (pktOf .fount 0).rec_.core) 0).status = .frozen ∧
      ((((benchServe act).parts[(benchServe act).partNo (pktOf .fount 0).rec_.core]).escpol.getD (pktOf .fount 0).rec_.flt.code.num 0).toNat) = act.toNat ∧
      (gangIn (benchServe act) 0 0).partner = none ∧ (gangIn (benchServe act) 0 0).hold = none ∧
      (gangIn ((benchServe act).modGang 0 0 (fun g => { g with hold := some 0x15 })) 0 0).hold ≠ none ∧ (benchServe act).copiesOf 0 0 (fun _ => true) = [] ∧
      (benchServe act).failedP 0 (gangIn (benchServe act) 0 0) = false ∧
      ((benchServe act).modPart 0 (fun p => { p with state := .failed })).failedP 0 (gangIn (benchServe act) 0 0) = true) :=
  by decide +kernel

/-- Fount changed. -/
def benchF (f : Fount → Fount) : State := { bench with fount := f bench.fount }

/-- Master 0 owns the module; its lease number is 2^64 - 1; 99,999 µs have passed since it was granted. -/
def benchOwned : State := benchF (fun f => { f with owner := 0, lease := 0xFFFFFFFFFFFFFFFF, time := 99999 })

/-- A claim of master 0x10 waits; so many bytes of credential; the module has an owner or none. -/
def benchClaim (owner : Byte) (n : Nat) : State :=
  benchF (fun f => { f with owner := owner, chall := List.replicate 32 0, claims := [⟨0x10, 0 :: 0x10 :: List.replicate n 0, false, 1⟩] })

theorem test_hyp_OwnershipMoves :
    (bench.serves 0 true = true ∧ bench.serves 0x11 true = false ∧ Spec.idle bench 0) ∧
    ((benchClaim 0 0).serves 0 true = true ∧ ((benchClaim 0 0).box 0).state ≠ 1 ∧ (benchClaim 0 0).fount.claims ≠ []) ∧
    (((benchF (fun f => { f with boxes := Tbl.put f.boxes 0 { state := 1 } })).box 0).state = 1) ∧
    Spec.idle benchOwned 0 ∧
    ((benchClaim 0 2454).fount.claims ≠ [] ∧ (benchClaim 0 2454).owned = true) ∧
    ((benchClaim 0xFF 0).owned = false ∧ ∀ c ∈ (benchClaim 0xFF 0).fount.claims, (benchClaim 0xFF 0).fount.credential c.master c.data = false) ∧
    (benchOwned.serves 0 false = true ∧ benchOwned.isOwner 0 = true ∧
      (toBytes 8 (2 ^ 64 - 1)).length = 8 ∧ ofBytes (toBytes 8 (2 ^ 64 - 1)) = benchOwned.fount.lease.toNat ∧
      ofBytes (toBytes 8 0) ≠ benchOwned.fount.lease.toNat ∧ (0x10 : Byte) ≠ 0 ∧ benchOwned.present 0x10 = true ∧
      benchOwned.present 0x11 = false) ∧
    (benchOwned.owned = true ∧ benchOwned.fount.warned = false ∧ benchOwned.fount.granted + 80000 ≤ benchOwned.fount.time ∧
      benchOwned.fount.time < benchOwned.fount.granted + 100000) ∧
    ((benchF (fun f => { f with owner := 0, time := 100000 })).owned = true ∧
      (benchF (fun f => { f with owner := 0, time := 100000 })).fount.granted + 100000 ≤ (benchF (fun f => { f with owner := 0, time := 100000 })).fount.time) ∧
    ¬ (bench.owned = true) :=
  by decide +kernel

/-- A claim of full length that passes every check but that of its signature, whose verdict is free (log 6). -/
theorem test_hyp_OwnershipMoves_signed : (benchClaim 0xFF 2454).owned = false ∧
    ∀ c ∈ (benchClaim 0xFF 2454).fount.claims, c.master = 0x10 ∧ c.data.length = 2456 ∧
      ((benchClaim 0xFF 2454).fount.credential c.master c.data =
        Config.verifies 0 (sha3 (c.data.take 36 ++ toBytes 8 (benchClaim 0xFF 2454).fount.serial.toNat)) (c.data.drop 36)) := by
  refine ⟨by decide +kernel, fun c hc => ?_⟩
  have e : (benchClaim 0xFF 2454).fount.claims = [⟨0x10, 0 :: 0x10 :: List.replicate 2454 0, false, 1⟩] := rfl
  rw [e] at hc
  obtain rfl := List.mem_singleton.mp hc
  refine ⟨rfl, by decide +kernel, ?_⟩
  unfold Fount.credential
  have h : (List.length (0 :: 0x10 :: List.replicate 2454 (0 : Byte)) == 2456 && decide (field (0 :: 0x10 :: List.replicate 2454 0) 0 1 ≤ 7) &&
      (0 :: 0x10 :: List.replicate 2454 (0 : Byte)).getD 1 0 == 0x10 && field (0 :: 0x10 :: List.replicate 2454 0) 2 2 == 0 &&
      ((0 :: 0x10 :: List.replicate 2454 (0 : Byte)).drop 4).take 32 == (benchClaim 0xFF 2454).fount.chall) = true := by decide +kernel
  have h0 : field (0 :: 0x10 :: List.replicate 2454 (0 : Byte)) 0 1 = 0 := by decide +kernel
  simp only
  rw [h0] at h ⊢
  rw [h, Bool.true_and]

/-- Descriptors of PART_CREATE: partition p on some dies, with the greatest object table. -/
def descOf (p dies : Byte) : List Byte := [p, dies, 0, 0, 0, 0, 0, 1] ++ List.replicate 8 0

def benchScrub (again : Bool) : State :=
  benchOwned.modPart 0 (fun p => { p with state := .scrubbing, rebuild := again })

theorem test_hyp_PartitionsComeAndGo :
    (benchOwned.serves 0 false = true ∧ benchOwned.isOwner 0 = true ∧ descFormed (descOf 3 14) = true ∧ benchOwned.descFree (descOf 3 14) = true ∧
      descFormed (descOf 3 5) = false ∧ descFormed (descOf 1 1) = true ∧ benchOwned.descFree (descOf 1 1) = false ∧
      (benchOwned.parts[0]).state ≠ .absent ∧ Spec.idle benchOwned 0) ∧
    (benchScrub true).isParked 0 = false ∧
    (∀ b : Bool, ((benchScrub b).parts[0]).state = .scrubbing ∧ ((benchScrub b).parts[0]).rebuild = b) ∧ (bench.parts[0]).state ≠ .scrubbing :=
  by decide +kernel
/-! Commands, the debug window, the host, boot and power (O56 to O60). -/

/-- Master 0 owns the module; the rollback counter is n and the spare slot's image is empty. -/
def benchRoll (n : Nat) : State := { benchOwned with fount := { benchOwned.fount with rollback := n } }

theorem test_hyp_OwnerCommands_module :
    Spec.ownerOnly 0 [] (.setDeleg 0 [], false) ∧ Spec.ownerOnly 0 [] (.updateWrite 0 [], true) ∧
    (bench.serves 0x11 false = false ∧ bench.serves 0 false = true ∧ bench.isOwner 0 = false ∧ bench.serves 0 true = true) ∧
    ((List.replicate 32 (0 : Byte)).length = 32 ∧ (List.replicate 8 (0 : Byte)).length = 8) ∧
    (benchOwned.serves 0 true = true ∧ benchOwned.serves 0 false = true ∧ benchOwned.isOwner 0 = true) ∧
    (([15] : List Byte).length = 1 ∧ (([15] : List Byte).getD 0 0).toNat < 16 ∧ 16 ≤ (([16] : List Byte).getD 0 0).toNat) ∧
    ((([63] : List Byte).getD 0 0).toNat < 64 ∧ benchOwned.fount.portUp = [] ∧
      (benchF (fun f => { f with portUp := [(0, 1)] })).fount.portUp ≠ [] ∧ 64 ≤ (([64] : List Byte).getD 0 0).toNat) ∧
    ((7 :: List.replicate 32 (0 : Byte)).length = 33 ∧ ((7 :: List.replicate 32 (0 : Byte)).getD 0 0).toNat = (7 : Fin 8).val ∧
      (([2] : List Byte).getD 0 0).toNat < 3) ∧
    (benchOwned.namedPart (0 :: List.replicate 64 (0 : Byte)) = some 0 ∧ (0 :: List.replicate 64 (0 : Byte)).length = 65 ∧
      (∀ b ∈ (0 :: List.replicate 64 (0 : Byte)).drop 1, (benchOwned.parts[0]).routeOk b = true) ∧
      (∃ b ∈ (0 :: List.replicate 64 (0x70 : Byte)).drop 1, (benchOwned.parts[0]).routeOk b = false)) ∧
    (benchOwned.namedPart (0 :: List.replicate 271 (0 : Byte)) = some 0 ∧ (0 :: List.replicate 271 (0 : Byte)).length = 272 ∧
      (∀ b ∈ ((0 :: List.replicate 271 (0 : Byte)).drop 1).take 15, b = 0) ∧
      ∀ w, w < 16 → (benchOwned.parts[0]).windowOk (exportWindow ((0 :: List.replicate 271 (0 : Byte)).drop 16) w) = true) ∧
    benchOwned.namedPart [3] = none :=
  ⟨by simp [Spec.ownerOnly], by simp [Spec.ownerOnly], by decide +kernel⟩

theorem roll_serves (n : Nat) : (benchRoll n).serves 0 true = true := by
  unfold State.serves State.isMaster benchRoll
  dsimp only
  decide +kernel

theorem roll_owner (n : Nat) : (benchRoll n).isOwner 0 = true := by
  have h : benchOwned.isOwner 0 = true := by decide +kernel
  unfold State.isOwner State.owned at h ⊢
  exact h

/-- An image's version is free (log 6): rollback counters at it and above it. -/
theorem test_hyp_OwnerCommands_update (img : Memory) :
    4 ≤ (List.replicate 4 (0 : Byte)).length ∧ (benchRoll (Config.imageVersion img)).fount.rollback ≤ Config.imageVersion img ∧
    Config.imageVersion img < (benchRoll (Config.imageVersion img + 1)).fount.rollback ∧
    (benchRoll (Config.imageVersion img)).serves 0 true = true ∧ (benchRoll (Config.imageVersion img)).isOwner 0 = true ∧
    (Config.imageOk img = true ∨ Config.imageOk img = false) :=
  ⟨by decide +kernel, Nat.le_refl _, Nat.lt_succ_self _, roll_serves _, roll_owner _, by cases Config.imageOk img <;> simp⟩

/-- Die 1 stands in a state, in no partition. -/
def benchDie (st : DieState) : State := benchOwned.modDie 1 (fun d => { d with state := st })

/-- Fount holds the boot gang, frozen. -/
def benchHeld : State :=
  benchOwned.modGang 0 0 (fun g => { g with status := .frozen, hold := some 0x15 })

theorem test_hyp_OwnerCommands_policy :
    (benchOwned.serves 0 false = true ∧ benchOwned.isOwner 0 = true) ∧
    (∀ w ∈ [300, 1400], field (toBytes 2 w) 0 2 = w ∧ benchOwned.shares ≤ 1400) ∧ field (toBytes 2 299) 0 2 < 300 ∧ 1400 < field (toBytes 2 1401) 0 2 ∧
    (benchOwned.namedPart (0 :: toBytes 2 75) = some 0 ∧ (0 :: toBytes 2 75).length = 3 ∧
      75 * (benchOwned.parts[0]).dieCount ≤ field (0 :: toBytes 2 75) 1 2 ∧
      benchOwned.shares - (benchOwned.parts[0]).share + field (0 :: toBytes 2 75) 1 2 ≤ benchOwned.fount.ceiling ∧
      field (0 :: toBytes 2 74) 1 2 < 75 * (benchOwned.parts[0]).dieCount) ∧
    (benchOwned.namedPart [0, 5] = some 0 ∧ (([0, 5] : List Byte).getD 1 0).toNat ≤ 5 ∧ 5 < (([0, 6] : List Byte).getD 1 0).toNat) ∧
    (benchOwned.namedPart [0, 32] = some 0 ∧ 16 ≤ (([0, 32] : List Byte).getD 1 0).toNat ∧ (([0, 32] : List Byte).getD 1 0).toNat ≤ 32 ∧
      32 < (([0, 33] : List Byte).getD 1 0).toNat) ∧
    (benchOwned.namedPart (0 :: List.replicate 64 4) = some 0 ∧ (0 :: List.replicate 64 (4 : Byte)).length = 65 ∧
      ∀ b ∈ (0 :: List.replicate 64 (4 : Byte)).drop 1, b.toNat ≤ 4) ∧
    (([1] : List Byte) = [BitVec.ofNat 8 (1 : Fin 4).val] ∧ (benchDie .running).line 1 = [] ∧ (benchDie .running).mayPark 1 = true ∧
      benchOwned.line 0 = [] ∧ benchOwned.mayPark 0 = false ∧ (benchDie .parked).line 1 = [] ∧ ((benchDie .parked).dies[1]).state = .parked ∧
      ((benchDie .running).dies[1]).state ≠ .parked ∧ 3 < (([4] : List Byte).getD 0 0).toNat) ∧
    (toBytes 8 0 ++ [1] = toBytes 8 ((0 : CoreId).toNat + 4096 * (0 : SlotId).val) ++ [1] ∧ (benchHeld.gang? (benchHeld.route 0) 0).isSome = true ∧
      (gangIn benchHeld 0 0).status = .frozen ∧ benchHeld.heldBy (benchHeld.route 0) 0 none = true ∧ benchHeld.serves 0 false = true ∧
      benchHeld.isOwner 0 = true ∧ benchHeld.failedP 0 (gangIn benchHeld 0 0) = false ∧
      benchOwned.heldBy (benchOwned.route 0) 0 none = false) ∧
    ((benchF (fun f => { f with logSeq := 976 })).fount.signedTo < 976 ∧ (0 / 976 + 1) * 976 ≤ 976) ∧
    ((benchF (fun f => { f with logSeq := 1, time := 10000000 })).fount.signedAt + 10000000 ≤ 10000000) ∧
    (bench.fount.signedTo = (benchF (fun f => { f with logSeq := 0 })).fount.logSeq) :=
  by decide +kernel

/-- Function 0 may write; a gang stands in slot 2 of core 1, and one of level U in slot 3 of core (0,0). -/
def benchWin (owner : Byte) (st : Status) : State :=
  { (benchTwo { Gang.fresh with status := st }).setGang 0 3 Gang.fresh with fount := { bench.fount with owner := owner } }

theorem test_hyp_DebugWindowWrites :
    (∀ st ∈ [Status.running, .frozen], ((benchWin 0 st).parts[0]).has (dieOf 1) = true ∧ (benchWin 0 st).noCore 1 = false ∧
      (gangIn (benchWin 0 st) 1 2).status = st ∧ ((benchWin 0 st).gang? 1 2).isSome = true ∧ (benchWin 0 st).fount.boot = .running ∧
      (benchWin 0 st).funcMayWrite 0 = true ∧ ((benchWin 0 st).ctx 1).flights = []) ∧
    ¬ ((gangIn (benchWin 0 .running) 1 2).status = .frozen ∨ (((benchWin 0 .running).core 1).stopped = true ∧ (gangIn (benchWin 0 .running) 1 2).priv ≠ .p)) ∧
    bits (15 : DWord) 63 4 = 0 ∧ (benchWin 1 .running).funcMayWrite 0 = false ∧
    (((benchWin 0 .running).gang? 0 3).isSome = true ∧ (benchWin 0 .running).mayAct 0 3 (gangIn (benchWin 0 .running) 0 3) 1 = false) :=
  by decide +kernel

/-- The window of function 0 holds a record; an inbox holds n records. -/
def benchHost (w : List Byte) (n : Nat) : State :=
  { (benchIn n 0) with
    fount := { bench.fount with owner := 0 }
    funcs := bench.funcs.set 0 { bench.funcs[0] with window := w } }

theorem test_hyp_HostWrites :
    (∀ n ∈ [63, 64], ((benchHost [] n).parts[0]).state = .running ∧ ((benchHost [] n).parts[0]).has (dieOf 0) = true ∧
      (benchHost [] n).isDark 0 = false ∧ (benchHost [] n).isParked (dieOf 0) = false ∧
      ((benchHost [] n).ctx ((benchHost [] n).route 0)).inbox.length = n ∧ ((benchHost [] n).core 0).refused ≠ 0xFFFF ∧
      ((benchHost [] n).core 0).malformed ≠ 0xFFFF) ∧
    ((benchHost [] 0).isMaster 0 = true ∧ (benchHost [] 0).fount.boot ≠ .unpowered ∧ ((benchHost [] 0).box 0).state ≠ 1 ∧
      (0 : Byte) = BitVec.ofNat 8 (0 : Fin 4).val) ∧
    (bits (0x58 : DWord) 63 29 = 0 ∧ (commandOf (bits (0x58 : DWord) 15 0)).isSome = true ∧ bits (0x1FFFFFFF : DWord) 63 29 = 0 ∧
      (commandOf (bits (0x1FFFFFFF : DWord) 15 0)).isNone = true) ∧
    (((benchHost [] 0).setBox 0 { state := 1 }).box 0).state = 1 ∧
    (bits (0x10000058 : DWord) 28 16 ≤ 4096 ∧ 4096 < bits (0x10010058 : DWord) 28 16 ∧ ((benchHost [] 0).parts[0]).has (dieOf 0x400) = false) ∧
    ((benchHost [] 0).funcMayWrite 0 = true ∧ (0x1000002 : DWord).getLsbD 24 = true ∧ bits (0x1000002 : DWord) 63 25 = 0 ∧
      bits (0x1000002 : DWord) 23 0 = 2 ∧ recordRefusal ((benchHost [] 0).parts[0]).ortSize 2 (ObjRec.parse (padTo 64 ((benchHost [] 0).funcs[0]).window)) = some 1 ∧
      recordRefusal ((benchHost (bench.rawRecord bench.parts[0] 2) 0).parts[0]).ortSize 2
        (ObjRec.parse (padTo 64 ((benchHost (bench.rawRecord bench.parts[0] 2) 0).funcs[0]).window)) = none ∧
      (benchHost (bench.rawRecord bench.parts[0] 2) 0).dram.wf = true) :=
  by decide +kernel

/-- A power-on that finds 24 dark sites on die 3, with slots that verify or not and the configuration record. -/
def bootOf (slots : List Bool) (rec_ : Bool) : BootInfo :=
  { dark := (List.range' 3073 24).map (BitVec.ofNat 12), slotOk := slots, active := 1, versions := [5, 5], rollback := 5, recordOk := rec_
    pstate := 5, modid := 3, serial := 1, parts := [], program := [], digests := [], logSeq := 0
    cycle := true, trial := false, fails := 0 }

/-- A power-on whose slot, activated and not committed, has failed to boot three times. -/
def trialBoot : BootInfo := { bootOf [true, true] true with trial := true, fails := 3 }

/-- A power-on that builds two partitions, and runs a program of three words in each. -/
def bootParts : BootInfo := { bootOf [true, true] true with parts := [[0, 1, 0, 0, 3] ++ List.replicate 11 0, [3, 14, 0, 0, 3] ++ List.replicate 11 0]
                                                            program := [0, 0, 0x01000000] }

/-- Building them leaves alone frame 4 of die 0, and writes frame 2: the program's three words. -/
theorem test_hyp_BootAndPeers_parts : bootParts.parts.all descFormed = true ∧ (∀ d ∈ bootParts.parts, ¬ Spec.built d bootParts.program.length 0x400000) ∧
    Spec.built [0, 1, 0, 0, 3, 0, 0, 0, 0, 0, 0, 0, 0, 0, 0, 0] bootParts.program.length 0x2000B ∧
    ¬ Spec.built [0, 1, 0, 0, 3, 0, 0, 0, 0, 0, 0, 0, 0, 0, 0, 0] bootParts.program.length 0x2000C := by
  unfold Spec.built
  decide +kernel

/-- Port 15, of partition 0, is up to module 9, for which window 0 exports frame 3. -/
def benchPort : State := ({ bench with fount := { bench.fount with portUp := [(15, 9)] } }).modPart 0 (fun p =>
  { p with ports := 0xFFFF, exports := [9, 0x82, 0, 0, 3, 0, 0, 0, 3, 0, 0, 0] ++ List.replicate 244 0 })

theorem test_hyp_BootAndPeers :
    (State.reset.bootOk (bootOf [false, true] true) = true ∧ State.reset.fount.boot = .unpowered ∧
      (bootOf [false, true] true).slotOk.getD ((bootOf [false, true] true).active % 2) false = true ∧
      (bootOf [false, true] true).rollback ≤ (bootOf [false, true] true).versions.getD ((bootOf [false, true] true).active % 2) 0) ∧
    (State.reset.bootOk trialBoot = true ∧ trialBoot.trial = true ∧ 3 ≤ trialBoot.fails ∧ trialBoot.slotOk.getD (1 - trialBoot.active % 2) false = true) ∧
    State.reset.bootOk { bootOf [true, true] true with pstate := 6 } = false ∧
    (State.reset.bootOk (bootOf [true, false] true) = true ∧ (bootOf [true, false] true).slotOk.getD ((bootOf [true, false] true).active % 2) false = false ∧
      (bootOf [true, false] true).slotOk.getD 0 false = true ∧ (bootOf [true, false] true).rollback ≤ (bootOf [true, false] true).versions.getD 0 0) ∧
    State.reset.bootOk bootParts = true ∧
    (State.bootOk { bench with dark := [7] } { bootOf [true, true] true with cycle := false } = true ∧ bench.fount.boot ≠ .unpowered) ∧
    (State.reset.bootOk (bootOf [false, false] true) = true ∧ (bootOf [false, false] true).slotOk.getD 0 false = false ∧
      (bootOf [false, false] true).slotOk.getD 1 false = false ∧ State.reset.bootOk (bootOf [true, true] false) = true ∧ (bootOf [true, true] false).recordOk = false) ∧
    State.reset.bootOk { bootOf [true, true] true with dark := [0] } = false ∧
    (Tbl.get? benchPort.fount.portUp (14 : BitVec 4).toNat = none ∧ benchPort.fount.boot = .running ∧ (63 : ModuleId) ≠ benchPort.fount.modid ∧
      (∀ x ∈ benchPort.fount.portUp, x.2 ≠ (63 : ModuleId).toNat) ∧ benchPort.portPart 14 = some 0) ∧
    (Tbl.get? benchPort.fount.portUp (15 : BitVec 4).toNat ≠ none ∧ Tbl.rising benchPort.fount.portUp = true) ∧
    (benchPort.addrPart 0x3FFFE = some 0 ∧ (∃ x ∈ benchPort.fount.portUp, x.2 = (9 : ModuleId).toNat) ∧
      (benchPort.parts[0]).admits 9 .write (0x3FFFE / 65536) = true ∧ (0x3FFFE + ([1, 2] : List Byte).length - 1) / 65536 = 0x3FFFE / 65536 ∧
      (0x3FFFE : Nat) < 0x7F00000000 ∧ benchPort.dram.wf = true) ∧
    (benchPort.addrPart 0x40000 = some 0 ∧ (benchPort.parts[0]).admits 9 .write (0x40000 / 65536) = false) :=
  by decide +kernel

/-- Partition 0 changed, at a time of Fount. -/
def benchPw (time : Nat) (f : Part → Part) : State := { bench.modPart 0 f with fount := { bench.fount with time := time } }

/-- Die 1, in no partition, has a transition in line. -/
def benchLine (t : Transition) : State := bench.modDie 1 (fun d => { d with trans := [t] })

theorem test_hyp_PowerAndHeat_power :
    ((benchLine (.park 1 0)).line 1 = [.park 1 0] ∧ (benchLine (.unpark 1 0)).line 1 = [.unpark 1 0] ∧
      (∀ m' rest, bench.line 1 ≠ .park 1 m' :: rest) ∧ (∀ m' rest, bench.line 1 ≠ .unpark 1 m' :: rest)) ∧
    (((benchPw 50 (fun p => { p with trans := [.step 5] })).parts[0]).trans = [.step 5] ∧
      ((benchPw 50 (fun p => { p with trans := [.step 5] })).parts[0]).state ≠ .absent ∧
      ((benchPw 50 (fun p => { p with trans := [.step 5] })).parts[0]).dies ≠ 0 ∧
      ∀ k : Fin 4, k ≠ 0 → ((benchPw 50 (fun p => { p with trans := [.step 5] })).parts[k]).dies &&&
        ((benchPw 50 (fun p => { p with trans := [.step 5] })).parts[0]).dies = 0) ∧
    (let p := (benchPw 50 (fun p => { p with pcur := 4, lowAt := some 30, stepAt := some 0 })).parts[0]
     p.state ≠ .absent ∧ p.dies ≠ 0 ∧ p.trans = [] ∧ p.pcur < 5 ∧ p.lowAt ≠ none ∧ (∀ t, p.lowAt = some t → t + 20 ≤ 50) ∧
       (∀ t, p.stepAt = some t → t + 50 ≤ 50)) ∧
    (let p := (benchPw 50 (fun p => { p with pcur := 4, pmax := 5 })).parts[0]
     p.pcur < 5 ∧ p.pcur < p.pmax) ∧
    (let p := (benchPw 50 (fun p => { p with pcur := 5, pmax := 5, lowAt := none })).parts[0]
     p.pmax ≤ p.pcur ∧ p.lowAt = none) ∧
    (let s := benchPw 10000 (fun p => { p with pcur := 1, pmax := 0, calmAt := some 0, upAt := some 0, stepAt := some 9999 })
     (s.parts[0]).pmax < (s.parts[0]).pcur ∧ (s.parts[0]).calmAt ≠ none ∧ (∀ t, (s.parts[0]).calmAt = some t → t + 10000 ≤ 10000) ∧
       (∀ t, (s.parts[0]).upAt = some t → t + 10000 ≤ 10000) ∧
       ∀ d : Fin 4, (s.parts[0]).dies.getLsbD d.val = true → ((s.dies[d]).tmax).toNat < 95 * 16) ∧
    ((bench.parts[0]).calmAt = none ∧ (bench.parts[0]).share * 1000 < [0x7FFFFFFF].getD 0 0 ∧ 0 < (bench.parts[0]).duty ∧
      [0].getD 0 0 ≤ (bench.parts[0]).share * 1000 ∧ [0].foldl (· + ·) 0 ≤ bench.fount.ceiling * 1000 ∧ (bench.parts[0]).duty ≤ 63) ∧
    (999 ≤ (benchF (fun f => { f with samples := List.replicate 999 5 })).fount.samples.length ∧ bench.fount.samples.length < 999) := by
  refine ⟨⟨by decide +kernel, by decide +kernel, ?_, ?_⟩, by decide +kernel, ?_, by decide +kernel, by decide +kernel, ?_,
    by decide +kernel⟩
  · intro m' rest
    rw [show bench.line 1 = [] by decide +kernel]
    nofun
  · intro m' rest
    rw [show bench.line 1 = [] by decide +kernel]
    nofun
  · refine ⟨by decide +kernel, by decide +kernel, by decide +kernel, by decide +kernel, by decide +kernel, ?_, ?_⟩
    · intro t h
      have e : (benchPw 50 (fun p => { p with pcur := 4, lowAt := some 30, stepAt := some 0 })).parts[0].lowAt = some 30 := by decide +kernel
      rw [e] at h
      cases h
      decide
    · intro t h
      have e : (benchPw 50 (fun p => { p with pcur := 4, lowAt := some 30, stepAt := some 0 })).parts[0].stepAt = some 0 := by decide +kernel
      rw [e] at h
      cases h
      decide
  · refine ⟨by decide +kernel, by decide +kernel, ?_, ?_, by decide +kernel⟩
    · intro t h
      have e : (benchPw 10000 (fun p => { p with pcur := 1, pmax := 0, calmAt := some 0, upAt := some 0, stepAt := some 9999 })).parts[0].calmAt = some 0 := by decide +kernel
      rw [e] at h
      cases h
      decide
    · intro t h
      have e : (benchPw 10000 (fun p => { p with pcur := 1, pmax := 0, calmAt := some 0, upAt := some 0, stepAt := some 9999 })).parts[0].upAt = some 0 := by decide +kernel
      rw [e] at h
      cases h
      decide

/-- Fount's samples of module and partition power, in mW, a whole window or more after SET_CEILING; partition 0 has a share of 200 W. -/
def benchRails (n x : Nat) : State := { bench.modPart 0 (fun p => { p with share := 200 }) with
  fount := { bench.fount with bound := { kept := true }, samples := List.replicate n x, partPwr := bench.fount.partPwr.set 0 (List.replicate n x) } }

theorem test_hyp_PowerAndHeat_limits :
    (Spec.meets ((benchRails 1000 5).fount.partPwr[0]) (Spec.heldTo (benchRails 1000 5) 0) ∧
      Spec.meets (benchRails 1000 5).fount.samples (1000 * (benchRails 1000 5).fount.ceiling) ∧
      [0].getD 0 0 ≤ Spec.heldTo (benchRails 1000 5) 0 ∧ Spec.heldTo (benchRails 1000 5) 0 < [0x7FFFFFFF].getD 0 0) ∧
    ¬ Spec.meets ((benchRails 999 5).fount.partPwr[0]) (Spec.heldTo (benchRails 999 5) 0) ∧
    ((benchRails 999 5).mayMeasure ((benchRails 999 5).fount.sampled 5 [5]) = true ∧ 999 ≤ (benchRails 999 5).fount.samples.length) ∧
    ((benchRails 998 5).mayMeasure ((benchRails 998 5).fount.sampled 5 [5]) = true ∧ (benchRails 998 5).fount.samples.length < 999) ∧
    (benchRails 999 2000000).mayMeasure ((benchRails 999 2000000).fount.sampled 2000000 [5]) = false := by decide +kernel

theorem test_hyp_PowerAndHeat_steps :
    (∀ p ∈ [((benchPw 0 (fun p => { p with pcur := 4 })).parts[0]), (benchPw 0 (fun p => { p with trans := [.step 4] })).parts[0]],
      Spec.goal p = 4) ∧
    5 ≤ Spec.goal ((benchPw 0 (fun p => { p with pcur := 4, trans := [.step 5] })).parts[0]) ∧
    (benchOwned.partOf 1 = none) := by decide +kernel

theorem test_hyp_PowerAndHeat_heat :
    (∀ x ∈ [1599, 1600, 1759, 1760, 4095], x < 4096) ∧ (bench.dies[0]).state ≠ .off ∧ bench.partOf 0 = some 0 ∧
    (∀ k : Fin 4, k ≠ 0 → (bench.parts[k]).dies &&& (bench.parts[0]).dies = 0) ∧ (bench.parts[0]).pcur < 5 ∧ (bench.parts[0]).trans = [] ∧
    bench.fount.boot = .running :=
  by decide +kernel
/-! Small steps with results taken from the worked examples of the spec. -/

/-- The executing gang after a word. -/
def after (s : State) (w : Word) : Gang := (((decode w).bind (fun i => nextState? (exec i s))).map me).getD Gang.fresh

/-- Registers of the boot gang set, under an ETYPE code and other bits of MODE. -/
def withV (mode : Word) (vs : List (VReg × Lanes Word)) : State :=
  benchG (fun g => vs.foldl (fun g x => g.setVAll x.1 x.2) { g with regs := { g.regs with mode := mode } })

def laneVals (l : List Word) : Lanes Word := Lanes.of (fun i => l.getD i.val 0)

/-- The hash of "abc" that FIPS 202's examples give. -/
theorem test_sha3 : sha3 [0x61, 0x62, 0x63] =
    [58, 152, 93, 167, 79, 226, 37, 178, 4, 92, 23, 45, 107, 211, 144, 189, 133, 95, 8, 110, 62, 157, 82, 91, 70, 191, 226, 69, 17, 67, 21, 50] := by
  decide +kernel

/-- A step fetches the word at PC, runs it, and moves PC past it (08 R253). -/
theorem test_step : (match step bench with | .next t => t.me?.any (fun g => g.regs.pc == 0x10000000004) | _ => false) = true := by decide +kernel

/-- add v3, v1, v2 under i16x2 and n16x2 with SAT (08 R273, packed addition). -/
theorem test_add_packed :
    ((after (withV 0x1010 [(1, Lanes.all 0x7FFF0001), (2, Lanes.all 0x0001FFFF)]) 0x200C1080).v 3)[(31 : Fin 32)] = 0x7FFF0000 ∧
    ((after (withV 0x1018 [(1, Lanes.all 0x7FFF0001), (2, Lanes.all 0x0001FFFF)]) 0x200C1080).v 3)[(0 : Fin 32)] = 0x8000FFFF ∧
    ((after (withV 0x0010 [(1, Lanes.all 0x7FFF0001), (2, Lanes.all 0x0001FFFF)]) 0x200C1080).v 3)[(5 : Fin 32)] = 0x80000000 := by decide +kernel

/-- The order of a sum: 2^24 + 1 + 1, and 1 + 1 + 2^24 (08, order of summation). -/
theorem test_vred_order :
    (let g := after (withV 0x30 [(1, laneVals [0x4B800000, 0x3F800000, 0x3F800000])]) (encode (.vred .fadd 5 1))
     g.s 5 = 0x4B800000 ∧ g.regs.fstat = flagNX) ∧
    (let g := after (withV 0x30 [(1, laneVals [0x3F800000, 0x3F800000, 0x4B800000])]) (encode (.vred .fadd 5 1))
     g.s 5 = 0x4B800001 ∧ g.regs.fstat = 0) := by decide +kernel

/-- One rounding against two (08): fmul v5, v1, v1 under RNE and RUP, and fma v2, v1, v1. -/
theorem test_fmul_fma :
    (let s := withV 0x30 [(1, Lanes.all 0x3F800800), (2, Lanes.all 0xBF801000)]
     ((after s 0x50141042).v 5)[(0 : Fin 32)] = 0x3F801000 ∧ (after s 0x50141042).regs.fstat = flagNX ∧
       ((after s 0x53081040).v 2)[(0 : Fin 32)] = 0x33800000 ∧ (after s 0x53081040).regs.fstat = 0) ∧
    ((after (withV 0x330 [(1, Lanes.all 0x3F800800)]) 0x50141042).v 5)[(0 : Fin 32)] = 0x3F801001 := by decide +kernel

/-- Narrowing with saturation (08): fcvt.e4m3.f32 v7, v4. -/
theorem test_fcvt_e4m3 :
    (let g := after (withV 0x30 [(4, laneVals [0x43E60000, 0x43EB0000, 0xBEC00000])]) 0x59960704
     (g.v 7)[(0 : Fin 32)] = 0x7E ∧ (g.v 7)[(1 : Fin 32)] = 0x7E ∧ (g.v 7)[(2 : Fin 32)] = 0xAC ∧ g.regs.fstat = flagOF ||| flagNX) := by
  decide +kernel

/-- Stochastic rounding of 2.5 (03 R93): the lane's LFSR goes from 1 to 3, and the result is 2 with NX. -/
theorem test_fcvt_sr :
    (let s := withV (6 * 8 + 5 * 256) [(4, Lanes.all 0x40200000)]
     let g := after (s.modGang 0 0 (fun g => { g with regs := { g.regs with lfsr := Lanes.all 1 } })) (encode (.fcvt .i32 .f32 7 4))
     (g.v 7)[(9 : Fin 32)] = 2 ∧ (g.regs.lfsr)[(9 : Fin 32)] = 3 ∧ g.regs.fstat = flagNX) := by decide +kernel

/-- qbni v9, v4, 4 of 5.5, -3.25 and 0.7, and dqbni v10, v9, 2 of its block (03 R104, 10 R352). -/
theorem test_qbni_block :
    (let g := after (withV 0x30 [(4, laneVals [0x40B00000, 0xC0500000, 0x3F333333])]) 0xCB244004
     (List.finRange 32).map (fun i => (g.v 9)[i]) = [2, 3, 1, 6, 0, 0, 0, 0, 0, 0, 0, 0, 0, 0, 0, 0, 0x7F, 4] ++ List.replicate 14 0 ∧
       g.regs.fstat = flagNX) ∧
    (let g := after (withV 0x30 [(9, laneVals [2, 3, 1, 6, 0, 0, 0, 0, 0, 0, 0, 0, 0, 0, 0, 0, 0x7F, 4])]) 0xCC289002
     (g.v 10)[(0 : Fin 32)] = 0x40800000 ∧ (g.v 10)[(1 : Fin 32)] = 0xC0800000 ∧ (g.v 10)[(2 : Fin 32)] = 0) := by decide +kernel

/-- Lane 7 of gang 5 of crew 9 with widths 5, 3, 6 (01 R33). -/
theorem test_wid :
    ((after (benchG (fun g => { g with ident := { g.ident with widths := [3, 6, 0, 0, 0], fields := [5, 9, 0, 0, 0] } }))
      (encode (.wid 4))).v 4)[(7 : Fin 32)] = 0x9A7 := by decide +kernel

/-- cinc c5, c2, s7 of a LOCAL capability (09 R310). -/
theorem test_cinc :
    (let s (x : DWord) : State := benchG (fun g => (g.setC 2 (Cap.mk' 0 (pR + pW) 0 0x1000 0x800 true)).setS 7 x)
     ((after (s 0x200) 0x901421C0).c 5).origin = 0x1200 ∧ ((after (s 0x200) 0x901421C0).c 5).length = 0x600 ∧
       ((after (s 0x200) 0x901421C0).c 5).tag = true ∧ (after (s 0x900) 0x901421C0).fcode = .capBounds ∧
       (after (s (-16)) 0x901421C0).fcode = .capBounds) := by decide +kernel

/-- if p1 with lanes 0 to 3, P1 true in lanes 0, 2 and 3: lane 1 waits for the ELSE (08, a mask stack at work). -/
theorem test_if_mask :
    (let g := after (benchR (fun r => { r with exm := 15, p := r.p.set 1 0xD })) 0x07100007
     g.active = 0xD ∧ g.stack.length = 1 ∧ g.regs.pc = 0x10000000004) := by decide +kernel

/-- A granule lost past its parity (02 R60): LD of V2 parks lane 0, which reads it, and SLD freezes its gang; a store over it makes it
readable again (log 15). -/
theorem test_lost_granule :
    (let g := after (benchLost false) (encode (.ld 2 ⟨0, 1, 0⟩ .w .plain))
     g.status = .running ∧ g.regs.pkm = 1 ∧ g.active = 0xFFFFFFFE ∧ (g.parked[(0 : Fin 8)]).any (fun r => r.flt.code == .dataError)) ∧
    (after (benchLost true) (encode (.sld 2 ⟨0, 1, 0⟩ .w .plain))).fcode = .dataError ∧
    ((State.reset.strike (.padLost 0 5)).homeWrite 0 (.pad 0 80) (List.replicate 16 1)).lostAt (.pad 0 80) 16 = false ∧
    ((State.reset.strike (.padLost 0 5)).homeWrite 0 (.pad 0 80) (List.replicate 15 1)).lostAt (.pad 0 80) 16 = true := by
  refine ⟨?_, ?_, ?_, ?_⟩ <;> decide +kernel
end Sys2Proof.Tests
end

section
/-! Integer multiply-adds, and writes of predicates, masks, MODE and FSTAT (08 R260, R264 to R266, R277, R284 to R286). -/

open Sys2Proof Sys2Proof.Machine

namespace Sys2Proof

/-! Words of form A. -/

/-- A word of form A holds its fields (07 R206). -/
theorem toNat_encode_wordA {i : Instr} {op d a b x : Nat} (h : encodeNat i = wordA op d a b x) (hop : op < 256) (hd : d < 64)
    (ha : a < 64) (hb : b < 64) (hx : x < 64) : (encode i).toNat = Spec.formA op d a b x := by
  rw [encode, h, BitVec.toNat_ofNat, Nat.mod_eq_of_lt (Laws.wordA_lt hop hd ha hb hx)]
  rfl

/-! Lanes that are packed from elements (03 R83). -/

namespace Machine

theorem IntTy.wrap_lt (t : IntTy) (x : Int) : t.wrap x < 2 ^ t.width := by
  have h : ((2 ^ t.width : Nat) : Int) > 0 := by positivity
  have := Int.emod_nonneg x h.ne'
  have := Int.emod_lt_of_pos x h
  unfold IntTy.wrap
  omega

theorem IntTy.sat_lt (t : IntTy) (sat : Bool) (x : Int) : t.sat sat x < 2 ^ t.width := by
  unfold IntTy.sat IntTy.clamp
  split <;> exact t.wrap_lt _

/-- The first n elements of w bits, packed. -/
def packed (w : Nat) (f : Nat → Nat) (n : Nat) : Nat :=
  (List.range n).foldl (fun acc j => acc + f j % 2 ^ w * 2 ^ (w * j)) 0

theorem packed_succ (w : Nat) (f : Nat → Nat) (n : Nat) :
    packed w f (n + 1) = packed w f n + f n % 2 ^ w * 2 ^ (w * n) := by
  simp [packed, List.range_succ]

theorem packed_lt (w : Nat) (f : Nat → Nat) (n : Nat) : packed w f n < 2 ^ (w * n) := by
  induction n with
  | zero => simp [packed]
  | succ n ih =>
    have h : f n % 2 ^ w + 1 ≤ 2 ^ w := Nat.mod_lt _ (by positivity)
    have h' := Nat.mul_le_mul_right (2 ^ (w * n)) h
    rw [packed_succ, Nat.mul_succ, pow_add, Nat.mul_comm (2 ^ (w * n))]
    rw [Nat.add_mul] at h'
    omega

theorem elemOf_packed (w : Nat) (f : Nat → Nat) {n j : Nat} (h : j < n) : elemOf w j (packed w f n) = f j % 2 ^ w := by
  induction n with
  | zero => omega
  | succ n ih =>
    rw [packed_succ, elemOf]
    rcases Nat.lt_succ_iff_lt_or_eq.mp h with h | rfl
    · have e : w * n = w * j + w * (n - j - 1) + w := by
        rw [← Nat.mul_add, ← Nat.mul_succ]; congr 1; omega
      have e' : f n % 2 ^ w * 2 ^ (w * n) = 2 ^ (w * j) * (2 ^ w * (f n % 2 ^ w * 2 ^ (w * (n - j - 1)))) := by
        rw [e, pow_add, pow_add]; ring
      rw [e', Nat.add_mul_div_left _ _ (by positivity), Nat.add_mul_mod_self_left]
      exact ih h
    · rw [Nat.add_mul_div_right _ _ (by positivity), Nat.div_eq_of_lt (packed_lt w f j), Nat.zero_add, Nat.mod_mod]

/-- Element j of a lane that is computed element by element. -/
theorem elemOf_perElem (w : Nat) (f : Nat → Nat) {j : Nat} (h : j < 32 / w) : elemOf w j (perElem w f).toNat = f j % 2 ^ w := by
  have hb : packed w f (32 / w) < 2 ^ 32 :=
    (packed_lt w f _).trans_le (Nat.pow_le_pow_right (by decide) (Nat.mul_div_le 32 w))
  rw [← elemOf_packed w f h]
  show elemOf w j (BitVec.ofNat 32 (packed w f (32 / w))).toNat = _
  rw [BitVec.toNat_ofNat, Nat.mod_eq_of_lt hb]

/-! MAD, DOT2 and DOT4 (08 R277). -/

theorem dotLane_of_width_16 {t : IntTy} (h : t.width = 16) (sat : Bool) (d a b : Word) :
    dotLane t sat d a b = BitVec.ofNat 32 ((⟨32, t.signed⟩ : IntTy).sat sat ((⟨32, t.signed⟩ : IntTy).read d.toNat +
      t.read (elemOf t.width 0 a.toNat) * t.read (elemOf t.width 0 b.toNat) +
      t.read (elemOf t.width 1 a.toNat) * t.read (elemOf t.width 1 b.toNat))) := by
  simp [dotLane, h, List.range_succ]

theorem dotLane_of_width_8 {t : IntTy} (h : t.width = 8) (sat : Bool) (d a b : Word) :
    dotLane t sat d a b = BitVec.ofNat 32 ((⟨32, t.signed⟩ : IntTy).sat sat ((⟨32, t.signed⟩ : IntTy).read d.toNat +
      t.read (elemOf t.width 0 a.toNat) * t.read (elemOf t.width 0 b.toNat) +
      t.read (elemOf t.width 1 a.toNat) * t.read (elemOf t.width 1 b.toNat) +
      t.read (elemOf t.width 2 a.toNat) * t.read (elemOf t.width 2 b.toNat) +
      t.read (elemOf t.width 3 a.toNat) * t.read (elemOf t.width 3 b.toNat))) := by
  simp [dotLane, h, List.range_succ]

end Machine

/-- Settles O12: an element of a packed lane is its saturated sum, and the fold of a dot product over the lane's elements is the
sum written out. -/
theorem multiplyAddsSaturateOnce : Obligations.MultiplyAddsSaturateOnce := by
  refine ⟨fun d a b => ⟨?_, ?_, ?_⟩, fun s g d a b t run ty =>
    ⟨⟨_, runGang_done run (by rw [ty]; rfl), fun n => ?_⟩, fun w => ?_, fun w => ?_⟩⟩
  · exact toNat_encode_wordA rfl (by decide) d.isLt a.isLt b.isLt (by decide)
  · exact toNat_encode_wordA rfl (by decide) d.isLt a.isLt b.isLt (by decide)
  · exact toNat_encode_wordA rfl (by decide) d.isLt a.isLt b.isLt (by decide)
  · refine ⟨fun off => by simp [Lanes.of, off], fun on j hj => ?_⟩
    simp only [Lanes.of, Fin.getElem_fin, Vector.getElem_ofFn, Fin.eta, on, if_true]
    exact (elemOf_perElem t.width _ hj).trans (Nat.mod_eq_of_lt (t.sat_lt _ _))
  · refine runGang_done run ?_
    simp only [ty, w, if_true, dotLane_of_width_16 w]
    rfl
  · refine runGang_done run ?_
    simp only [ty, w, if_true, dotLane_of_width_8 w]
    rfl

/-! Decoding PLOG. -/

/-- A PLOG that takes one operand has a zero where the other would be (07 R222). -/
def plogCanonical : Instr → Bool
  | .plog op _ a _ => !op.unary || a == 0
  | _ => true

theorem all_whenOk (p : Instr → Bool) (c : Bool) (i : Instr) : (whenOk c i).all p = (!c || p i) := by
  cases c <;> rfl

/-- The one block of opcodes with PLOG in it. -/
theorem plogCanonical_decodeLanes (op w : Nat) : (decodeLanes op w).all plogCanonical = true := by
  unfold decodeLanes
  repeat' split
  all_goals simp [all_whenOk, plogCanonical]
  rename_i o _
  by_cases a : fa w = 0
  · simp [a, pr]
  · cases o.unary <;> simp [a]

/-- No other block decodes to a PLOG (07 R216 to R230, 10 R374). -/
theorem plogCanonical_otherBlock {block : Nat → Nat → Option Instr} (op w : Nat)
    (h : block ∈ [decodeControl, decodeChannel, decodeInteger, decodeFloat, decodeMemory, decodeCaps, decodeAtomics, decodeEngines,
      decodeMatrix, decodeLaunch, decodePriv]) : (block op w).all plogCanonical = true := by
  simp only [List.mem_cons, List.not_mem_nil, or_false] at h
  rcases h with rfl | rfl | rfl | rfl | rfl | rfl | rfl | rfl | rfl | rfl | rfl
  all_goals
    simp only [decodeControl, decodeChannel, decodeInteger, decodeFloat, decodeMemory, decodeCaps, decodeAtomics, decodeAtom, decodeRed,
      decodeEngines, decodeMatrix, decodeLaunch, decodePriv]
    repeat' split
    all_goals simp [all_whenOk, plogCanonical]

theorem plogCanonical_decode (w : Word) : (decode w).all plogCanonical = true := by
  simp only [decode, decodeNat, apply_ite (Option.all plogCanonical), plogCanonical_decodeLanes, plogCanonical_otherBlock,
    List.mem_cons, true_or, or_true, Option.all_none, ite_self]

/-- A word of PNOT or PMOV that decodes has 0 as its first operand (07 R207, R222). -/
theorem plog_unary_operand {w : Word} {op : PlogOp} {d a b : PReg} (h : decode w = some (.plog op d a b))
    (u : op.unary = true) : a = 0 := by
  simpa [h, plogCanonical, u] using plogCanonical_decode w

/-! MODE and its fields (01 R24, 08 R264, R265). -/

namespace Machine

theorem modeLegal_iff (m : Word) : modeLegal m = true ↔ Spec.modeOk m := by
  have h := m.isLt
  simp [modeLegal, modeScope, modeRnd, modeEtype, bits, Nat.shiftRight_eq_div_pow, Spec.modeOk]
  omega

theorem writeMode_of_ok {g : Gang} {m : Word} (h : Spec.modeOk m) :
    g.writeMode m = .done { g with regs := { g.regs with mode := m } } :=
  if_pos ((modeLegal_iff m).mpr h)

theorem writeMode_of_not_ok {g : Gang} {m : Word} (h : ¬ Spec.modeOk m) : g.writeMode m = .fault (flt .modeReserved) :=
  if_neg (mt (modeLegal_iff m).mp h)

theorem modeField_eq_place (f : ModeField) : Spec.modeField f = ModeField.place f := by cases f <;> rfl

theorem modeField_fits (f : ModeField) : (Spec.modeField f).1 + (Spec.modeField f).2 ≤ 22 := by cases f <;> decide

theorem getLsbD_setField (m : Word) {lo w v n : Nat} (h : v < 2 ^ w) (hn : n < 32) :
    (setField m lo w v).getLsbD n = if lo ≤ n ∧ n < lo + w then v.testBit (n - lo) else m.getLsbD n := by
  have hv : w ≤ n - lo → v.testBit (n - lo) = false := fun hw =>
    Nat.testBit_lt_two_pow (h.trans_le (Nat.pow_le_pow_right (by decide) hw))
  simp only [setField, BitVec.getLsbD_or, BitVec.getLsbD_and, BitVec.getLsbD_not, BitVec.getLsbD_ofNat, hn, decide_true, Bool.true_and,
    Nat.testBit_mul_two_pow, Nat.testBit_two_pow_sub_one]
  by_cases hl : lo ≤ n
  · by_cases hw : n - lo < w
    · simp [hl, hw, show n < lo + w by omega]
    · simp [hl, hw, show ¬ n < lo + w by omega, hv (by omega)]
  · simp [hl]

/-- The field that is written. -/
theorem setField_field (m : Word) {lo w v : Nat} (h : v < 2 ^ w) (hw : lo + w ≤ 32) : (setField m lo w v).toNat / 2 ^ lo % 2 ^ w = v := by
  apply Nat.eq_of_testBit_eq
  intro n
  rw [Nat.testBit_mod_two_pow, Nat.testBit_div_two_pow, BitVec.testBit_toNat]
  by_cases hn : n < w
  · rw [getLsbD_setField m h (by omega), if_pos (by omega)]
    simp [hn]
  · rw [Nat.testBit_lt_two_pow (h.trans_le (Nat.pow_le_pow_right (by decide) (by omega)))]
    simp [hn]

/-- A field apart from it. -/
theorem setField_apart (m : Word) {lo w v lo' w' : Nat} (h : v < 2 ^ w) (hw : lo' + w' ≤ 32) (ap : lo' + w' ≤ lo ∨ lo + w ≤ lo') :
    (setField m lo w v).toNat / 2 ^ lo' % 2 ^ w' = m.toNat / 2 ^ lo' % 2 ^ w' := by
  apply Nat.eq_of_testBit_eq
  intro n
  simp only [Nat.testBit_mod_two_pow, Nat.testBit_div_two_pow, BitVec.testBit_toNat]
  by_cases hn : n < w'
  · rw [getLsbD_setField m h (by omega), if_neg (by omega)]
  · simp [hn]

/-- A field of MODE. -/
def fieldOf (m : Word) (f : ModeField) : Nat := m.toNat / 2 ^ (Spec.modeField f).1 % 2 ^ (Spec.modeField f).2

/-- MODE with one field replaced. -/
def withField (m : Word) (f : ModeField) (v : Nat) : Word := setField m (Spec.modeField f).1 (Spec.modeField f).2 v

theorem modeFields_apart {f h : ModeField} (ne : f ≠ h) :
    (Spec.modeField h).1 + (Spec.modeField h).2 ≤ (Spec.modeField f).1 ∨
      (Spec.modeField f).1 + (Spec.modeField f).2 ≤ (Spec.modeField h).1 := by
  revert ne
  cases f <;> cases h <;> decide

theorem fieldOf_withField (m : Word) {f : ModeField} {v : Nat} (hv : v < 2 ^ (Spec.modeField f).2) (h : ModeField) :
    fieldOf (withField m f v) h = if f = h then v else fieldOf m h := by
  have fits := modeField_fits f
  have fits' := modeField_fits h
  split
  · subst h
    exact setField_field m hv (by omega)
  · exact setField_apart m hv (by omega) (modeFields_apart ‹_›)

theorem modeOk_iff_fields (m : Word) : Spec.modeOk m ↔ m.toNat / 2 ^ 22 % 2 ^ 10 = 0 ∧ fieldOf m .scope < 6 ∧ fieldOf m .rnd < 6 ∧
    fieldOf m .etype ≠ 9 ∧ fieldOf m .etype ≠ 15 ∧ fieldOf m .etype ≠ 31 := by
  have h := m.isLt
  simp only [Spec.modeOk, fieldOf, Spec.modeField]
  omega

/-- A field that is written is legal when its own value is (08 R265). -/
theorem modeOk_withField {m : Word} (ok : Spec.modeOk m) {f : ModeField} {v : BitVec 12} (hv : v.toNat < 2 ^ (Spec.modeField f).2) :
    Spec.modeOk (withField m f v.toNat) ↔
      ¬ ((f = .etype ∧ (v = 9 ∨ v = 15 ∨ v = 31)) ∨ (f = .rnd ∧ 5 < v.toNat) ∨ (f = .scope ∧ 5 < v.toNat)) := by
  have top : (withField m f v.toNat).toNat / 2 ^ 22 % 2 ^ 10 = m.toNat / 2 ^ 22 % 2 ^ 10 :=
    setField_apart m hv (by decide) (.inr (modeField_fits f))
  rw [modeOk_iff_fields] at ok ⊢
  rw [top, fieldOf_withField m hv, fieldOf_withField m hv, fieldOf_withField m hv]
  obtain ⟨_, _, _, _, _, _⟩ := ok
  cases f <;> simp [*, BitVec.toNat_eq] <;> omega

end Machine

/-! PLOG, PTOS, PFROMS, SETEXM and ANDEXM (08 R284 to R286). -/

theorem predicateAndMaskWrites : Spec.predicateAndMaskWrites := by
  refine ⟨fun d a b x hx => ⟨?_, fun two w h => ?_⟩, fun d a => ⟨?_, ?_⟩, fun s g d a run => ?_,
    fun s g d a b x run => ?_, fun s g a b run => ?_⟩
  · have code : x.2 = x.1.code := by revert x; decide
    have lt := Laws.PlogOp.code_lt x.1
    exact code ▸ toNat_encode_wordA rfl (by decide) (by omega) (by omega) (by omega) (by omega)
  · have unary : x.1.unary = true := by clear h; revert x; decide
    exact plog_unary_operand h unary
  · exact toNat_encode_wordA rfl (by decide) (by omega) (by omega) (by decide) (by decide)
  · exact toNat_encode_wordA rfl (by decide) (by omega) (by omega) (by decide) (by decide)
  · show execPtos d a s = _
    exact runGang_done (vs := []) run rfl
  · have plog (op : PlogOp) : exec (.plog op d a b) s = execPlog op d a b s := rfl
    have pfroms : exec (.pfroms d x) s = execPfroms d x s := rfl
    simp only [plog, pfroms]
    refine ⟨?_, ?_, ?_, ?_, ?_, ?_, ?_⟩ <;> exact runGang_done (vs := []) run rfl
  · show execSetexm a s = _ ∧ execAndexm b s = _
    exact ⟨runGang_done (vs := []) run rfl, runGang_done (vs := []) run rfl⟩

/-! SETMODE, SETMF and SETFS (08 R264 to R266). -/

theorem exec_setmode {s : State} {g : Gang} (a : SReg) (run : Runs0 s g) :
    ((g.s a).toNat < 2 ^ 32 ∧ Spec.modeOk ((g.s a).truncate 32) →
      exec (.setmode a) s = .next (s.retires { g with regs := { g.regs with mode := (g.s a).truncate 32 } })) ∧
    (¬ ((g.s a).toNat < 2 ^ 32 ∧ Spec.modeOk ((g.s a).truncate 32)) →
      exec (.setmode a) s = .next (s.faults g (flt .modeReserved))) := by
  have high : bits (g.s a) 63 32 = 0 ↔ (g.s a).toNat < 2 ^ 32 := by
    have := (g.s a).isLt
    simp only [bits, Nat.shiftRight_eq_div_pow]
    omega
  refine ⟨fun ⟨lt, ok⟩ => runGang_done run ?_, fun bad => runGang_fault run ?_⟩
  · rw [if_neg (not_not.mpr (high.mpr lt)), writeMode_of_ok ok]
  · by_cases lt : (g.s a).toNat < 2 ^ 32
    · rw [if_neg (not_not.mpr (high.mpr lt)), writeMode_of_not_ok fun ok => bad ⟨lt, ok⟩]
    · rw [if_pos (mt high.mp lt)]

theorem exec_setfs {s : State} {g : Gang} (a : SReg) (run : Runs0 s g) :
    ((g.s a).toNat < 32 → exec (.setfs a) s = .next (s.retires { g with regs := { g.regs with fstat := (g.s a).truncate 5 } })) ∧
    (32 ≤ (g.s a).toNat → exec (.setfs a) s = .next (s.faults g (flt .modeReserved))) := by
  have high : bits (g.s a) 63 5 = 0 ↔ (g.s a).toNat < 32 := by
    have := (g.s a).isLt
    simp only [bits, Nat.shiftRight_eq_div_pow]
    omega
  exact ⟨fun lt => runGang_done run (if_neg (not_not.mpr (high.mpr lt))),
    fun ge => runGang_fault (vs := []) run (if_pos (mt high.mp (by omega)))⟩

theorem exec_setmf_eq (f : ModeField) (v : BitVec 12) (s : State) :
    exec (.setmf f v) s = runGang [] (fun g => if 2 ^ (Spec.modeField f).2 ≤ v.toNat then .fault (flt .modeReserved)
      else g.writeMode (withField g.regs.mode f v.toNat)) s := by
  cases f <;> rfl

theorem modeAndFlagWrites : Spec.modeAndFlagWrites := by
  refine ⟨fun s g a run => exec_setmode a run, fun s g f v run ok => ?_, fun s g a run => exec_setfs a run⟩
  rw [exec_setmf_eq]
  by_cases fit : v.toNat < 2 ^ (Spec.modeField f).2
  · have legal := modeOk_withField ok fit
    have low : ¬ 2 ^ (Spec.modeField f).2 ≤ v.toNat := Nat.not_le.mpr fit
    refine ⟨fun bad => runGang_fault run ?_,
      fun good => ⟨withField g.regs.mode f v.toNat, runGang_done run ?_, ?_, fun n hn out => ?_⟩⟩
    · rw [if_neg low, writeMode_of_not_ok (mt legal.mp (not_not.mpr (bad.resolve_left low)))]
    · rw [if_neg low, writeMode_of_ok (legal.mpr fun bad => good (.inr bad))]
    · exact (fieldOf_withField _ fit f).trans (if_pos rfl)
    · rw [withField, getLsbD_setField _ fit hn, if_neg (by omega)]
  · have high := Nat.not_lt.mp fit
    exact ⟨fun _ => runGang_fault run (if_pos high), fun good => absurd (.inl high) good⟩

/-- Settles O16: PLOG by its decoder blocks, the mask words by R27, and the MODE words by where each field lies. -/
theorem statusWrites : Obligations.StatusWrites := ⟨predicateAndMaskWrites, modeAndFlagWrites⟩

end Sys2Proof
end

section
/-! Rounding of exact real values (03 R87 to R95). -/

open Sys2Proof Sys2Proof.Machine

namespace Sys2Proof.Machine

/-! Patterns of a format without sign, in ascending order of the magnitudes they stand for (03 R87). -/

/-- The magnitude of a pattern without sign, in units of the smallest subnormal. -/
def magUnits (fb p : Nat) : Nat := if p < 2 ^ fb then p else (2 ^ fb + p % 2 ^ fb) * 2 ^ (p / 2 ^ fb - 1)

/-- Mantissa q at d exponents above the smallest: the pattern, a carry out of the mantissa included, has q times 2^d units. -/
theorem magUnits_of_mantissa {fb q d : Nat} (h : q ≤ 2 ^ (fb + 1)) (normal : d ≠ 0 → 2 ^ fb ≤ q) :
    magUnits fb (q + d * 2 ^ fb) = q * 2 ^ d := by
  have pos : 0 < 2 ^ fb := by positivity
  rw [pow_succ] at h
  unfold magUnits
  rcases Nat.lt_or_ge q (2 ^ fb) with lt | ge
  · obtain rfl : d = 0 := by by_contra hd; have := normal hd; omega
    simp [lt]
  · rw [if_neg (by have := Nat.zero_le (d * 2 ^ fb); omega), Nat.add_mul_mod_self_right, Nat.add_mul_div_right _ _ pos]
    rcases Nat.lt_or_ge q (2 ^ fb * 2) with lt | ge'
    · obtain ⟨j, rfl⟩ := Nat.exists_eq_add_of_le ge
      rw [Nat.add_mod_left, Nat.mod_eq_of_lt (by omega), Nat.add_div_left _ pos, Nat.div_eq_of_lt (by omega)]
      congr 2
      omega
    · obtain rfl : q = 2 ^ fb * 2 := by omega
      rw [Nat.mul_mod_right, Nat.mul_div_cancel_left _ pos, show 2 + d - 1 = d + 1 by omega, pow_succ]
      ring

theorem magUnits_strictMono (fb : Nat) : StrictMono (magUnits fb) := by
  have pos : 0 < 2 ^ fb := by positivity
  -- every pattern is a mantissa and a number of exponents above the smallest
  have split (p : Nat) : ∃ q d, p = q + d * 2 ^ fb ∧ q < 2 ^ (fb + 1) ∧ (d ≠ 0 → 2 ^ fb ≤ q) := by
    rcases Nat.lt_or_ge p (2 ^ fb) with lt | ge
    · exact ⟨p, 0, by omega, by rw [pow_succ]; omega, by simp⟩
    · refine ⟨2 ^ fb + p % 2 ^ fb, p / 2 ^ fb - 1, ?_, ?_, fun _ => by omega⟩
      · have one : 1 ≤ p / 2 ^ fb := (Nat.one_le_div_iff pos).mpr ge
        have := Nat.div_add_mod' p (2 ^ fb)
        have := Nat.sub_one_mul (p / 2 ^ fb) (2 ^ fb)
        have := Nat.le_mul_of_pos_left (2 ^ fb) one
        omega
      · have := Nat.mod_lt p pos
        rw [pow_succ]; omega
  refine strictMono_nat_of_lt_succ fun p => ?_
  obtain ⟨q, d, rfl, lt, normal⟩ := split p
  rw [show q + d * 2 ^ fb + 1 = q + 1 + d * 2 ^ fb by omega, magUnits_of_mantissa lt.le normal,
    magUnits_of_mantissa (by omega) fun hd => by have := normal hd; omega]
  exact Nat.mul_lt_mul_of_pos_right (Nat.lt_succ_self q) (by positivity)

/-! The formats of the statements. -/

/-- Largest finite value (03 R87). -/
noncomputable def Fmt.largest (f : Fmt) : ℝ :=
  match f.kind with
  | .ieee => (2 - 2 ^ (-f.fbits : ℤ)) * 2 ^ f.bias
  | .e4m3 => 448
  | .e2m1 => 6

/-- What rounding and reading need of a format. -/
structure Fmt.Sound (f : Fmt) : Prop where
  maxBits_lt : f.maxBits < f.signBit
  normal_le  : 2 ^ (f.fbits + 1) ≤ f.maxBits
  finite     : ∀ p ≤ f.maxBits, ¬ (f.kind = .ieee ∧ p / 2 ^ f.fbits = 2 ^ f.ebits - 1) ∧
    ¬ (f.kind = .e4m3 ∧ p / 2 ^ f.fbits = 15 ∧ p % 2 ^ f.fbits = 7)
  largest    : (magUnits f.fbits f.maxBits : ℝ) * 2 ^ (f.emin - f.fbits) = f.largest
  nan        : f.nan = Spec.nan f
  isNan_iff  : ∀ x, Spec.isNan f x ↔ (f.kind = .ieee ∧ x / 2 ^ f.fbits % 2 ^ f.ebits = 2 ^ f.ebits - 1 ∧ x % 2 ^ f.fbits ≠ 0) ∨
    (f.kind = .e4m3 ∧ x / 2 ^ f.fbits % 2 ^ f.ebits = 15 ∧ x % 2 ^ f.fbits = 7)
  kind_e2m1  : f.kind = .e2m1 ↔ f = e2m1

theorem sound_of_mem {f : Fmt} (h : f ∈ [f32, f16, bf16, e4m3, e5m2, e2m1]) : f.Sound := by
  simp only [List.mem_cons, List.not_mem_nil, or_false] at h
  rcases h with rfl | rfl | rfl | rfl | rfl | rfl
  all_goals
    refine ⟨by decide, by decide, fun p hp => ?_, ?_, by decide, fun x => ?_, by decide⟩
    · simp [f32, f16, bf16, e4m3, e5m2, e2m1, Fmt.maxBits] at hp ⊢ <;> omega
    · norm_num [f32, f16, bf16, e4m3, e5m2, e2m1, Fmt.maxBits, Fmt.emin, Fmt.largest, magUnits, zpow_neg]
    · simp [f32, f16, bf16, e4m3, e5m2, e2m1, Spec.isNan] <;> omega

/-! A value cut at a unit (03 R90, R92). -/

/-- A value of q whole units and r of 2^k parts of one, with a tail below a part that is 0 where the parts are coarse. -/
structure Cut (y tail : ℝ) (q r k : Nat) : Prop where
  value  : y = q + (r + tail) / 2 ^ k
  lt     : r < 2 ^ k
  nonneg : 0 ≤ tail
  below  : tail < 1
  fine   : tail ≠ 0 → 24 ≤ k

/-- The unit of cutAt is 2^u, and the value is m and its tail times 2^e. -/
theorem cutAt_cut (m : Nat) {e u : ℤ} {tail : ℝ} (h0 : 0 ≤ tail) (h1 : tail < 1) (fine : tail ≠ 0 → e + 24 ≤ u) :
    Cut ((m + tail) * 2 ^ e / 2 ^ u) tail (cutAt m e u).1 (cutAt m e u).2.1 (cutAt m e u).2.2 := by
  have two : (2 : ℝ) ≠ 0 := by norm_num
  unfold cutAt
  split
  · rename_i le
    obtain rfl : tail = 0 := by by_contra h; have := fine h; omega
    obtain ⟨d, hd⟩ := Int.eq_ofNat_of_zero_le (sub_nonneg.mpr le)
    refine ⟨?_, by simp, le_rfl, h1, fun h => absurd rfl h⟩
    rw [mul_div_assoc, ← zpow_sub₀ two, hd]
    simp
  · rename_i gt
    obtain ⟨d, hd⟩ := Int.eq_ofNat_of_zero_le (show 0 ≤ u - e by omega)
    rw [hd, Int.toNat_natCast]
    refine ⟨?_, Nat.mod_lt _ (by positivity), h0, h1, fun h => ?_⟩
    swap
    · show 24 ≤ d; have := fine h; omega
    have split : (m : ℝ) = 2 ^ d * (m / 2 ^ d : Nat) + (m % 2 ^ d : Nat) := by exact_mod_cast (Nat.div_add_mod m (2 ^ d)).symm
    rw [mul_div_assoc, ← zpow_sub₀ two, show e - u = -(d : ℤ) by omega, zpow_neg, zpow_natCast, ← div_eq_mul_inv, split]
    field_simp
    ring

/-- The whole part of a quotient of a natural number with a tail below 1. -/
theorem floor_add_tail_div (a : Nat) {b : Nat} (hb : 0 < b) {tail : ℝ} (h0 : 0 ≤ tail) (h1 : tail < 1) :
    ⌊((a : ℝ) + tail) / b⌋ = (a / b : Nat) := by
  have hb' : (0 : ℝ) < b := by exact_mod_cast hb
  have lo : ((a / b : Nat) : ℝ) * b ≤ a := by exact_mod_cast Nat.div_mul_le_self a b
  have hi : (a : ℝ) + 1 ≤ b * ((a / b : Nat) + 1) := by exact_mod_cast Nat.lt_mul_div_succ a hb
  rw [Int.floor_eq_iff, Int.cast_natCast, le_div_iff₀ hb', div_lt_iff₀ hb']
  constructor <;> linarith

namespace Cut
variable {y tail : ℝ} {q r k : Nat} (h : Cut y tail q r k)
include h

theorem fract_eq : Int.fract y = (r + tail) / 2 ^ k := by
  have lt : ((r : ℝ) + 1) ≤ 2 ^ k := by exact_mod_cast h.lt
  have pos : (0 : ℝ) < 2 ^ k := by positivity
  rw [Int.fract_eq_iff]
  refine ⟨div_nonneg (add_nonneg (Nat.cast_nonneg r) h.nonneg) pos.le, ?_, q, ?_⟩
  · rw [div_lt_one pos]
    linarith [h.below]
  · rw [h.value]
    push_cast
    ring

theorem floor_eq : ⌊y⌋ = q := by
  have e := Int.self_sub_floor y
  rw [h.fract_eq] at e
  have v := h.value
  have : ((⌊y⌋ : ℤ) : ℝ) = ((q : ℤ) : ℝ) := by push_cast; linarith
  exact_mod_cast this

theorem fract_eq_zero : Int.fract y = 0 ↔ r = 0 ∧ tail = 0 := by
  have pos : (0 : ℝ) < 2 ^ k := by positivity
  rw [h.fract_eq, div_eq_zero_iff, or_iff_left pos.ne', add_eq_zero_iff_of_nonneg (Nat.cast_nonneg r) h.nonneg, Nat.cast_eq_zero]

/-- Without parts there is no fraction. -/
theorem fract_eq_zero_of_whole (hk : k = 0) : Int.fract y = 0 := by
  subst hk
  refine h.fract_eq_zero.mpr ⟨by have := h.lt; omega, ?_⟩
  by_contra t
  exact absurd (h.fine t) (by decide)

/-- Half a unit is 2^k / 2 parts. -/
theorem fract_eq_half_parts (hk : k ≠ 0) : Int.fract y = (r + tail) / (2 * (2 ^ k / 2 : Nat)) ∧ (0 : ℝ) < (2 ^ k / 2 : Nat) := by
  obtain ⟨j, rfl⟩ := Nat.exists_eq_succ_of_ne_zero hk
  have half : 2 ^ (j + 1) / 2 = 2 ^ j := by rw [pow_succ, Nat.mul_div_cancel _ (by decide)]
  rw [h.fract_eq, Nat.succ_eq_add_one, half, pow_succ]
  push_cast
  exact ⟨by rw [mul_comm], by positivity⟩

theorem half_lt_iff : 1 / 2 < Int.fract y ↔ k ≠ 0 ∧ (2 ^ k / 2 < r ∨ (r = 2 ^ k / 2 ∧ tail ≠ 0)) := by
  by_cases hk : k = 0
  · rw [h.fract_eq_zero_of_whole hk]; norm_num [hk]
  obtain ⟨e, pos⟩ := h.fract_eq_half_parts hk
  rw [e, lt_div_iff₀ (by positivity)]
  have n := h.nonneg
  have b := h.below
  rcases Nat.lt_trichotomy r (2 ^ k / 2) with lt | eq | gt
  · have : (r : ℝ) + 1 ≤ (2 ^ k / 2 : Nat) := by exact_mod_cast lt
    refine iff_of_false (by linarith) (by omega)
  · rw [eq]
    simp only [hk, lt_irrefl, false_or, ne_eq, not_false_eq_true, true_and]
    constructor
    · intro l t; rw [t] at l; linarith
    · intro t; have := lt_of_le_of_ne n (Ne.symm t); linarith
  · have : ((2 ^ k / 2 : Nat) : ℝ) + 1 ≤ r := by exact_mod_cast gt
    exact iff_of_true (by linarith) ⟨hk, .inl gt⟩

theorem eq_half_iff : Int.fract y = 1 / 2 ↔ k ≠ 0 ∧ r = 2 ^ k / 2 ∧ tail = 0 := by
  by_cases hk : k = 0
  · rw [h.fract_eq_zero_of_whole hk]; norm_num [hk]
  obtain ⟨e, pos⟩ := h.fract_eq_half_parts hk
  rw [e, div_eq_iff (by positivity)]
  have n := h.nonneg
  have b := h.below
  rcases Nat.lt_trichotomy r (2 ^ k / 2) with lt | eq | gt
  · have : (r : ℝ) + 1 ≤ (2 ^ k / 2 : Nat) := by exact_mod_cast lt
    exact iff_of_false (by intro; linarith) (by omega)
  · rw [eq]
    simp only [hk, ne_eq, not_false_eq_true, true_and]
    constructor <;> intro <;> linarith
  · have : ((2 ^ k / 2 : Nat) : ℝ) + 1 ≤ r := by exact_mod_cast gt
    exact iff_of_false (by intro; linarith) (by omega)

theorem half_le_iff : 1 / 2 ≤ Int.fract y ↔ k ≠ 0 ∧ 2 ^ k / 2 ≤ r := by
  rw [le_iff_lt_or_eq, h.half_lt_iff, eq_comm (a := (1 / 2 : ℝ)), h.eq_half_iff, Nat.le_iff_lt_or_eq, eq_comm (a := 2 ^ k / 2)]
  tauto

/-- floor(...) of 03 R92. -/
theorem floor_fract_mul : ⌊Int.fract y * 2 ^ 24⌋ = (r * 2 ^ 24 / 2 ^ k : Nat) := by
  rw [h.fract_eq]
  by_cases t : tail = 0
  · have e : ((r : ℝ) + tail) / 2 ^ k * 2 ^ 24 = (((r * 2 ^ 24 : Nat) : ℝ) + 0) / (2 ^ k : Nat) := by
      rw [t]; push_cast; ring
    rw [e, floor_add_tail_div _ (by positivity) le_rfl one_pos]
  · obtain ⟨d, rfl⟩ := Nat.exists_eq_add_of_le (h.fine t)
    have e : ((r : ℝ) + tail) / 2 ^ (24 + d) * 2 ^ 24 = ((r : ℝ) + tail) / (2 ^ d : Nat) := by
      rw [pow_add]; push_cast; field_simp
    rw [e, floor_add_tail_div _ (by positivity) h.nonneg h.below, pow_add, Nat.mul_comm r, Nat.mul_div_mul_left _ _ (by positivity)]

/-- The rounding of the model is that of R90 and R92. -/
theorem roundUp_iff {sticky : Bool} (hs : sticky = true ↔ tail ≠ 0) (rnd : Nat) (neg : Bool) (g : Nat) :
    roundUp rnd neg q r k sticky g = true ↔ Spec.goesUp rnd neg y g := by
  have inexact : (r != 0 || sticky) = true ↔ Int.fract y ≠ 0 := by
    rw [Ne, h.fract_eq_zero, Bool.or_eq_true, hs, bne_iff_ne]; tauto
  unfold roundUp Spec.goesUp
  split
  · have odd : (q : ℤ) % 2 = 1 ↔ q % 2 = 1 := by omega
    rw [h.half_lt_iff, h.eq_half_iff, h.floor_eq, odd, ← hs]
    simp only [Bool.and_eq_true, Bool.or_eq_true, bne_iff_ne, decide_eq_true_eq, beq_iff_eq]
    have : tail = 0 ↔ ¬ sticky = true := by rw [hs, not_not]
    rw [this]
    tauto
  · simp
  · simp [inexact]
  · simp [inexact]
  · rw [h.half_le_iff]; simp
  · rw [h.floor_fract_mul, decide_eq_true_eq]
    exact_mod_cast Iff.rfl

end Cut

/-! What rounding leaves: the pattern, the LFSR and the flags (03 R89 to R95). -/

/-- The state after a rounding that raises k. -/
theorem raises_of_flags {c : FpCfg} {t : FpSt} {k : BitVec 5} {nx uf ovf : Prop} (h4 : k.getLsbD 4 = true ↔ nx)
    (h3 : k.getLsbD 3 = true ↔ uf) (h2 : k.getLsbD 2 = true ↔ ovf) (h1 : k.getLsbD 1 = false) (h0 : k.getLsbD 0 = false) :
    Spec.raises c t ((t.tick c.rnd).raise k) nx uf ovf := by
  refine ⟨?_, k, ?_, h4, h3, h2, h1, h0⟩ <;> unfold FpSt.tick FpSt.raise <;> split <;> rfl

theorem raises_tick (c : FpCfg) (t : FpSt) : Spec.raises c t (t.tick c.rnd) False False False := by
  have h : (t.tick c.rnd).raise 0 = t.tick c.rnd := by simp [FpSt.raise]
  rw [← h]
  exact raises_of_flags (by decide) (by decide) (by decide) rfl rfl

/-- The sign bit of a pattern. -/
def Fmt.signOf (f : Fmt) (neg : Bool) : Nat := if neg then f.signBit else 0

/-- A sign as a factor. -/
noncomputable def signFactor (neg : Bool) : ℝ := if neg then -1 else 1

theorem signBit_eq (f : Fmt) : f.signBit = 2 ^ f.ebits * 2 ^ f.fbits := pow_add ..

/-- The fields of a pattern with its sign (03 R87). -/
theorem fields_signOf_add {f : Fmt} {p : Nat} (hp : p < f.signBit) (neg : Bool) :
    (f.signOf neg + p) / 2 ^ (f.ebits + f.fbits) = (if neg then 1 else 0) ∧
    (f.signOf neg + p) / 2 ^ f.fbits % 2 ^ f.ebits = p / 2 ^ f.fbits ∧ (f.signOf neg + p) % 2 ^ f.fbits = p % 2 ^ f.fbits := by
  have he : p / 2 ^ f.fbits < 2 ^ f.ebits := Nat.div_lt_of_lt_mul (by rwa [Nat.mul_comm, ← signBit_eq])
  have pos : 0 < f.signBit := by unfold Fmt.signBit; positivity
  unfold Fmt.signOf
  cases neg
  · simp [Nat.div_eq_of_lt hp, Nat.mod_eq_of_lt he, show (2 ^ (f.ebits + f.fbits)) = f.signBit from rfl]
  · rw [if_pos rfl, if_pos rfl]
    refine ⟨?_, ?_, ?_⟩
    · rw [show (2 ^ (f.ebits + f.fbits)) = f.signBit from rfl, Nat.add_div_left _ pos, Nat.div_eq_of_lt hp]
    · rw [signBit_eq, Nat.mul_comm, Nat.mul_add_div (by positivity), Nat.add_mod_left, Nat.mod_eq_of_lt he]
    · rw [signBit_eq, Nat.mul_add_mod_self_right]

/-- A pattern of a finite magnitude stands for its units, with its sign. -/
theorem isNum_signOf_add {f : Fmt} (hf : f.Sound) {p : Nat} (hp : p ≤ f.maxBits) (neg : Bool) :
    Spec.isNum f false (f.signOf neg + p) (signFactor neg * (magUnits f.fbits p * 2 ^ (f.emin - f.fbits))) := by
  obtain ⟨hs, he, hm⟩ := fields_signOf_add (hp.trans_lt hf.maxBits_lt) neg
  obtain ⟨h1, h2⟩ := hf.finite p hp
  unfold Spec.isNum
  rw [hs, he, hm]
  have sign : (if (if neg = true then 1 else 0) % 2 = 1 then (-1 : ℝ) else 1) = signFactor neg := by cases neg <;> simp [signFactor]
  have pos : 0 < 2 ^ f.fbits := by positivity
  refine ⟨h1, h2, ?_⟩
  rw [sign]
  congr 1
  unfold magUnits Fmt.emin
  by_cases lt : p < 2 ^ f.fbits
  · rw [if_pos lt, if_pos (Nat.div_eq_of_lt lt), if_neg (by decide), Nat.mod_eq_of_lt lt]
  · obtain ⟨j, hj⟩ := Nat.exists_eq_succ_of_ne_zero (show p / 2 ^ f.fbits ≠ 0 by
      rw [Ne, Nat.div_eq_zero_iff]; omega)
    rw [if_neg lt, hj, if_neg (Nat.succ_ne_zero j),
      show ((j.succ : ℕ) - f.bias - f.fbits : ℤ) = j + (1 - f.bias - f.fbits) by push_cast; ring,
      zpow_add₀ (by norm_num), zpow_natCast, Nat.succ_sub_one]
    push_cast
    ring

/-! roundTo by cases (07 R245). -/

theorem roundTo_zero (f : Fmt) (c : FpCfg) (neg : Bool) (e : ℤ) (sticky : Bool) (t : FpSt) :
    roundTo f c neg 0 e sticky t = (f.signOf neg, t.tick c.rnd) := rfl

theorem roundTo_flush {f : Fmt} {c : FpCfg} (neg : Bool) {m : Nat} {e : ℤ} (sticky : Bool) (t : FpSt) (hm : m ≠ 0) (ftz : c.ftz = true)
    (tiny : e + m.log2 < f.emin) :
    roundTo f c neg m e sticky t = (f.signOf neg, (t.tick c.rnd).raise (flagUF ||| flagNX)) := by
  simp [roundTo, hm, ftz, tiny, Fmt.signOf]

/-- Flags of a rounding: inexact, tiny and inexact, overflow. -/
def roundFlags (inexact uf ovf : Bool) : BitVec 5 :=
  (if inexact then flagNX else 0) ||| (if uf then flagUF else 0) ||| (if ovf then flagOF ||| flagNX else 0)

/-- The unit's exponent for a value between 2^x and 2^(x+1). -/
def Fmt.unit (f : Fmt) (x : ℤ) : ℤ := max x f.emin - f.fbits

/-- The rounded magnitude in units. -/
def roundedUnits (c : FpCfg) (neg : Bool) (m : Nat) (e u : ℤ) (sticky : Bool) (t : FpSt) : Nat :=
  if roundUp c.rnd neg (cutAt m e u).1 (cutAt m e u).2.1 (cutAt m e u).2.2 sticky ((t.tick c.rnd).lfsr.toNat % 2 ^ 24)
  then (cutAt m e u).1 + 1 else (cutAt m e u).1

/-- The pattern of a number of units, beyond the largest for an overflow. -/
def Fmt.ofUnits (f : Fmt) (u : ℤ) (n : Nat) : Nat := n + (u - (f.emin - f.fbits)).toNat * 2 ^ f.fbits

theorem roundTo_normal {f : Fmt} {c : FpCfg} (neg : Bool) {m : Nat} {e : ℤ} (sticky : Bool) (t : FpSt) (hm : m ≠ 0)
    (h : c.ftz = false ∨ f.emin ≤ e + m.log2) :
    (let u := f.unit (e + m.log2)
     let mag := f.ofUnits u (roundedUnits c neg m e u sticky t)
     let inexact := (cutAt m e u).2.1 != 0 || sticky
     let ovf := decide (f.maxBits < mag)
     roundTo f c neg m e sticky t = (f.signOf neg + (if ovf then overflowBits f c.rnd neg else mag),
       (t.tick c.rnd).raise (roundFlags inexact (decide (e + m.log2 < f.emin) && inexact) ovf))) := by
  have go : (decide (e + (m.log2 : ℤ) < f.emin) && c.ftz) = false := by
    rcases h with h | h
    · simp [h]
    · simp [h]
  simp only [roundTo, if_neg hm, go, Bool.false_eq_true, if_false]
  rfl

/-! roundTo rounds the exact value (03 R89 to R95). -/

theorem signFactor_neg_iff {neg : Bool} {a : ℝ} (h : 0 < a) : signFactor neg * a < 0 ↔ neg = true := by
  cases neg <;> simp [signFactor, h, h.le]

theorem abs_signFactor_mul (neg : Bool) {a : ℝ} (h : 0 ≤ a) : |signFactor neg * a| = a := by
  cases neg <;> simp [signFactor, abs_of_nonneg h]

section
variable {m : Nat} {e : ℤ} {tail : ℝ}

theorem exact_bounds (hm : m ≠ 0) (h0 : 0 ≤ tail) (h1 : tail < 1) :
    (2 : ℝ) ^ (e + m.log2) ≤ (m + tail) * 2 ^ e ∧ (m + tail) * 2 ^ e < 2 ^ (e + m.log2 + 1) := by
  have lo : (2 : ℝ) ^ m.log2 ≤ m := by exact_mod_cast Nat.log2_self_le hm
  have hi : (m : ℝ) + 1 ≤ 2 ^ (m.log2 + 1) := by exact_mod_cast Nat.lt_log2_self
  have pos : (0 : ℝ) < 2 ^ e := by positivity
  have two : (2 : ℝ) ≠ 0 := two_ne_zero
  rw [add_assoc, zpow_add₀ two, zpow_add₀ two, mul_comm _ ((2 : ℝ) ^ (m.log2 : ℤ)), mul_comm _ ((2 : ℝ) ^ ((m.log2 : ℤ) + 1))]
  refine ⟨mul_le_mul_of_nonneg_right ?_ pos.le, mul_lt_mul_of_pos_right ?_ pos⟩
  · rw [zpow_natCast]; linarith
  · rw [← Nat.cast_succ, zpow_natCast, Nat.succ_eq_add_one]; linarith

/-- The binary exponent of a positive value is one number. -/
theorem exponent_unique {a : ℝ} {j k : ℤ} (h1 : (2 : ℝ) ^ j ≤ a) (h2 : a < 2 ^ (j + 1))
    (h3 : (2 : ℝ) ^ k ≤ a) (h4 : a < 2 ^ (k + 1)) : j = k := by
  have l := (zpow_lt_zpow_iff_right₀ (one_lt_two (α := ℝ))).mp (h1.trans_lt h4)
  have r := (zpow_lt_zpow_iff_right₀ (one_lt_two (α := ℝ))).mp (h3.trans_lt h2)
  omega

end

/-- The unit is a whole number of the smallest subnormals. -/
theorem two_zpow_unit (f : Fmt) (x : ℤ) :
    (2 : ℝ) ^ f.unit x = 2 ^ (f.unit x - (f.emin - f.fbits)).toNat * 2 ^ (f.emin - f.fbits) := by
  have h : f.emin ≤ max x f.emin := le_max_right ..
  rw [← zpow_natCast, ← zpow_add₀ two_ne_zero, Int.toNat_of_nonneg (by unfold Fmt.unit; omega)]
  congr 1
  ring

/-- Units of a value between 2^x and 2^(x+1) fill at most the mantissa and its carry, and above the smallest exponent the mantissa. -/
theorem cut_mantissa {f : Fmt} {a tail : ℝ} {x : ℤ} {q r k : Nat} (cut : Cut (a / 2 ^ f.unit x) tail q r k) (h1 : (2 : ℝ) ^ x ≤ a)
    (h2 : a < 2 ^ (x + 1)) : q < 2 ^ (f.fbits + 1) ∧ ((f.unit x - (f.emin - f.fbits)).toNat ≠ 0 → 2 ^ f.fbits ≤ q) := by
  have pos : (0 : ℝ) < 2 ^ f.unit x := by positivity
  have floor := cut.floor_eq
  constructor
  · have : ⌊a / 2 ^ f.unit x⌋ < ((2 ^ (f.fbits + 1) : Nat) : ℤ) := by
      rw [Int.floor_lt, div_lt_iff₀ pos]
      refine h2.trans_le ?_
      push_cast
      rw [← zpow_natCast, ← zpow_add₀ two_ne_zero]
      refine zpow_le_zpow_right₀ one_le_two ?_
      have := le_max_left x f.emin
      unfold Fmt.unit
      push_cast
      omega
    rw [floor] at this
    exact_mod_cast this
  · intro above
    have top : f.unit x = x - f.fbits := by unfold Fmt.unit at above ⊢; omega
    have : ((2 ^ f.fbits : Nat) : ℤ) ≤ ⌊a / 2 ^ f.unit x⌋ := by
      rw [Int.le_floor, le_div_iff₀ pos, top]
      refine le_trans (le_of_eq ?_) h1
      push_cast
      rw [← zpow_natCast, ← zpow_add₀ two_ne_zero]
      congr 1
      omega
    rw [floor] at this
    exact_mod_cast this

/-- Rounding by one unit up or none. -/
theorem roundedUnits_cases (c : FpCfg) (neg : Bool) (m : Nat) (e u : ℤ) (sticky : Bool) (t : FpSt) :
    roundedUnits c neg m e u sticky t = (cutAt m e u).1 ∨ roundedUnits c neg m e u sticky t = (cutAt m e u).1 + 1 := by
  unfold roundedUnits
  split <;> simp

/-- A number of units stands for the magnitude that its pattern has. -/
theorem magUnits_ofUnits {f : Fmt} {x : ℤ} {n : Nat} (h : n ≤ 2 ^ (f.fbits + 1))
    (normal : (f.unit x - (f.emin - f.fbits)).toNat ≠ 0 → 2 ^ f.fbits ≤ n) :
    (magUnits f.fbits (f.ofUnits (f.unit x) n) : ℝ) * 2 ^ (f.emin - f.fbits) = n * 2 ^ f.unit x := by
  rw [two_zpow_unit, Fmt.ofUnits, magUnits_of_mantissa h normal]
  push_cast
  ring

theorem maxBits_lt_iff {f : Fmt} (hf : f.Sound) (p : Nat) :
    f.maxBits < p ↔ f.largest < (magUnits f.fbits p : ℝ) * 2 ^ (f.emin - f.fbits) := by
  rw [← hf.largest, mul_lt_mul_iff_left₀ (by positivity), Nat.cast_lt, (magUnits_strictMono f.fbits).lt_iff_lt]

theorem overflowBits_eq (f : Fmt) (rnd : Nat) (neg : Bool) :
    overflowBits f rnd neg = if f.kind = .ieee ∧ (rnd = 0 ∨ 4 ≤ rnd ∨ (rnd = 2 ∧ neg = true) ∨ (rnd = 3 ∧ neg = false))
      then f.infBits else f.maxBits := by
  unfold overflowBits
  cases f.kind with
  | ieee =>
    match rnd with
    | 0 => simp
    | 1 => simp
    | 2 => cases neg <;> simp
    | 3 => cases neg <;> simp
    | n + 4 => simp
  | e4m3 => simp
  | e2m1 => simp

theorem roundFlags_bits (inexact uf ovf : Bool) :
    (roundFlags inexact uf ovf).getLsbD 4 = (inexact || ovf) ∧ (roundFlags inexact uf ovf).getLsbD 3 = uf ∧
    (roundFlags inexact uf ovf).getLsbD 2 = ovf ∧ (roundFlags inexact uf ovf).getLsbD 1 = false ∧
    (roundFlags inexact uf ovf).getLsbD 0 = false := by
  revert inexact uf ovf
  decide

/-- A value with no fraction is not rounded up. -/
theorem not_goesUp_of_fract_eq_zero {rnd : Nat} {neg : Bool} {y : ℝ} {g : Nat} (hg : g < 2 ^ 24) (h : Int.fract y = 0) :
    ¬ Spec.goesUp rnd neg y g := by
  have hg' : (g : ℤ) < 2 ^ 24 := by exact_mod_cast hg
  unfold Spec.goesUp
  split <;> simp only [h, ne_eq, not_true_eq_false, and_false, not_false_eq_true, zero_mul, Int.floor_zero,
    zero_add, not_le, hg'] <;> norm_num

/-- The rounded number of units is the exact one just when there is no fraction. -/
theorem rounded_ne_iff {rnd : Nat} {neg : Bool} {y : ℝ} {g : Nat} {n : ℤ} (hg : g < 2 ^ 24)
    (stay : ¬ Spec.goesUp rnd neg y g → n = ⌊y⌋) : (n : ℝ) ≠ y ↔ Int.fract y ≠ 0 := by
  refine not_congr ⟨fun h => by rw [← h, Int.fract_intCast], fun h => ?_⟩
  rw [stay (not_goesUp_of_fract_eq_zero hg h)]
  have := Int.self_sub_floor y
  linarith

/-- The bits of a lane's LFSR that stochastic rounding adds (03 R92). -/
def FpSt.noise (t : FpSt) : Nat := t.lfsr.toNat % 2 ^ 24

theorem FpSt.noise_lt (t : FpSt) : t.noise < 2 ^ 24 := Nat.mod_lt _ (by decide)

theorem roundedUnits_eq {c : FpCfg} {neg : Bool} {m : Nat} {e u : ℤ} {sticky : Bool} {t : FpSt} {y tail : ℝ} {n : ℤ}
    (cut : Cut y tail (cutAt m e u).1 (cutAt m e u).2.1 (cutAt m e u).2.2) (hs : sticky = true ↔ tail ≠ 0)
    (up : Spec.goesUp c.rnd neg y (t.tick c.rnd).noise → n = ⌊y⌋ + 1)
    (stay : ¬ Spec.goesUp c.rnd neg y (t.tick c.rnd).noise → n = ⌊y⌋) :
    n = (roundedUnits c neg m e u sticky t : ℤ) := by
  have iff := cut.roundUp_iff hs c.rnd neg (t.tick c.rnd).noise
  rw [cut.floor_eq] at up stay
  unfold roundedUnits
  split
  · rw [up (iff.mp ‹_›)]; rfl
  · exact stay (mt iff.mpr ‹_›)

/-- Every rounding leaves the LFSR as one step does (03 R93). -/
theorem roundTo_lfsr (f : Fmt) (c : FpCfg) (neg : Bool) (m : Nat) (e : ℤ) (sticky : Bool) (t : FpSt) :
    (roundTo f c neg m e sticky t).2.lfsr = (t.tick c.rnd).lfsr := by
  simp only [roundTo]
  repeat' split
  all_goals rfl

section
variable {f : Fmt} {c : FpCfg} {neg : Bool} {m : Nat} {e : ℤ} {sticky : Bool} {tail a : ℝ} {t : FpSt} {n : ℤ}

/-- A nonzero value that is not flushed: n units of the spacing at it, which a mantissa with its carry can hold, and its flags. -/
theorem roundTo_units (hm : m ≠ 0) (h0 : 0 ≤ tail) (h1 : tail < 1) (hs : sticky = true ↔ tail ≠ 0)
    (big : tail ≠ 0 → 2 ^ (f.fbits + 24) ≤ m) (go : c.ftz = false ∨ f.emin ≤ e + m.log2) (ha : a = (m + tail) * 2 ^ e)
    (up : Spec.goesUp c.rnd neg (a / 2 ^ f.unit (e + m.log2)) (t.tick c.rnd).noise → n = ⌊a / 2 ^ f.unit (e + m.log2)⌋ + 1)
    (stay : ¬ Spec.goesUp c.rnd neg (a / 2 ^ f.unit (e + m.log2)) (t.tick c.rnd).noise → n = ⌊a / 2 ^ f.unit (e + m.log2)⌋) :
    ∃ (k : Nat) (inexact : Bool), n = k ∧ k ≤ 2 ^ (f.fbits + 1) ∧
      ((f.unit (e + m.log2) - (f.emin - f.fbits)).toNat ≠ 0 → 2 ^ f.fbits ≤ k) ∧
      (inexact = true ↔ (n : ℝ) * 2 ^ f.unit (e + m.log2) ≠ a) ∧
      roundTo f c neg m e sticky t =
        (f.signOf neg +
            (if f.maxBits < f.ofUnits (f.unit (e + m.log2)) k then overflowBits f c.rnd neg else f.ofUnits (f.unit (e + m.log2)) k),
          (t.tick c.rnd).raise (roundFlags inexact (decide (e + m.log2 < f.emin) && inexact)
            (decide (f.maxBits < f.ofUnits (f.unit (e + m.log2)) k)))) := by
  obtain ⟨lo, hi⟩ := exact_bounds (e := e) hm h0 h1
  rw [← ha] at lo hi
  have run := roundTo_normal (f := f) (c := c) neg sticky t hm go
  simp only [decide_eq_true_eq] at run
  have fine (h : tail ≠ 0) : e + 24 ≤ f.unit (e + m.log2) := by
    have := (Nat.le_log2 hm).mpr (big h)
    unfold Fmt.unit
    omega
  have cut := cutAt_cut m h0 h1 fine
  rw [← ha] at cut
  obtain ⟨qlt, qge⟩ := cut_mantissa cut lo hi
  have step := roundedUnits_cases c neg m e (f.unit (e + m.log2)) sticky t
  refine ⟨roundedUnits c neg m e (f.unit (e + m.log2)) sticky t, (cutAt m e (f.unit (e + m.log2))).2.1 != 0 || sticky,
    roundedUnits_eq cut hs up stay, by omega, fun h => by have := qge h; omega, ?_, run⟩
  have scale : (n : ℝ) * 2 ^ f.unit (e + m.log2) ≠ a ↔ (n : ℝ) ≠ a / 2 ^ f.unit (e + m.log2) :=
    not_congr (eq_div_iff (by positivity)).symm
  rw [scale, rounded_ne_iff (FpSt.noise_lt _) stay, Ne, cut.fract_eq_zero, Bool.or_eq_true, hs, bne_iff_ne, not_and_or]

/-- The same against the largest finite value (03 R91, R94, R95). -/
theorem roundTo_normal_spec (hf : f.Sound) (hm : m ≠ 0) (h0 : 0 ≤ tail) (h1 : tail < 1) (hs : sticky = true ↔ tail ≠ 0)
    (big : tail ≠ 0 → 2 ^ (f.fbits + 24) ≤ m) (go : c.ftz = false ∨ f.emin ≤ e + m.log2) (ha : a = (m + tail) * 2 ^ e)
    (up : Spec.goesUp c.rnd neg (a / 2 ^ f.unit (e + m.log2)) (t.tick c.rnd).noise → n = ⌊a / 2 ^ f.unit (e + m.log2)⌋ + 1)
    (stay : ¬ Spec.goesUp c.rnd neg (a / 2 ^ f.unit (e + m.log2)) (t.tick c.rnd).noise → n = ⌊a / 2 ^ f.unit (e + m.log2)⌋) :
    ((n : ℝ) * 2 ^ f.unit (e + m.log2) ≤ f.largest →
      Spec.isNum f false (roundTo f c neg m e sticky t).1 (signFactor neg * (n * 2 ^ f.unit (e + m.log2))) ∧
      (roundTo f c neg m e sticky t).1 / 2 ^ (f.ebits + f.fbits) = (if neg then 1 else 0) ∧
      Spec.raises c t (roundTo f c neg m e sticky t).2 ((n : ℝ) * 2 ^ f.unit (e + m.log2) ≠ a)
        (e + m.log2 < f.emin ∧ (n : ℝ) * 2 ^ f.unit (e + m.log2) ≠ a) False) ∧
    (f.largest < (n : ℝ) * 2 ^ f.unit (e + m.log2) →
      Spec.raises c t (roundTo f c neg m e sticky t).2 True False True ∧
      (roundTo f c neg m e sticky t).1 = f.signOf neg + overflowBits f c.rnd neg) := by
  obtain ⟨k, inexact, hn, kle, kge, hx, run⟩ := roundTo_units hm h0 h1 hs big go ha up stay
  rw [run]
  have value := magUnits_ofUnits kle kge
  have ovf := maxBits_lt_iff hf (f.ofUnits (f.unit (e + m.log2)) k)
  rw [value, ← Int.cast_natCast (R := ℝ) k, ← hn] at ovf
  rw [← Int.cast_natCast (R := ℝ) k, ← hn] at value
  obtain ⟨b4, b3, b2, b1, b0⟩ := roundFlags_bits inexact (decide (e + m.log2 < f.emin) && inexact)
    (decide (f.maxBits < f.ofUnits (f.unit (e + m.log2)) k))
  refine ⟨fun le => ?_, fun gt => ?_⟩
  · have fits : ¬ f.maxBits < f.ofUnits (f.unit (e + m.log2)) k := mt ovf.mp (not_lt.mpr le)
    have fits' := not_lt.mp fits
    rw [if_neg fits, ← value]
    refine ⟨isNum_signOf_add hf fits' neg, (fields_signOf_add (fits'.trans_lt hf.maxBits_lt) neg).1,
      raises_of_flags ?_ ?_ ?_ b1 b0⟩
    · rw [b4, decide_eq_false fits, Bool.or_false, hx, value]
    · rw [b3, Bool.and_eq_true, decide_eq_true_eq, hx, value]
    · rw [b2, decide_eq_true_eq, iff_false]; exact fits
  · have large := ovf.mpr gt
    -- a tiny value has no more units than the mantissa and its carry, and these are no overflow
    have normal : ¬ e + m.log2 < f.emin := fun tiny => by
      have zero : (f.unit (e + m.log2) - (f.emin - f.fbits)).toNat = 0 := by unfold Fmt.unit; omega
      have := hf.normal_le
      rw [Fmt.ofUnits, zero, Nat.zero_mul, Nat.add_zero] at large
      omega
    rw [if_pos large]
    refine ⟨raises_of_flags ?_ ?_ ?_ b1 b0, rfl⟩
    · rw [b4, decide_eq_true large, Bool.or_true]; exact iff_of_true rfl trivial
    · rw [b3, decide_eq_false normal]; exact iff_of_false nofun id
    · rw [b2, decide_eq_true large]; exact iff_of_true rfl trivial

/-- The exact value signFactor neg * (m + tail) * 2^e, with its tail told by sticky, is rounded once. -/
theorem roundTo_rounded (hf : f.Sound) (c : FpCfg) (neg : Bool) (t : FpSt) {z : Bool} (h0 : 0 ≤ tail) (h1 : tail < 1)
    (hs : sticky = true ↔ tail ≠ 0) (big : tail ≠ 0 → 2 ^ (f.fbits + 24) ≤ m) (hz : m = 0 → z = neg) :
    Spec.rounded f c (signFactor neg * ((m + tail) * 2 ^ e)) z t (roundTo f c neg m e sticky t) := by
  by_cases hm : m = 0
  · have ht : tail = 0 := by
      by_contra h
      exact absurd (big h) (by rw [hm, not_le]; positivity)
    rw [hm, ht, roundTo_zero, hz hm]
    exact ⟨fun _ => ⟨rfl, raises_tick c t⟩, fun h => absurd (by simp) h⟩
  obtain ⟨lo, hi⟩ := exact_bounds (e := e) hm h0 h1
  have pos : (0 : ℝ) < (m + tail) * 2 ^ e := lt_of_lt_of_le (by positivity) lo
  have habs := abs_signFactor_mul neg pos.le
  refine ⟨fun h => ?_, fun _ neg' k n hneg hk1 hk2 => ?_⟩
  · rw [h, abs_zero] at habs
    exact absurd habs pos.ne
  obtain rfl : neg' = neg := Bool.eq_iff_iff.mpr (hneg.trans (signFactor_neg_iff pos))
  rw [habs] at hk1 hk2 ⊢
  obtain rfl : e + m.log2 = k := exponent_unique lo hi hk1 hk2
  refine ⟨fun ftz tiny => ?_, fun go up stay => ?_⟩
  · rw [roundTo_flush neg' sticky t hm ftz tiny]
    exact ⟨rfl, raises_of_flags (by decide) (by decide) (by decide) rfl rfl⟩
  rw [roundTo_lfsr] at up stay
  obtain ⟨fits, overflow⟩ := roundTo_normal_spec hf hm h0 h1 hs big go rfl up stay
  refine ⟨fits, fun gt => ?_⟩
  obtain ⟨raised, pattern⟩ := overflow gt
  rw [overflowBits_eq] at pattern
  exact ⟨raised, pattern⟩

end

end Sys2Proof.Machine
end

section
/-! Float operations against the reals (03 R96 to R98). -/

open Sys2Proof Sys2Proof.Machine

namespace Sys2Proof.Machine

/-! Decoding a pattern (03 R87 to R89). -/

/-- The value of a sign, a mantissa and an exponent. -/
noncomputable def finVal (neg : Bool) (m : Nat) (e : ℤ) : ℝ := signFactor neg * (m * 2 ^ e)

/-- Sign of a pattern. -/
def Fmt.negOf (f : Fmt) (x : Nat) : Bool := x / f.signBit % 2 == 1

/-- A pattern stands for a number when it decodes to it. -/
theorem isNum_iff {f : Fmt} {ftz : Bool} {x : Nat} {v : ℝ} :
    Spec.isNum f ftz x v ↔ ∃ m e, f.decode ftz x = .fin (f.negOf x) m e ∧ v = finVal (f.negOf x) m e := by
  have sign : (if x / 2 ^ (f.ebits + f.fbits) % 2 = 1 then (-1 : ℝ) else 1) = signFactor (f.negOf x) := by
    simp [signFactor, Fmt.negOf, Fmt.signBit]
  unfold Spec.isNum Fmt.decode
  rw [sign]
  dsimp only
  by_cases hi : f.kind = .ieee ∧ x / 2 ^ f.fbits % 2 ^ f.ebits = 2 ^ f.ebits - 1
  · rw [if_pos hi]
    refine iff_of_false (fun h => h.1 hi) ?_
    rintro ⟨m, e, h, -⟩
    split at h <;> cases h
  by_cases h4 : f.kind = .e4m3 ∧ x / 2 ^ f.fbits % 2 ^ f.ebits = 15 ∧ x % 2 ^ f.fbits = 7
  · rw [if_neg hi, if_pos h4]
    refine iff_of_false (fun h => h.2.1 h4) ?_
    rintro ⟨m, e, h, -⟩
    cases h
  rw [if_neg hi, if_neg h4]
  simp only [hi, h4, not_false_eq_true, true_and]
  by_cases he : x / 2 ^ f.fbits % 2 ^ f.ebits = 0
  · simp only [if_pos he, FVal.fin.injEq, Fmt.negOf, true_and]
    constructor
    · rintro rfl
      refine ⟨_, _, ⟨rfl, rfl⟩, ?_⟩
      cases ftz <;> simp [finVal, Fmt.emin]
    · rintro ⟨m, e, ⟨rfl, rfl⟩, rfl⟩
      cases ftz <;> simp [finVal, Fmt.emin]
  · simp only [if_neg he, FVal.fin.injEq, Fmt.negOf, true_and]
    constructor
    · rintro rfl
      refine ⟨_, _, ⟨rfl, rfl⟩, ?_⟩
      rw [finVal]; push_cast; ring
    · rintro ⟨m, e, ⟨rfl, rfl⟩, rfl⟩
      rw [finVal]; push_cast; ring

/-- A mantissa has its format's bits and the hidden one. -/
theorem decode_mantissa_lt {f : Fmt} {ftz : Bool} {x : Nat} {n : Bool} {m : Nat} {e : ℤ} (h : f.decode ftz x = .fin n m e) :
    m < 2 ^ (f.fbits + 1) := by
  have lt : x % 2 ^ f.fbits < 2 ^ f.fbits := Nat.mod_lt _ (by positivity)
  unfold Fmt.decode at h
  dsimp only at h
  rw [pow_succ]
  split at h
  · split at h <;> cases h
  split at h
  · cases h
  split at h <;> cases h
  · split <;> omega
  · omega

/-- A NaN decodes to one, signalling or not. -/
theorem decode_of_isNan {f : Fmt} (hf : f.Sound) (hfb : 1 ≤ f.fbits) (ftz : Bool) {x : Nat} (h : Spec.isNan f x) :
    f.decode ftz x = .nan (decide (Spec.isSnan f x)) := by
  have quiet : x % 2 ^ f.fbits / 2 ^ (f.fbits - 1) % 2 = x / 2 ^ (f.fbits - 1) % 2 := by
    obtain ⟨b, hb⟩ := Nat.exists_eq_add_of_le' hfb
    rw [hb, Nat.add_sub_cancel, pow_succ, Nat.mod_mul_right_div_self, Nat.mod_mod]
  unfold Fmt.decode
  dsimp only
  rcases (hf.isNan_iff x).mp h with ⟨hk, he, hm⟩ | ⟨hk, he, hm⟩
  · rw [if_pos ⟨hk, he⟩, if_neg hm, quiet]
    congr 1
    rw [Bool.eq_iff_iff, beq_iff_eq, decide_eq_true_eq]
    exact ⟨fun q => ⟨hk, h, q⟩, fun s => s.2.2⟩
  · have ne : f.kind ≠ .ieee := by rw [hk]; decide
    rw [if_neg (fun i => ne i.1), if_pos ⟨hk, he, hm⟩]
    congr 1
    exact (decide_eq_false fun s => ne s.1).symm

theorem decode_of_isInf {f : Fmt} (ftz : Bool) {x : Nat} (h : Spec.isInf f x) : f.decode ftz x = .inf (f.negOf x) := by
  obtain ⟨hk, he, hm⟩ := h
  unfold Fmt.decode
  dsimp only
  rw [if_pos ⟨hk, he⟩, if_pos hm]
  rfl

/-- The sign of a pattern of a format's width is its top bit. -/
theorem negOf_eq {f : Fmt} {x : Nat} (h : x < 2 ^ f.width) : f.negOf x = decide (2 ^ (f.width - 1) ≤ x) := by
  have w : f.width = f.ebits + f.fbits + 1 := by unfold Fmt.width; omega
  rw [w, pow_succ] at h
  rw [w, Nat.add_sub_cancel, Fmt.negOf, Fmt.signBit, Bool.eq_iff_iff, beq_iff_eq, decide_eq_true_eq]
  have pos : 0 < 2 ^ (f.ebits + f.fbits) := by positivity
  rcases Nat.lt_or_ge x (2 ^ (f.ebits + f.fbits)) with lt | ge
  · rw [Nat.div_eq_of_lt lt]; omega
  · have one : x / 2 ^ (f.ebits + f.fbits) = 1 := Nat.div_eq_of_lt_le (by omega) (by omega)
    rw [one]
    omega

/-! Exact results, rounded once. -/

section
variable {f : Fmt} (hf : f.Sound) (c : FpCfg) (t : FpSt)
include hf

theorem roundTo_exact (neg : Bool) (m : Nat) (e : ℤ) {z : Bool} (hz : m = 0 → z = neg) :
    Spec.rounded f c (finVal neg m e) z t (roundTo f c neg m e false t) := by
  have h := roundTo_rounded (tail := 0) (e := e) (sticky := false) hf c neg t le_rfl one_pos (by simp) (fun h => absurd rfl h) hz
  rwa [add_zero] at h

end

/-- Sign of an exact zero sum of p and q (03 R97). -/
def zeroSign (c : FpCfg) (p q : Bool) : Bool := if p = q then p else c.rnd == 2

theorem finVal_eq_zero {n : Bool} {m : Nat} {e : ℤ} : finVal n m e = 0 ↔ m = 0 := by
  cases n <;> simp [finVal, signFactor, zpow_ne_zero]

theorem finVal_nonneg {n : Bool} {m : Nat} {e : ℤ} : 0 ≤ finVal n m e ↔ n = false ∨ m = 0 := by
  have pos : (0 : ℝ) < 2 ^ e := by positivity
  have nn : (0 : ℝ) ≤ m * 2 ^ e := by positivity
  cases n
  · simpa [finVal, signFactor] using nn
  · simp only [finVal, signFactor, if_true, neg_one_mul, Left.nonneg_neg_iff, reduceCtorEq, false_or]
    constructor
    · intro h
      have := le_antisymm h nn
      simpa [pos.ne'] using this
    · rintro rfl; simp

theorem finVal_neg (n : Bool) (m : Nat) (e : ℤ) : finVal (!n) m e = -finVal n m e := by
  cases n <;> simp [finVal, signFactor]

theorem finVal_mul (na nb : Bool) (ma mb : Nat) (ea eb : ℤ) :
    finVal na ma ea * finVal nb mb eb = finVal (na != nb) (ma * mb) (ea + eb) := by
  have two : (2 : ℝ) ≠ 0 := two_ne_zero
  simp only [finVal, zpow_add₀ two]
  push_cast
  cases na <;> cases nb <;> simp [signFactor] <;> ring

/-- A value as a whole number of units of a lower exponent j. -/
def unitsAt (n : Bool) (m : Nat) (e j : ℤ) : ℤ :=
  if n then -((m * 2 ^ (e - j).toNat : Nat) : ℤ) else ((m * 2 ^ (e - j).toNat : Nat) : ℤ)

theorem finVal_eq_unitsAt (n : Bool) (m : Nat) {e j : ℤ} (h : j ≤ e) : finVal n m e = unitsAt n m e j * 2 ^ j := by
  obtain ⟨d, hd⟩ := Int.eq_ofNat_of_zero_le (sub_nonneg.mpr h)
  have e' : e = d + j := by omega
  rw [unitsAt, hd, Int.toNat_natCast, e', finVal, zpow_add₀ two_ne_zero, zpow_natCast]
  cases n <;> simp [signFactor] <;> ring

theorem addExact_eq (rnd : Nat) (na nb : Bool) (ma mb : Nat) (ea eb : ℤ) :
    addExact rnd na ma ea nb mb eb =
      (if unitsAt na ma ea (min ea eb) + unitsAt nb mb eb (min ea eb) = 0 then (if na == nb then na else rnd == 2, 0, min ea eb)
       else (decide (unitsAt na ma ea (min ea eb) + unitsAt nb mb eb (min ea eb) < 0),
         (unitsAt na ma ea (min ea eb) + unitsAt nb mb eb (min ea eb)).natAbs, min ea eb)) := rfl

/-- The sum of two values is exact. -/
theorem addExact_value (rnd : Nat) (na nb : Bool) (ma mb : Nat) (ea eb : ℤ) :
    finVal (addExact rnd na ma ea nb mb eb).1 (addExact rnd na ma ea nb mb eb).2.1 (addExact rnd na ma ea nb mb eb).2.2 =
      finVal na ma ea + finVal nb mb eb := by
  rw [finVal_eq_unitsAt na ma (min_le_left ea eb), finVal_eq_unitsAt nb mb (min_le_right ea eb), ← add_mul, ← Int.cast_add, addExact_eq]
  generalize unitsAt na ma ea (min ea eb) + unitsAt nb mb eb (min ea eb) = x
  by_cases hx : x = 0
  · simp [hx, finVal]
  · rw [if_neg hx]
    rcases lt_or_ge x 0 with lt | ge
    · have : (x.natAbs : ℝ) = -x := by rw [Nat.cast_natAbs, abs_of_neg lt]; push_cast; rfl
      simp [finVal, signFactor, lt, this]
    · have : (x.natAbs : ℝ) = x := by rw [Nat.cast_natAbs, abs_of_nonneg ge]
      simp [finVal, signFactor, not_lt.mpr ge, this]

/-- Its sign where it is zero (03 R97). -/
theorem addExact_zero {c : FpCfg} {na nb : Bool} {ma mb : Nat} {ea eb : ℤ} (h : (addExact c.rnd na ma ea nb mb eb).2.1 = 0) :
    zeroSign c na nb = (addExact c.rnd na ma ea nb mb eb).1 := by
  rw [addExact_eq] at h ⊢
  split
  · simp [zeroSign]
  · rw [if_neg ‹_›] at h
    exact absurd (Int.natAbs_eq_zero.mp h) ‹_›

/-! The operations on finite inputs (03 R97). -/

section
variable {f : Fmt} (hf : f.Sound) {c : FpCfg} {a b d : Nat} {na nb nd : Bool} {ma mb md : Nat} {ea eb ed : ℤ} (t : FpSt)

theorem addVals_fin : addVals f c (.fin na ma ea) (.fin nb mb eb) t =
    roundTo f c (addExact c.rnd na ma ea nb mb eb).1 (addExact c.rnd na ma ea nb mb eb).2.1
      (addExact c.rnd na ma ea nb mb eb).2.2 false t := rfl

theorem fpSqrt_zero (hb : f.decode c.ftz b = .fin nb 0 eb) : fpSqrt f c b t = roundTo f c nb 0 0 false t := by
  rw [fpSqrt, hb]
  rfl

/-- The integer whose root gives a square root's bits. -/
def sqrtArg (m : Nat) (e : ℤ) : Nat := m * 2 ^ ((e % 2).toNat + 2 * divBits)

theorem fpSqrt_pos (hb : f.decode c.ftz b = .fin false mb eb) (h : mb ≠ 0) : fpSqrt f c b t =
    roundTo f c false (Nat.sqrt (sqrtArg mb eb)) ((eb - (eb % 2).toNat) / 2 - divBits)
      (Nat.sqrt (sqrtArg mb eb) * Nat.sqrt (sqrtArg mb eb) != sqrtArg mb eb) t := by
  rw [fpSqrt, hb]
  exact (if_neg h).trans (if_neg Bool.false_ne_true)

theorem sqrt_tail_eq_zero (x : Nat) : Real.sqrt x - Nat.sqrt x = 0 ↔ Nat.sqrt x * Nat.sqrt x = x := by
  rw [sub_eq_zero, Real.sqrt_eq_iff_mul_self_eq (Nat.cast_nonneg x) (Nat.cast_nonneg _)]
  norm_cast
  exact eq_comm

theorem finVal_eq_sqrtArg (m : Nat) (e : ℤ) :
    finVal false m e = sqrtArg m e * ((2 : ℝ) ^ ((e - (e % 2).toNat) / 2 - divBits : ℤ)) ^ 2 := by
  have exponent : e = ((e % 2).toNat + 2 * divBits : Nat) + ((e - (e % 2).toNat) / 2 - divBits) * (2 : Nat) := by
    generalize divBits = k
    push_cast
    omega
  rw [← zpow_natCast, ← zpow_mul, sqrtArg, finVal]
  push_cast
  rw [mul_assoc, ← zpow_natCast, ← zpow_add₀ two_ne_zero]
  conv_lhs => rw [exponent]
  simp [signFactor]

include hf

theorem addVals_rounded : Spec.rounded f c (finVal na ma ea + finVal nb mb eb) (zeroSign c na nb) t
    (addVals f c (.fin na ma ea) (.fin nb mb eb) t) := by
  rw [addVals_fin, ← addExact_value c.rnd]
  exact roundTo_exact hf c t _ _ _ addExact_zero

theorem fpAdd_rounded (ha : f.decode c.ftz a = .fin na ma ea) (hb : f.decode c.ftz b = .fin nb mb eb) :
    Spec.rounded f c (finVal na ma ea + finVal nb mb eb) (zeroSign c na nb) t (fpAdd f c a b t) := by
  rw [fpAdd, ha, hb]
  exact addVals_rounded hf t

theorem fpSub_rounded (ha : f.decode c.ftz a = .fin na ma ea) (hb : f.decode c.ftz b = .fin nb mb eb) :
    Spec.rounded f c (finVal na ma ea - finVal nb mb eb) (zeroSign c na !nb) t (fpSub f c a b t) := by
  rw [fpSub, ha, hb, sub_eq_add_neg, ← finVal_neg]
  exact addVals_rounded hf t

theorem fpMul_rounded (ha : f.decode c.ftz a = .fin na ma ea) (hb : f.decode c.ftz b = .fin nb mb eb) :
    Spec.rounded f c (finVal na ma ea * finVal nb mb eb) (na != nb) t (fpMul f c a b t) := by
  rw [fpMul, ha, hb, finVal_mul]
  exact roundTo_exact hf c t _ _ _ fun _ => rfl

/-- The FMA family rounds the exact sum of the product and the addend, each with its sign turned or not (08 R289). -/
theorem fpFma_rounded (negP negD : Bool) (ha : f.decode c.ftz a = .fin na ma ea) (hb : f.decode c.ftz b = .fin nb mb eb)
    (hd : f.decode c.ftz d = .fin nd md ed) :
    Spec.rounded f c (finVal ((na != nb) != negP) (ma * mb) (ea + eb) + finVal (nd != negD) md ed)
      (zeroSign c ((na != nb) != negP) (nd != negD)) t (fpFma f c negP negD a b d t) := by
  have run : fpFma f c negP negD a b d t = addVals f c (.fin ((na != nb) != negP) (ma * mb) (ea + eb)) (.fin (nd != negD) md ed) t := by
    rw [fpFma, ha, hb, hd]
    cases negD <;> simp [FVal.negate, nanOf, FVal.neg, addVals]
  rw [run]
  exact addVals_rounded hf t

/-- A quotient is one of natural numbers with a tail below 1 (03 R92). -/
theorem fpDiv_rounded (hfb : f.fbits ≤ 23) (ha : f.decode c.ftz a = .fin na ma ea)
    (hb : f.decode c.ftz b = .fin nb mb eb) (h : mb ≠ 0) :
    Spec.rounded f c (finVal na ma ea / finVal nb mb eb) (na != nb) t (fpDiv f c a b t) := by
  have run : fpDiv f c a b t = roundTo f c (na != nb) (ma * 2 ^ divBits / mb) (ea - eb - divBits) (ma * 2 ^ divBits % mb != 0) t := by
    simp [fpDiv, ha, hb, nanOf, h]
  have pos : (0 : ℝ) < mb := by exact_mod_cast Nat.pos_of_ne_zero h
  have value : finVal na ma ea / finVal nb mb eb =
      signFactor (na != nb) * (((ma * 2 ^ divBits / mb : Nat) + ((ma * 2 ^ divBits % mb : Nat) : ℝ) / mb) * 2 ^ (ea - eb - divBits)) := by
    have split : ((ma * 2 ^ divBits / mb : Nat) : ℝ) + ((ma * 2 ^ divBits % mb : Nat) : ℝ) / mb = ma * 2 ^ divBits / mb := by
      rw [eq_div_iff pos.ne', add_mul, div_mul_cancel₀ _ pos.ne']
      exact_mod_cast Nat.div_add_mod' (ma * 2 ^ divBits) mb
    rw [split, zpow_sub₀ two_ne_zero, zpow_sub₀ two_ne_zero, zpow_natCast]
    unfold finVal
    cases na <;> cases nb <;> simp [signFactor] <;> field_simp
  rw [run, value]
  have lt : ((ma * 2 ^ divBits % mb : Nat) : ℝ) < mb := by exact_mod_cast Nat.mod_lt _ (Nat.pos_of_ne_zero h)
  refine roundTo_rounded hf c _ t (by positivity) ((div_lt_one pos).mpr lt) ?_ (fun tail => ?_) (fun _ => rfl)
  · rw [bne_iff_ne, Ne, Ne, div_eq_zero_iff, or_iff_left pos.ne', Nat.cast_eq_zero]
  · have hma : ma ≠ 0 := by rintro rfl; simp at tail
    have small : mb < 2 ^ (f.fbits + 1) := decode_mantissa_lt hb
    rw [Nat.le_div_iff_mul_le (Nat.pos_of_ne_zero h)]
    calc 2 ^ (f.fbits + 24) * mb ≤ 2 ^ (f.fbits + 24) * 2 ^ (f.fbits + 1) := Nat.mul_le_mul_left _ small.le
      _ = 2 ^ (f.fbits + 24 + (f.fbits + 1)) := (pow_add ..).symm
      _ ≤ 2 ^ divBits := Nat.pow_le_pow_right (by decide) (by unfold divBits; omega)
      _ ≤ ma * 2 ^ divBits := Nat.le_mul_of_pos_left _ (Nat.pos_of_ne_zero hma)

/-- A square root is that of a natural number, with a tail below 1. -/
theorem fpSqrt_rounded (hfb : f.fbits ≤ 23) (hb : f.decode c.ftz b = .fin nb mb eb) (h : nb = false ∨ mb = 0) :
    Spec.rounded f c (Real.sqrt (finVal nb mb eb)) nb t (fpSqrt f c b t) := by
  by_cases hm : mb = 0
  · subst hm
    have zero : Real.sqrt (finVal nb 0 eb) = finVal nb 0 0 := by simp [finVal]
    rw [fpSqrt_zero t hb, zero]
    exact roundTo_exact hf c t _ _ _ fun _ => rfl
  obtain rfl := h.resolve_right hm
  generalize hx : sqrtArg mb eb = x
  have root (k : ℤ) : Real.sqrt (x * ((2 : ℝ) ^ k) ^ 2) = signFactor false * ((Nat.sqrt x + (Real.sqrt x - Nat.sqrt x)) * 2 ^ k) := by
    rw [Real.sqrt_mul (Nat.cast_nonneg x), Real.sqrt_sq (zpow_nonneg zero_le_two _)]
    simp [signFactor]
  rw [fpSqrt_pos t hb hm, finVal_eq_sqrtArg, hx, root]
  have lo := Real.nat_sqrt_le_real_sqrt (a := x)
  have hi := Real.real_sqrt_lt_nat_sqrt_succ (a := x)
  refine roundTo_rounded hf c _ t (by linarith) (by linarith) ?_ (fun _ => ?_) (fun _ => rfl)
  · rw [bne_iff_ne]
    exact not_congr (sqrt_tail_eq_zero x).symm
  · rw [Nat.le_sqrt, ← pow_add, ← hx]
    calc 2 ^ (f.fbits + 24 + (f.fbits + 24)) ≤ 2 ^ ((eb % 2).toNat + 2 * divBits) :=
          Nat.pow_le_pow_right (by decide) (by unfold divBits; omega)
      _ ≤ sqrtArg mb eb := Nat.le_mul_of_pos_left _ (Nat.pos_of_ne_zero hm)

end

/-! Order of values: compares, min and max (03 R97). -/

/-- The order of two finite values is that of the reals. -/
theorem lt_fin_iff {na nb : Bool} {ma mb : Nat} {ea eb : ℤ} :
    (FVal.fin na ma ea).lt (.fin nb mb eb) = true ↔ finVal na ma ea < finVal nb mb eb := by
  have run : (FVal.fin na ma ea).lt (.fin nb mb eb) = decide (unitsAt na ma ea (min ea eb) < unitsAt nb mb eb (min ea eb)) := rfl
  rw [run, decide_eq_true_eq, finVal_eq_unitsAt na ma (min_le_left ea eb), finVal_eq_unitsAt nb mb (min_le_right ea eb),
    mul_lt_mul_iff_left₀ (by positivity), Int.cast_lt]

section
variable {f : Fmt} {ftz : Bool} {a : Nat}

/-- A zero of either sign (03 R87). -/
theorem isNum_zero (hf : f.Sound) (ftz : Bool) (n : Bool) : Spec.isNum f ftz (f.signOf n) 0 := by
  have fits : 0 < f.signBit := by unfold Fmt.signBit; positivity
  obtain ⟨-, he, hm⟩ := fields_signOf_add fits n
  obtain ⟨h1, h2⟩ := hf.finite 0 (Nat.zero_le _)
  rw [Nat.add_zero] at he hm
  unfold Spec.isNum
  rw [he, hm]
  refine ⟨h1, h2, ?_⟩
  cases ftz <;> simp

/-- A number read under FTZ stands for the value that it has there (03 R89). -/
theorem isNum_readBits (hf : f.Sound) (ha : a < 2 ^ f.width) {x : ℝ} (h : Spec.isNum f ftz a x) :
    Spec.isNum f ftz (readBits f ftz a) x := by
  obtain ⟨m, e, hd, hx⟩ := isNum_iff.mp h
  unfold readBits
  rw [hd]
  cases m with
  | zero =>
    rw [hx, finVal_eq_zero.mpr rfl]
    exact isNum_zero hf ftz _
  | succ m => rwa [Nat.mod_eq_of_lt ha]

end

section
variable {f : Fmt} {c : FpCfg} {a b : Nat} {x y : ℝ}

/-- Whether min takes the first of two values: the lesser, and of two zeros the negative one. -/
def FVal.before (u v : FVal) : Bool := u.lt v || (!(v.lt u) && u.neg && !v.neg)

theorem le_of_before {na nb : Bool} {ma mb : Nat} {ea eb : ℤ} (h : (FVal.fin na ma ea).before (.fin nb mb eb) = true) :
    finVal na ma ea ≤ finVal nb mb eb := by
  simp only [FVal.before, Bool.or_eq_true, Bool.and_eq_true, Bool.not_eq_true', ← Bool.not_eq_true, lt_fin_iff] at h
  rcases h with lt | ⟨⟨ge, -⟩, -⟩
  · exact lt.le
  · exact not_lt.mp ge

theorem ge_of_not_before {na nb : Bool} {ma mb : Nat} {ea eb : ℤ} (h : (FVal.fin na ma ea).before (.fin nb mb eb) = false) :
    finVal nb mb eb ≤ finVal na ma ea := by
  rw [FVal.before, Bool.or_eq_false_iff, ← Bool.not_eq_true, lt_fin_iff] at h
  exact not_lt.mp h.1

theorem fpMinMax_fin {na nb : Bool} {ma mb : Nat} {ea eb : ℤ} (mx : Bool) (t : FpSt) (ha : f.decode c.ftz a = .fin na ma ea)
    (hb : f.decode c.ftz b = .fin nb mb eb) :
    fpMinMax mx f c a b t = (readBits f c.ftz (if ((FVal.fin na ma ea).before (.fin nb mb eb)) != mx then a else b), t) := by
  rw [fpMinMax, ha, hb]
  rfl

/-- The least of two numbers, or the greatest. -/
theorem fpMinMax_isNum (hf : f.Sound) (mx : Bool) (t : FpSt) (ha : a < 2 ^ f.width) (hb : b < 2 ^ f.width)
    (hx : Spec.isNum f c.ftz a x) (hy : Spec.isNum f c.ftz b y) :
    Spec.isNum f c.ftz (fpMinMax mx f c a b t).1 (if mx then max x y else min x y) ∧ (fpMinMax mx f c a b t).2 = t := by
  obtain ⟨ma, ea, da, vx⟩ := isNum_iff.mp hx
  obtain ⟨mb, eb, db, vy⟩ := isNum_iff.mp hy
  rw [fpMinMax_fin mx t da db]
  refine ⟨?_, rfl⟩
  cases less : (FVal.fin (f.negOf a) ma ea).before (.fin (f.negOf b) mb eb)
  · have ge : y ≤ x := by rw [vx, vy]; exact ge_of_not_before less
    cases mx
    · simpa [ge] using isNum_readBits hf hb hy
    · simpa [ge] using isNum_readBits hf ha hx
  · have le : x ≤ y := by rw [vx, vy]; exact le_of_before less
    cases mx
    · simpa [le] using isNum_readBits hf ha hx
    · simpa [le] using isNum_readBits hf hb hy

end

section
variable {c : FpCfg} {a b : Nat} {x y : ℝ}

/-- The outcome of a compare on an order (08 R291). -/
def comparesAs (op : FcmpOp) (lt gt : Bool) : Bool :=
  match op with
  | .feq => !lt && !gt | .fne => lt || gt | .flt => lt | .fle => !gt | .fgt => gt | .fge => !lt

theorem fpCompare_fin {na nb : Bool} {ma mb : Nat} {ea eb : ℤ} (op : FcmpOp) (t : FpSt) (ha : f32.decode c.ftz a = .fin na ma ea)
    (hb : f32.decode c.ftz b = .fin nb mb eb) : fpCompare op c a b t =
      (comparesAs op ((FVal.fin na ma ea).lt (.fin nb mb eb)) ((FVal.fin nb mb eb).lt (.fin na ma ea)), t) := by
  rw [fpCompare, ha, hb]
  cases op <;> rfl

/-- A compare of two numbers orders them as reals and leaves the state. -/
theorem fpCompare_isNum (t : FpSt) (hx : Spec.isNum f32 c.ftz a x) (hy : Spec.isNum f32 c.ftz b y) :
    (∀ op, (fpCompare op c a b t).2 = t) ∧ ((fpCompare .feq c a b t).1 = true ↔ x = y) ∧
    ((fpCompare .fne c a b t).1 = true ↔ x ≠ y) ∧
    ((fpCompare .flt c a b t).1 = true ↔ x < y) ∧ ((fpCompare .fle c a b t).1 = true ↔ x ≤ y) ∧
    ((fpCompare .fgt c a b t).1 = true ↔ y < x) ∧ ((fpCompare .fge c a b t).1 = true ↔ y ≤ x) := by
  obtain ⟨ma, ea, da, rfl⟩ := isNum_iff.mp hx
  obtain ⟨mb, eb, db, rfl⟩ := isNum_iff.mp hy
  have run (op : FcmpOp) := fpCompare_fin op t da db
  refine ⟨fun op => by rw [run], ?_, ?_, ?_, ?_, ?_, ?_⟩ <;>
    rw [run] <;> simp only [comparesAs, Bool.and_eq_true, Bool.or_eq_true, Bool.not_eq_true', ← Bool.not_eq_true, lt_fin_iff, not_lt]
  · exact ⟨fun h => le_antisymm h.2 h.1, fun h => ⟨h.ge, h.le⟩⟩
  · exact ne_iff_lt_or_gt.symm

end

/-! NaNs, infinities and the invalid cases (03 R96, R97). -/

def FVal.isNan : FVal → Bool
  | .nan _ => true
  | _ => false

/-- A signalling NaN. -/
def FVal.isSnan : FVal → Bool
  | .nan q => q
  | _ => false

theorem isNan_negate (v : FVal) : v.negate.isNan = v.isNan := by cases v <;> rfl
theorem isSnan_negate (v : FVal) : v.negate.isSnan = v.isSnan := by cases v <;> rfl

theorem nanOf_pair_eq (f : Fmt) (u v : FVal) (t : FpSt) : nanOf f [u, v] t =
    if u.isNan || v.isNan then some (f.nan, if u.isSnan || v.isSnan then t.raise flagNV else t) else none := by
  rcases u with (_ | _) | _ | _ <;> rcases v with (_ | _) | _ | _ <;> rfl

section
variable {f : Fmt} {c : FpCfg} {a b : Nat} {x y : ℝ}

theorem fpAdd_inf_inf (t : FpSt) (ha : Spec.isInf f a) (hb : Spec.isInf f b) :
    fpAdd f c a b t = if f.negOf a = f.negOf b then (infOf f (f.negOf a), t) else invalid f t := by
  rw [fpAdd, decode_of_isInf _ ha, decode_of_isInf _ hb]
  simp [addVals, nanOf]

theorem fpMul_inf_zero (t : FpSt) (ha : Spec.isInf f a) (hb : Spec.isNum f c.ftz b 0) : fpMul f c a b t = invalid f t := by
  obtain ⟨m, e, hd, hv⟩ := isNum_iff.mp hb
  obtain rfl := finVal_eq_zero.mp hv.symm
  simp [fpMul, decode_of_isInf _ ha, hd, nanOf]

/-- Division by zero, with DZ, and of zero by zero (03 R97). -/
theorem fpDiv_zero (t : FpSt) (ha : Spec.isNum f c.ftz a x) (hb : Spec.isNum f c.ftz b 0) :
    fpDiv f c a b t = if x = 0 then invalid f t else (infOf f (f.negOf a != f.negOf b), t.raise flagDZ) := by
  obtain ⟨ma, ea, da, va⟩ := isNum_iff.mp ha
  obtain ⟨mb, eb, db, vb⟩ := isNum_iff.mp hb
  obtain rfl := finVal_eq_zero.mp vb.symm
  simp [fpDiv, da, db, nanOf, va, finVal_eq_zero]

theorem fpSqrt_neg (t : FpSt) (hb : Spec.isNum f c.ftz b y) (h : y < 0) : fpSqrt f c b t = invalid f t := by
  obtain ⟨m, e, d, rfl⟩ := isNum_iff.mp hb
  have neg : ¬ (f.negOf b = false ∨ m = 0) := fun n => h.not_ge (finVal_nonneg.mpr n)
  push Not at neg
  simp [fpSqrt, d, nanOf, neg.2, neg.1]

variable (hf : f.Sound)
include hf

theorem invalid_eq (t : FpSt) : invalid f t = (Spec.nan f, { t with flags := t.flags ||| 1 }) := by
  rw [invalid, hf.nan]
  rfl

/-- A pattern that is not a NaN decodes to none. -/
theorem decode_ne_nan (ftz : Bool) (h : ¬ Spec.isNan f a) (q : Bool) : f.decode ftz a ≠ .nan q := by
  rw [hf.isNan_iff] at h
  push Not at h
  unfold Fmt.decode
  dsimp only
  split
  · rename_i hi
    split
    · nofun
    · exact fun _ => absurd (h.1 hi.1 hi.2) (by assumption)
  · split
    · rename_i h4
      exact fun _ => h.2 h4.1 h4.2.1 h4.2.2
    · split <;> nofun

theorem decode_isNan (hfb : 1 ≤ f.fbits) (ftz : Bool) : (f.decode ftz a).isNan = true ↔ Spec.isNan f a := by
  by_cases h : Spec.isNan f a
  · rw [decode_of_isNan hf hfb ftz h]
    exact iff_of_true rfl h
  · have other := decode_ne_nan hf ftz h
    revert other
    cases f.decode ftz a with
    | nan q => exact fun other => absurd rfl (other q)
    | inf n => exact fun _ => iff_of_false nofun h
    | fin n m e => exact fun _ => iff_of_false nofun h

theorem decode_isSnan (hfb : 1 ≤ f.fbits) (ftz : Bool) : (f.decode ftz a).isSnan = true ↔ Spec.isSnan f a := by
  by_cases h : Spec.isNan f a
  · rw [decode_of_isNan hf hfb ftz h]
    exact decide_eq_true_iff
  · have other := decode_ne_nan hf ftz h
    have quiet : ¬ Spec.isSnan f a := fun s => h s.2.1
    revert other
    cases f.decode ftz a with
    | nan q => exact fun other => absurd rfl (other q)
    | inf n => exact fun _ => iff_of_false nofun quiet
    | fin n m e => exact fun _ => iff_of_false nofun quiet

/-- A NaN among two inputs gives the canonical NaN, with NV for a signalling one. -/
theorem nanOf_pair (hfb : 1 ≤ f.fbits) (t : FpSt) {u v : FVal} (hu : u = f.decode c.ftz a)
    (hv : v = f.decode c.ftz b ∨ v = (f.decode c.ftz b).negate) (h : Spec.isNan f a ∨ Spec.isNan f b) :
    nanOf f [u, v] t = some (Spec.nan f, if Spec.isSnan f a ∨ Spec.isSnan f b then { t with flags := t.flags ||| 1 } else t) := by
  have nu := decode_isNan hf hfb c.ftz (a := a)
  have su := decode_isSnan hf hfb c.ftz (a := a)
  have nv : v.isNan = true ↔ Spec.isNan f b := by
    rw [← decode_isNan hf hfb c.ftz]
    rcases hv with rfl | rfl
    · rfl
    · rw [isNan_negate]
  have sv : v.isSnan = true ↔ Spec.isSnan f b := by
    rw [← decode_isSnan hf hfb c.ftz]
    rcases hv with rfl | rfl
    · rfl
    · rw [isSnan_negate]
  rw [← hu] at nu su
  rw [nanOf_pair_eq, if_pos (by rw [Bool.or_eq_true, nu, nv]; exact h), hf.nan]
  simp only [Bool.or_eq_true, su, sv]
  rfl

/-- Sum, difference, product and quotient of a NaN. -/
theorem fop_of_isNan (hfb : 1 ≤ f.fbits) (t : FpSt) {op : FopOp} (hop : op ∈ [FopOp.fadd, .fsub, .fmul, .fdiv])
    (h : Spec.isNan f a ∨ Spec.isNan f b) : fopElem op f c a b t =
      (Spec.nan f, if Spec.isSnan f a ∨ Spec.isSnan f b then { t with flags := t.flags ||| 1 } else t) := by
  have plain := nanOf_pair (c := c) hf hfb t rfl (.inl rfl) h
  have turned := nanOf_pair (c := c) hf hfb t rfl (.inr rfl) h
  simp only [List.mem_cons, List.not_mem_nil, or_false] at hop
  rcases hop with rfl | rfl | rfl | rfl
  · simp only [fopElem, fpAdd, addVals, plain]
  · simp only [fopElem, fpSub, addVals, turned]
  · simp only [fopElem, fpMul, plain]
  · simp only [fopElem, fpDiv, plain]

end

/-! Float arithmetic of the V and S instructions (03 R90 to R97). -/

theorem fopFormat_sound {f : Fmt} (h : f ∈ [f32, f16, bf16]) : f.Sound ∧ 1 ≤ f.fbits ∧ f.fbits ≤ 23 := by
  simp only [List.mem_cons, List.not_mem_nil, or_false] at h
  rcases h with rfl | rfl | rfl
  · exact ⟨sound_of_mem (by simp), by decide, by decide⟩
  · exact ⟨sound_of_mem (by simp), by decide, by decide⟩
  · exact ⟨sound_of_mem (by simp), by decide, by decide⟩

theorem infOf_eq (f : Fmt) (neg : Bool) :
    infOf f neg = (if neg then 2 ^ (f.width - 1) else 0) + (2 ^ f.ebits - 1) * 2 ^ f.fbits := by
  rw [show f.width - 1 = f.ebits + f.fbits by unfold Fmt.width; omega]
  rfl

section
variable {f : Fmt} {c : FpCfg} {a b d : Nat} {x y z : ℝ} (hf : f.Sound) (t : FpSt)
include hf

/-- Sum, difference, product, quotient and root of two numbers. -/
theorem fopElem_rounded (hfb : f.fbits ≤ 23) (hx : Spec.isNum f c.ftz a x) (hy : Spec.isNum f c.ftz b y) :
    Spec.rounded f c (x + y) (zeroSign c (f.negOf a) (f.negOf b)) t (fopElem .fadd f c a b t) ∧
    Spec.rounded f c (x - y) (zeroSign c (f.negOf a) !f.negOf b) t (fopElem .fsub f c a b t) ∧
    Spec.rounded f c (x * y) (f.negOf a != f.negOf b) t (fopElem .fmul f c a b t) ∧
    (y ≠ 0 → Spec.rounded f c (x / y) (f.negOf a != f.negOf b) t (fopElem .fdiv f c a b t)) ∧
    (0 ≤ y → Spec.rounded f c (Real.sqrt y) (f.negOf b) t (fopElem .fsqrt f c a b t)) := by
  obtain ⟨ma, ea, da, rfl⟩ := isNum_iff.mp hx
  obtain ⟨mb, eb, db, rfl⟩ := isNum_iff.mp hy
  refine ⟨fpAdd_rounded hf t da db, fpSub_rounded hf t da db, fpMul_rounded hf t da db, fun h => ?_, fun h => ?_⟩
  · exact fpDiv_rounded hf t hfb da db (mt finVal_eq_zero.mpr h)
  · exact fpSqrt_rounded hf t hfb db (finVal_nonneg.mp h)

/-- The FMA family on three numbers. -/
theorem fmaElem_rounded (hx : Spec.isNum f c.ftz a x) (hy : Spec.isNum f c.ftz b y) (hz : Spec.isNum f c.ftz d z) :
    Spec.rounded f c (x * y + z) (zeroSign c (f.negOf a != f.negOf b) (f.negOf d)) t (fmaElem .fma f c a b d t) ∧
    Spec.rounded f c (x * y - z) (zeroSign c (f.negOf a != f.negOf b) !f.negOf d) t (fmaElem .fms f c a b d t) ∧
    Spec.rounded f c (-(x * y) + z) (zeroSign c (!(f.negOf a != f.negOf b)) (f.negOf d)) t (fmaElem .fnma f c a b d t) ∧
    Spec.rounded f c (-(x * y) - z) (zeroSign c (!(f.negOf a != f.negOf b)) !f.negOf d) t (fmaElem .fnms f c a b d t) := by
  obtain ⟨ma, ea, da, rfl⟩ := isNum_iff.mp hx
  obtain ⟨mb, eb, db, rfl⟩ := isNum_iff.mp hy
  obtain ⟨md, ed, dd, rfl⟩ := isNum_iff.mp hz
  have run (negP negD : Bool) := fpFma_rounded hf t negP negD da db dd
  have turn (n : Bool) : (n != true) = !n := by cases n <;> rfl
  have keep (n : Bool) : (n != false) = n := by cases n <;> rfl
  simp only [finVal_mul, sub_eq_add_neg, ← finVal_neg]
  have h1 := run false false
  have h2 := run false true
  have h3 := run true false
  have h4 := run true true
  simp only [turn, keep] at h1 h2 h3 h4
  exact ⟨h1, h2, h3, h4⟩

end

/-! Conversions (03 R98). -/

theorem cvtFloat_format {ty : CvtTy} {f : Fmt} (h : Spec.cvtFloat ty = some f) :
    CvtTy.int? ty = none ∧ CvtTy.fmt ty = f ∧ f.Sound ∧ 1 ≤ f.fbits := by
  cases ty <;> simp only [Spec.cvtFloat, Option.some.injEq, reduceCtorEq] at h <;> subst h <;>
    exact ⟨rfl, rfl, sound_of_mem (by simp), by decide⟩

theorem cvtInt_type {ty : CvtTy} {w : Nat} {s : Bool} (h : Spec.cvtInt ty = some (w, s)) : CvtTy.int? ty = some ⟨w, s⟩ := by
  cases ty <;> simp only [Spec.cvtInt, Option.some.injEq, Prod.mk.injEq, reduceCtorEq] at h <;> obtain ⟨rfl, rfl⟩ := h <;> rfl

/-- A whole number as a sign and a magnitude. -/
theorem finVal_natAbs (v : ℤ) : finVal (decide (v < 0)) v.natAbs 0 = v := by
  rcases lt_or_ge v 0 with lt | ge
  · have : (v.natAbs : ℝ) = -v := by rw [Nat.cast_natAbs, abs_of_neg lt]; push_cast; rfl
    simp [finVal, signFactor, lt, this]
  · have : (v.natAbs : ℝ) = v := by rw [Nat.cast_natAbs, abs_of_nonneg ge]
    simp [finVal, signFactor, not_lt.mpr ge, this]

theorem IntTy.lo_le_hi (t : IntTy) : t.lo ≤ t.hi := by
  have h1 : 0 < 2 ^ (t.width - 1) := by positivity
  have h2 : 0 < 2 ^ t.width := by positivity
  unfold IntTy.lo IntTy.hi
  split <;> omega

section
variable {f h : Fmt} {c : FpCfg} {p : Nat} {x : ℝ} (t : FpSt)

theorem cvtFF_rounded (hh : h.Sound) (hx : Spec.isNum f c.ftz p x) :
    Spec.rounded h ⟨if f.width < h.width then 0 else c.rnd, c.ftz⟩ x (f.negOf p) t (cvtFF h f c p t) := by
  obtain ⟨m, e, d, rfl⟩ := isNum_iff.mp hx
  have run : cvtFF h f c p t = roundTo h ⟨if f.width < h.width then 0 else c.rnd, c.ftz⟩ (f.negOf p) m e false t := by
    rw [cvtFF, d]
    dsimp only
    split <;> rfl
  rw [run]
  exact roundTo_exact hh _ t _ _ _ fun _ => rfl

theorem cvtFF_nan (hf : f.Sound) (hfb : 1 ≤ f.fbits) (hh : h.Sound) (hp : Spec.isNan f p) :
    cvtFF h f c p t = (Spec.nan h, if Spec.isSnan f p ∨ h = e2m1 then { t with flags := t.flags ||| 1 } else t) := by
  rw [cvtFF, decode_of_isNan hf hfb c.ftz hp]
  dsimp only
  rw [hh.nan]
  simp only [Bool.or_eq_true, decide_eq_true_eq, beq_iff_eq, hh.kind_e2m1]
  rfl

theorem cvtIF_rounded (hh : h.Sound) (ty : IntTy) : Spec.rounded h c (ty.read p : ℝ) false t (cvtIF h ty c p t) := by
  rw [cvtIF, ← finVal_natAbs (ty.read p)]
  refine roundTo_exact hh c t _ _ _ fun zero => ?_
  rw [Int.natAbs_eq_zero.mp zero]
  rfl

/-- The sign plays no part in the rounding of a whole number of units. -/
theorem goesUp_sign {rnd : Nat} {n n' : Bool} {y : ℝ} {g : Nat} (hg : g < 2 ^ 24) (same : n = n' ∨ Int.fract y = 0) :
    Spec.goesUp rnd n y g ↔ Spec.goesUp rnd n' y g := by
  rcases same with rfl | zero
  · rfl
  · exact iff_of_false (not_goesUp_of_fract_eq_zero hg zero) (not_goesUp_of_fract_eq_zero hg zero)

theorem abs_finVal (n : Bool) (m : Nat) (e : ℤ) : |finVal n m e| = m * 2 ^ e := abs_signFactor_mul n (by positivity)

/-- A float rounded onto the integers (03 R90). -/
theorem roundInt_spec {rnd : Nat} {na neg : Bool} {m : Nat} {e n v : ℤ} (hneg : neg = true ↔ finVal na m e < 0)
    (up : Spec.goesUp rnd neg |finVal na m e| (t.tick rnd).noise → n = ⌊|finVal na m e|⌋ + 1)
    (stay : ¬ Spec.goesUp rnd neg |finVal na m e| (t.tick rnd).noise → n = ⌊|finVal na m e|⌋) (hv : v = if neg then -n else n) :
    ∃ inexact : Bool, roundInt rnd na m e t = (v, inexact, t.tick rnd) ∧ (inexact = true ↔ (n : ℝ) ≠ |finVal na m e|) := by
  have cut := cutAt_cut (e := e) (u := 0) (tail := 0) m le_rfl one_pos (fun h => absurd rfl h)
  rw [zpow_zero, div_one, add_zero, ← abs_finVal na] at cut
  have same : na = neg ∨ m = 0 := by
    rcases eq_or_ne m 0 with zero | pos
    · exact .inr zero
    · refine .inl (Bool.eq_iff_iff.mpr ?_)
      rw [hneg]
      exact (signFactor_neg_iff (by positivity)).symm
  have zero (h : m = 0) : Int.fract |finVal na m e| = 0 := by rw [finVal_eq_zero.mpr h]; simp
  have hn := roundedUnits_eq (c := ⟨rnd, false⟩) (neg := na) (sticky := false) cut (by simp)
    (fun u => up ((goesUp_sign (FpSt.noise_lt _) (same.imp_right zero)).mp u))
    (fun u => stay (mt (goesUp_sign (FpSt.noise_lt _) (same.imp_right zero)).mpr u))
  refine ⟨(cutAt m e 0).2.1 != 0, ?_, ?_⟩
  · have value : v = if na then -(roundedUnits ⟨rnd, false⟩ na m e 0 false t : ℤ)
        else (roundedUnits ⟨rnd, false⟩ na m e 0 false t : ℤ) := by
      rw [hv, ← hn]
      rcases same with rfl | h
      · rfl
      · have n0 : n = 0 := by
          rw [stay (not_goesUp_of_fract_eq_zero (FpSt.noise_lt _) (zero h)), finVal_eq_zero.mpr h]
          simp
        simp [n0]
    rw [value]
    rfl
  · rw [rounded_ne_iff (FpSt.noise_lt _) stay, Ne, cut.fract_eq_zero, bne_iff_ne]
    simp

theorem cvtFI_fin (ty : IntTy) {n : Bool} {m : Nat} {e : ℤ} (d : f.decode c.ftz p = .fin n m e) : cvtFI ty f c p t =
    if (roundInt c.rnd n m e t).1 < ty.lo then (ty.wrap ty.lo, (t.tick c.rnd).raise flagNV)
    else if ty.hi < (roundInt c.rnd n m e t).1 then (ty.wrap ty.hi, (t.tick c.rnd).raise flagNV)
    else (ty.wrap (roundInt c.rnd n m e t).1, if (roundInt c.rnd n m e t).2.1 then (t.tick c.rnd).raise flagNX else t.tick c.rnd) := by
  rw [cvtFI, d]
  rfl

theorem cvtFI_noise (ty : IntTy) {n : Bool} {m : Nat} {e : ℤ} (d : f.decode c.ftz p = .fin n m e) :
    (cvtFI ty f c p t).2.noise = (t.tick c.rnd).noise := by
  rw [cvtFI_fin t ty d]
  repeat' split
  all_goals rfl

theorem tick_flags (rnd : Nat) : (t.tick rnd).flags = t.flags := by
  unfold FpSt.tick
  split <;> rfl

/-- A float rounded onto an integer type, and the nearer end of the type outside it. -/
theorem cvtFI_num (ty : IntTy) (hx : Spec.isNum f c.ftz p x) {neg : Bool} {n v : ℤ} (hneg : neg = true ↔ x < 0)
    (up : Spec.goesUp c.rnd neg |x| (cvtFI ty f c p t).2.noise → n = ⌊|x|⌋ + 1)
    (stay : ¬ Spec.goesUp c.rnd neg |x| (cvtFI ty f c p t).2.noise → n = ⌊|x|⌋) (hv : v = if neg then -n else n) :
    (ty.lo ≤ v → v ≤ ty.hi → (cvtFI ty f c p t).1 = ty.wrap v ∧
      Spec.raises c t (cvtFI ty f c p t).2 ((n : ℝ) ≠ |x|) False False) ∧
    (v < ty.lo → (cvtFI ty f c p t).1 = ty.wrap ty.lo ∧ (cvtFI ty f c p t).2.flags = t.flags ||| 1) ∧
    (ty.hi < v → (cvtFI ty f c p t).1 = ty.wrap ty.hi ∧ (cvtFI ty f c p t).2.flags = t.flags ||| 1) := by
  obtain ⟨m, e, d, rfl⟩ := isNum_iff.mp hx
  rw [cvtFI_noise t ty d] at up stay
  obtain ⟨inexact, run, hi⟩ := roundInt_spec t hneg up stay hv
  have ordered : ty.lo ≤ ty.hi := ty.lo_le_hi
  have nv : ((t.tick c.rnd).raise flagNV).flags = t.flags ||| 1 := by rw [FpSt.raise, tick_flags]; rfl
  rw [cvtFI_fin t ty d, run]
  refine ⟨fun ge le => ?_, fun lt => ?_, fun gt => ?_⟩
  · rw [if_neg ge.not_gt, if_neg le.not_gt]
    refine ⟨rfl, ?_⟩
    cases inexact with
    | true => exact raises_of_flags (iff_of_true rfl (hi.mp rfl)) (by decide) (by decide) rfl rfl
    | false =>
      have exact_ : ¬ (n : ℝ) ≠ |finVal (f.negOf p) m e| := fun ne => Bool.false_ne_true (hi.mpr ne)
      rw [eq_false exact_]
      exact raises_tick c t
  · rw [if_pos lt]
    exact ⟨rfl, nv⟩
  · rw [if_neg (by omega), if_pos gt]
    exact ⟨rfl, nv⟩

theorem cvtFI_nan (ty : IntTy) (hf : f.Sound) (hfb : 1 ≤ f.fbits) (hp : Spec.isNan f p) :
    cvtFI ty f c p t = (0, { t with flags := t.flags ||| 1 }) := by
  rw [cvtFI, decode_of_isNan hf hfb c.ftz hp]
  rfl

end

theorem IntTy.lo_eq (w : Nat) (s : Bool) : (⟨w, s⟩ : IntTy).lo = if s then -2 ^ (w - 1) else 0 := by
  unfold IntTy.lo
  push_cast
  rfl

theorem IntTy.hi_eq (w : Nat) (s : Bool) : (⟨w, s⟩ : IntTy).hi = if s then 2 ^ (w - 1) - 1 else 2 ^ w - 1 := by
  unfold IntTy.hi
  push_cast
  rfl

theorem IntTy.wrap_eq (w : Nat) (s : Bool) (v : ℤ) : (⟨w, s⟩ : IntTy).wrap v = (v % 2 ^ w).toNat := by
  unfold IntTy.wrap
  push_cast
  rfl

end Sys2Proof.Machine
end

section
/-! The float instructions (08 R288 to R293). -/

open Sys2Proof Sys2Proof.Machine

namespace Sys2Proof

theorem floatArithmeticRounds : Spec.floatArithmeticRounds := by
  intro f c t a b d hmem _ ha hb hd
  obtain ⟨hf, hfb, hfb'⟩ := fopFormat_sound hmem
  have sa := negOf_eq ha
  have sb := negOf_eq hb
  have sd := negOf_eq hd
  refine ⟨fun x y hx hy => ?_, fun op hop h => fop_of_isNan hf hfb t hop h, fun ia ib => ?_, fun ia zb => ?_⟩
  · obtain ⟨add, sub, mul, div, sqrt⟩ := fopElem_rounded hf t hfb' hx hy
    rw [sa, sb] at add sub mul div
    rw [sb] at sqrt
    refine ⟨add, sub, mul, div, fun h hx0 => ?_, fun h hx0 => ?_, sqrt, fun h => ?_, (fpMinMax_isNum hf false t ha hb hx hy).1,
      (fpMinMax_isNum hf false t ha hb hx hy).2, (fpMinMax_isNum hf true t ha hb hx hy).1, (fpMinMax_isNum hf true t ha hb hx hy).2,
      fun h32 => ?_, fun z hz => ?_⟩
    · subst h
      refine (fpDiv_zero t hx hy).trans ?_
      rw [if_neg hx0, sa, sb, infOf_eq]
      rfl
    · subst h
      exact (fpDiv_zero t hx hy).trans ((if_pos hx0).trans (invalid_eq hf t))
    · exact (fpSqrt_neg t hy h).trans (invalid_eq hf t)
    · subst h32
      exact fpCompare_isNum t hx hy
    · have fused := fmaElem_rounded hf t hx hy hz
      rw [sa, sb, sd] at fused
      exact fused
  · refine (fpAdd_inf_inf t ia ib).trans ?_
    rw [sa, sb, invalid_eq hf, infOf_eq]
  · exact (fpMul_inf_zero t ia zb).trans (invalid_eq hf t)

theorem conversionsRound : Spec.conversionsRound := by
  intro tt st c sat p t _
  refine ⟨fun f h hs ht => ?_, fun w s h hs ht => ?_, fun f w s hs ht => ?_, fun v s w z hs ht => ?_⟩
  · obtain ⟨si, rfl, hf, hfb⟩ := cvtFloat_format hs
    obtain ⟨ti, rfl, hh, -⟩ := cvtFloat_format ht
    have run : fcvtElem tt st c sat p t = cvtFF (CvtTy.fmt tt) (CvtTy.fmt st) c p t := by rw [fcvtElem, si, ti]
    exact ⟨fun x hx => by rw [run]; exact cvtFF_rounded t hh hx, fun hp => run.trans (cvtFF_nan t hf hfb hh hp)⟩
  · have si := cvtInt_type hs
    obtain ⟨ti, rfl, hh, -⟩ := cvtFloat_format ht
    have run : fcvtElem tt st c sat p t = cvtIF (CvtTy.fmt tt) ⟨w, s⟩ c p t := by rw [fcvtElem, si, ti]
    rw [run]
    exact cvtIF_rounded t hh ⟨w, s⟩
  · obtain ⟨si, rfl, hf, hfb⟩ := cvtFloat_format hs
    have ti := cvtInt_type ht
    have run : fcvtElem tt st c sat p t = cvtFI ⟨w, s⟩ (CvtTy.fmt st) c p t := by rw [fcvtElem, si, ti]
    refine ⟨fun hp => run.trans (cvtFI_nan t ⟨w, s⟩ hf hfb hp), fun x hx neg n v hneg => ?_⟩
    rw [run]
    intro up hup hstay hv
    have main := cvtFI_num t ⟨w, s⟩ hx hneg hup hstay hv
    rw [IntTy.lo_eq, IntTy.hi_eq, IntTy.wrap_eq, IntTy.wrap_eq, IntTy.wrap_eq] at main
    exact main
  · have si := cvtInt_type hs
    have ti := cvtInt_type ht
    have run : fcvtElem tt st c sat p t = ((⟨w, z⟩ : IntTy).sat sat ((⟨v, s⟩ : IntTy).read p), t) := by rw [fcvtElem, si, ti]
    refine run.trans ?_
    cases sat
    · rw [IntTy.sat, if_neg Bool.false_ne_true, IntTy.wrap_eq]
      rfl
    · rw [IntTy.sat, if_pos rfl, IntTy.clamp, IntTy.wrap_eq, IntTy.lo_eq, IntTy.hi_eq]
      rfl

/-! Operations on the sign bit, and classes (03 R97, 08 R288, R292). -/

namespace Machine

theorem signBit_eq_width (f : Fmt) : f.signBit = 2 ^ (f.width - 1) ∧ 2 ^ f.width = f.signBit * 2 := by
  unfold Fmt.signBit Fmt.width
  rw [show 1 + f.ebits + f.fbits - 1 = f.ebits + f.fbits by omega, ← pow_succ]
  exact ⟨rfl, by congr 1; omega⟩

theorem xor_two_pow_of_lt {k b : Nat} (h : b < 2 ^ k) : b ^^^ 2 ^ k = 2 ^ k + b := by
  apply Nat.eq_of_testBit_eq
  intro i
  rw [Nat.testBit_xor, Nat.testBit_two_pow]
  rcases Nat.lt_trichotomy i k with lt | rfl | gt
  · rw [Nat.testBit_two_pow_add_gt lt]
    simp [lt.ne']
  · rw [Nat.testBit_two_pow_add_eq]
    simp
  · have big : 2 ^ (k + 1) ≤ 2 ^ i := Nat.pow_le_pow_right (by decide) gt
    rw [pow_succ] at big
    rw [Nat.testBit_lt_two_pow (show b < 2 ^ i by omega), Nat.testBit_lt_two_pow (show 2 ^ k + b < 2 ^ i by omega)]
    simp [gt.ne]

/-- Turning the top bit of a pattern. -/
theorem xor_top_bit {k b : Nat} (h : b < 2 ^ k * 2) : b ^^^ 2 ^ k = b % 2 ^ k + (if b < 2 ^ k then 2 ^ k else 0) := by
  rcases Nat.lt_or_ge b (2 ^ k) with lt | ge
  · rw [xor_two_pow_of_lt lt, Nat.mod_eq_of_lt lt, if_pos lt, Nat.add_comm]
  · obtain ⟨d, rfl⟩ := Nat.exists_eq_add_of_le ge
    have lt : d < 2 ^ k := by omega
    rw [← xor_two_pow_of_lt lt, Nat.xor_xor_cancel_right, xor_two_pow_of_lt lt, if_neg (by omega), Nat.add_mod_left, Nat.mod_eq_of_lt lt,
      Nat.add_zero]

theorem signOps (f : Fmt) (c : FpCfg) {a b : Nat} (t : FpSt) (hb : b < 2 ^ f.width) :
    fopElem .fneg f c a b t = (b % 2 ^ (f.width - 1) + (if b < 2 ^ (f.width - 1) then 2 ^ (f.width - 1) else 0), t) ∧
    fopElem .fabs f c a b t = (b % 2 ^ (f.width - 1), t) ∧
    fopElem .fcpys f c a b t = (a % 2 ^ (f.width - 1) + (if b < 2 ^ (f.width - 1) then 0 else 2 ^ (f.width - 1)), t) := by
  obtain ⟨top, double⟩ := signBit_eq_width f
  have pos : 0 < f.signBit := by unfold Fmt.signBit; positivity
  rw [← top]
  refine ⟨?_, rfl, ?_⟩
  · have turn : b ^^^ f.signBit = _ := xor_top_bit (k := f.ebits + f.fbits) (double ▸ hb)
    show (Nat.xor (b % 2 ^ f.width) f.signBit, t) = _
    rw [Nat.mod_eq_of_lt hb]
    exact congrArg (·, t) turn
  · show (a % f.signBit + b / f.signBit % 2 * f.signBit, t) = _
    rcases Nat.lt_or_ge b f.signBit with lt | ge
    · rw [if_pos lt, Nat.div_eq_of_lt lt, Nat.zero_mod, Nat.zero_mul]
    · have one : b / f.signBit = 1 := Nat.div_eq_of_lt_le (by omega) (by omega)
      rw [if_neg (Nat.not_lt.mpr ge), one, Nat.one_mod, Nat.one_mul]

theorem fclassBits_eq {x : Nat} (h : x < 2 ^ 32) : fclassBits x =
    if x / 2 ^ 23 % 256 = 255 then
      (if x % 2 ^ 23 = 0 then (if 2 ^ 31 ≤ x then 1 else 128) else if x % 2 ^ 23 < 2 ^ 22 then 256 else 512)
    else if x / 2 ^ 23 % 256 = 0 then (if x % 2 ^ 23 = 0 then (if 2 ^ 31 ≤ x then 8 else 16) else if 2 ^ 31 ≤ x then 4 else 32)
    else if 2 ^ 31 ≤ x then 2 else 64 := by
  have neg : (x / 2 ^ 31 % 2 == 1) = decide (2 ^ 31 ≤ x) := by
    rw [Bool.eq_iff_iff, beq_iff_eq, decide_eq_true_eq]
    omega
  have quiet : x % 2 ^ 23 / 2 ^ 22 = 0 ↔ x % 2 ^ 23 < 2 ^ 22 := Nat.div_eq_zero_iff_lt (by decide)
  unfold fclassBits
  dsimp only
  rw [neg]
  simp only [quiet, decide_eq_true_eq]
  generalize x / 2 ^ 23 % 256 = e
  generalize x % 2 ^ 23 = m
  by_cases e255 : e = 255
  · by_cases m0 : m = 0 <;> simp [e255, m0]
  · by_cases e0 : e = 0
    · by_cases m0 : m = 0 <;> simp [e0, m0]
    · simp [e255, e0]

end Machine

theorem signOpsAndClasses : Spec.signOpsAndClasses :=
  ⟨fun d b => toNat_encode_wordA rfl (by decide) d.isLt (by decide) b.isLt (by decide),
    fun f c a b t _ _ hb => signOps f c t hb, fun _ hx => fclassBits_eq hx⟩

/-! The instructions (08 R288 to R293). -/

theorem fopFmt_of_takes {op : FopOp} {e : Nat} {f : Fmt} (h : Spec.fpTakes op e = some f) : fopFmt op e = some f := by
  unfold Spec.fpTakes at h
  split at h
  · rename_i e6
    rw [e6, ← h]
    cases op <;> rfl
  split at h
  · cases h
  rename_i plain
  have etype : fopFmt op e = etypeFmt e := by cases op <;> simp at plain <;> rfl
  rw [etype]
  split at h
  · rename_i e7; rw [e7]; exact h
  · split at h
    · rename_i e8; rw [e8]; exact h
    · cases h

theorem floatInstructionsComplete : Spec.floatInstructionsComplete := by
  refine ⟨fun s g d a f => ⟨fun op b run ty => ?_, fun op b run ty => ?_, fun op b run ty => ?_, fun op b run ty => ?_⟩,
    fun s g d a b run => ⟨fun op => ?_, fun op => ?_, fun t u => ?_⟩,
    fun s g => ⟨fun op d a b run ty => ?_, fun op d a b run ty => ?_, fun d b run ty => ?_, fun t u d a run e13 e14 => ?_⟩⟩
  · show execFop op d a b s = _
    exact runGang_done run (by rw [fopFmt_of_takes ty]; rfl)
  · show execFops op d a b s = _
    exact runGang_done run (by rw [fopFmt_of_takes ty]; rfl)
  · show execFma op d a b s = _
    have ty' : etypeFmt (modeEtype g.regs.mode) = some f := fopFmt_of_takes ty
    exact runGang_done run (by rw [ty']; rfl)
  · show execFmaVs op d a b s = _
    have ty' : etypeFmt (modeEtype g.regs.mode) = some f := fopFmt_of_takes ty
    exact runGang_done run (by rw [ty']; rfl)
  · show execSfop op d a b s = _
    exact runGang_done (vs := []) run rfl
  · show execFmaS op d a b s = _
    exact runGang_done (vs := []) run rfl
  · show execFcvtS t u d a s = _
    exact runGang_done (vs := []) run rfl
  · show execFcmp op d a b s = _
    exact runGang_done run (if_neg (not_not.mpr ty))
  · show execFcmpS op d a b s = _
    exact runGang_done run (if_neg (not_not.mpr ty))
  · show execFclass d b s = _
    exact runGang_done run (if_neg (not_not.mpr ty))
  · show execFcvt t u d a s = _
    exact runGang_done run (if_neg (not_or.mpr ⟨e13, e14⟩))

/-- Settles O17: rounding cuts the exact value at the format's unit and compares the rest with half of it; each operation gives rounding its
exact real value, and each instruction its operations' results lane by lane. -/
theorem floatingPoint : Obligations.FloatingPoint :=
  ⟨floatInstructionsComplete, signOpsAndClasses, floatArithmeticRounds, conversionsRound⟩

end Sys2Proof
end
